-- ==== Sys2Proof/Word.lean ====
section
/-! DEFINITION. The word types of the NH3120 and the index types of its tables. -/

namespace Sys2Proof

/-- One byte of a descriptor, a request block, a response or a journal entry (R184). -/
abbrev Byte := BitVec 8

/-- One block: 4096 bytes, the unit of every address and count (00_scope, Terms). -/
abbrev Block := BitVec 32768

/-- A key generation: 32 bits, counted modulo 2^32 (R57). -/
abbrev Gen := BitVec 32

/-- 32 bytes: a proof or a verifier (00_scope Terms, R62). -/
abbrev Secret := BitVec 256

/-- A range index, 0–15 (R25). -/
abbrev RangeIx := Fin 16

/-- A credential index, 0–7 (R62). -/
abbrev CredIx := Fin 8

/-- A key slot number, 0–23 (R48). -/
abbrev SlotIx := Fin 24

/-- A cipher lane number, 0–3 (R14). -/
abbrev LaneIx := Fin 4

/-- A front tag, 0–31 (R1). -/
abbrev FrontTag := Fin 32

/-- A media tag, 0–47 (R19). -/
abbrev MediaTag := Fin 48

/-- A job number, 0–5 (R120). -/
abbrev JobNo := Fin 6

/-- The low `n` bytes of `v`, little-endian (R184). -/
def leBytes : Nat → Nat → List Byte
  | 0, _ => []
  | n + 1, v => BitVec.ofNat 8 v :: leBytes n (v / 256)

/-- The number that bytes spell, little-endian (R184). -/
def leNat : List Byte → Nat
  | [] => 0
  | b :: bs => b.toNat + 256 * leNat bs

end Sys2Proof
end

