-- ==== Sys2Proof/Config.lean ====
section
/-! DEFINITION. What the spec leaves to the part: free values and the ciphers and digests it keeps outside the manual.
Every constant here has no body that a proof could see. -/

namespace Sys2Proof

/-- A key. Key material never leaves the part and no width is given (chapter 3), so a key is a name. -/
abbrev Key := Nat

/-- Whether a 32-byte proof matches a verifier. "The cipher and digest internals are outside this manual" (00_scope,
Terms, Proof). Log entry 8. -/
opaque Config.proofMatches : Secret → Secret → Bool

/-- The key created at the n-th creation (R42, R49, R111, R141): a free value. Log entry 9. -/
opaque Config.newKey : Nat → Key

/-- One block enciphered under a key at an LBA (00_scope, Ciphering). Log entry 9. -/
opaque Config.encipher : Key → Nat → Block → Block

/-- One block deciphered under a key at an LBA (00_scope, Ciphering). Log entry 9. -/
opaque Config.decipher : Key → Nat → Block → Block

/-- The n-th block of fresh random fill (R128): a free value. Log entry 10. -/
opaque Config.randomBlock : Nat → Block

/-- The ticket the part would choose at the n-th choice (R104): a free value. Log entry 11. -/
opaque Config.freeTicket : Nat → BitVec 16

end Sys2Proof
end

