-- ==== Sys2Proof/Syntax.lean ====
section
/-! DEFINITION. The commands of the NH3120: one constructor of Instr per row of spec/opcode_table.json, with its operands. -/

namespace Sys2Proof

/-- The request block of a CONTROL transaction (R184): the 36-byte header's request code, credential byte and proof, and
the parameter bytes that its parameter length gives. -/
structure RequestBlock where
  code   : BitVec 16
  cred   : Byte
  proof  : Secret
  params : List Byte
deriving DecidableEq, Repr

/-- A front descriptor (R1, R184). The class is its code: 0 READ, 1 WRITE, 2 TRIM, 3 FLUSH, 4 CONTROL. -/
structure Descriptor where
  tag   : FrontTag
  cls   : Byte
  start : BitVec 40
  count : BitVec 32
  block : RequestBlock
deriving DecidableEq, Repr

/-- A media completion: OK, with the data for a READ, or ERROR (R20). -/
inductive MediaResult
  | ok (data : List Block)
  | error
deriving DecidableEq, Repr

/-- A tamper line's level, sampled or filtered (R157). -/
inductive Level
  | asserted
  | released
deriving DecidableEq, Repr

/-- The three tamper lines (R157). -/
inductive TamperLine
  | caseLine
  | bayLine
  | serviceLine
deriving DecidableEq, Repr

/-- What the start-up phases read from outside: the native capacity that the media controller reports in phase 1 (R87)
and the first sample of each tamper line in phase 8 (R157). Log entry 22. -/
structure StartInputs where
  capacity : Nat
  caseLv   : Level
  bayLv    : Level
  svcLv    : Level
deriving DecidableEq, Repr

/-- The commands. A request's operands stand in the request block that a CONTROL transaction brought; the request's
command is the service of the request in service (log entry 6). -/
inductive Instr
  | frontTransaction (d : Descriptor)
  | linkReset
  | mediaCompletion (tag : MediaTag) (res : MediaResult)
  | lateCompletion (tag : MediaTag)
  | mediaTimeout (tag : MediaTag)
  | mediaTagGrant (tag : MediaTag)
  | laneGrant (lane : LaneIx)
  | lanePassEnd (lane : LaneIx) (data : List Block)
  | chunkPassEnd
  | storeWriteCompletion
  | fenceSet
  | drainFinish (range : RangeIx)
  | idleRelockExpiry
  | stepToIdle
  | dozeStepDue
  | stepToDoze
  | wakeFromDozeComplete
  | sleepRequestRise
  | sleepReady
  | sleepRequestFall
  | wakeFromSleepComplete
  | powerGoodRise (p : StartInputs)
  | powerGoodFall
  | acceptedEdge (line : TamperLine)
  | query
  | restart (p : StartInputs)
  | freeze
  | journalRead
  | journalMask
  | unlock
  | unlockAbsent
  | lock
  | credSet
  | credClear
  | credDisable
  | credEnable
  | credGrant
  | credRevoke
  | credBudget
  | rangeDefine
  | rangeDelete
  | rangeFlags
  | rangeRekey
  | ceilingSet
  | reserveOpen
  | reserveClose
  | pbwSet
  | wipePrepare
  | wipeCommit
  | sweepStatus
  | sweepPause
  | sweepResume
  | sweepCancel
  | theftSet
  | powerSet
  | unknownRequest
  | tamperSample (line : TamperLine) (level : Level)
deriving DecidableEq, Repr

end Sys2Proof
end

