-- ==== Sys2Proof/WellFormed.lean ====
section
/-! DEFINITION. Which commands are well formed: the bounds that the formats of R184 put on operands. -/

namespace Sys2Proof

/-- The parameter length of a request block is one byte (R184). -/
def RequestBlock.wf (b : RequestBlock) : Bool := b.params.length ≤ 255

/-- N is reported in 6 bytes (R184). -/
def StartInputs.wf (p : StartInputs) : Bool := p.capacity < 2 ^ 48

/-- Data of one segment or request: at most the 65,536 blocks of a transaction (R1). -/
def wfData (data : List Block) : Bool := data.length ≤ 65536

/-- Well-formedness of a media completion's result. -/
def MediaResult.wf : MediaResult → Bool
  | .ok data => wfData data
  | .error => true

/-- The well-formed commands. Illegal tags, classes and counts of a descriptor are not ill-formed: R2 gives them their
answer. -/
def Instr.wf : Instr → Bool
  | .frontTransaction d => d.block.wf
  | .linkReset => true
  | .mediaCompletion _ res => res.wf
  | .lateCompletion _ => true
  | .mediaTimeout _ => true
  | .mediaTagGrant _ => true
  | .laneGrant _ => true
  | .lanePassEnd _ data => wfData data
  | .chunkPassEnd => true
  | .storeWriteCompletion => true
  | .fenceSet => true
  | .drainFinish _ => true
  | .idleRelockExpiry => true
  | .stepToIdle => true
  | .dozeStepDue => true
  | .stepToDoze => true
  | .wakeFromDozeComplete => true
  | .sleepRequestRise => true
  | .sleepReady => true
  | .sleepRequestFall => true
  | .wakeFromSleepComplete => true
  | .powerGoodRise p => p.wf
  | .powerGoodFall => true
  | .acceptedEdge _ => true
  | .query => true
  | .restart p => p.wf
  | .freeze => true
  | .journalRead => true
  | .journalMask => true
  | .unlock => true
  | .unlockAbsent => true
  | .lock => true
  | .credSet => true
  | .credClear => true
  | .credDisable => true
  | .credEnable => true
  | .credGrant => true
  | .credRevoke => true
  | .credBudget => true
  | .rangeDefine => true
  | .rangeDelete => true
  | .rangeFlags => true
  | .rangeRekey => true
  | .ceilingSet => true
  | .reserveOpen => true
  | .reserveClose => true
  | .pbwSet => true
  | .wipePrepare => true
  | .wipeCommit => true
  | .sweepStatus => true
  | .sweepPause => true
  | .sweepResume => true
  | .sweepCancel => true
  | .theftSet => true
  | .powerSet => true
  | .unknownRequest => true
  | .tamperSample _ _ => true

end Sys2Proof
end

