-- ==== Sys2Proof/Decode.lean ====
section
/-! DEFINITION. The decoder over opcode_table.json. No row of the table gives a bit ("fields" is empty in all of them
and none has "fixed"), so no word spells a command. -/

namespace Sys2Proof

/-- The command that a word spells by the table's bits: none, since no row gives bits. -/
def decodeTableWord (_nbits _w : Nat) : Option Instr := none

end Sys2Proof
end

