-- ==== Sys2Proof/Machine/State.lean ====
section
/-! DEFINITION. The state of the NH3120 as plain data: every register, table, list, counter and pin the spec names, the
queue of commands, and State.reset. -/

namespace Sys2Proof.Machine

/-! ## Named values (R184's value codes) -/

/-- Front transaction classes (R1). -/
inductive FrontClass
  | read | write | trim | flush | control
deriving DecidableEq, Repr

/-- Completion statuses of front transactions (R4). -/
inductive Status
  | ok | malformed | outOfRange | locked | rangeBusy | mediaError | linkTimeout | retry | aborted
deriving DecidableEq, Repr

/-- Response statuses (R175). -/
inductive RespStatus
  | done | denied | exhausted | disabled | notPermitted | frozen | badRequest | rangeBusy | slotsExhausted
  | tableFull | alreadySet | noTicket | notCancellable
deriving DecidableEq, Repr

/-- Lock states (R34). -/
inductive LockState
  | locked | readOnly | opened
deriving DecidableEq, Repr

/-- Conditions (R37). -/
inductive Condition
  | steady | migrating | draining | purging
deriving DecidableEq, Repr

/-- Read styles (R36). -/
inductive ReadStyle
  | refuse | blank
deriving DecidableEq, Repr

/-- Lane policies (R16). -/
inductive LanePolicy
  | yielding | holding
deriving DecidableEq, Repr

/-- Fill patterns (R120, R128). -/
inductive Pattern
  | zeros | ones | random
deriving DecidableEq, Repr

/-- Grant accesses (R62). -/
inductive Access
  | read | readWrite
deriving DecidableEq, Repr

/-- Credential states (R63). -/
inductive CredState
  | empty | set | exhausted | disabled
deriving DecidableEq, Repr

/-- Causes of a lock (R74). -/
inductive LockCause
  | request | idle | sleep | tamper
deriving DecidableEq, Repr

/-- Theft causes (R113, R167). -/
inductive TheftCause
  | none | strikes | lockedStarts | tamper
deriving DecidableEq, Repr

/-- Triggers of a tamper line (R158). -/
inductive Trigger
  | onAssert | onRelease | both
deriving DecidableEq, Repr

/-- Actions of a tamper line (R158). -/
inductive Action
  | ignore | log | lock | wipe
deriving DecidableEq, Repr

/-- Power states (R168). -/
inductive PowerState
  | active | idle | doze | sleep
deriving DecidableEq, Repr

/-- The operation in progress of the power controller (R168). -/
inductive PowerOp
  | noOp | wakeDoze | sleepEntry | wakeSleep
deriving DecidableEq, Repr

/-- Which start-up it is (R178, R183). -/
inductive StartCause
  | powerOn | restart
deriving DecidableEq, Repr

/-- Job kinds (R120). -/
inductive JobKind
  | rekey | purge
deriving DecidableEq, Repr

/-- Job states (R122). -/
inductive JobState
  | queued | running | preempted | paused | stalled | done | cancelled | failed
deriving DecidableEq, Repr

/-- Pause causes (R120). -/
inductive PauseCause
  | request | locked | power
deriving DecidableEq, Repr

/-- Pending actions (R120). -/
inductive PendingAction
  | noAction | pause | cancel
deriving DecidableEq, Repr

/-- Stall causes (R130). -/
inductive StallCause
  | damageFull | mediaError | linkTimeout
deriving DecidableEq, Repr

/-- Causes of a cancellation (R184). -/
inductive CancelCause
  | wipe | theft | request
deriving DecidableEq, Repr

/-- The kinds of journal entries (R184). -/
inductive Kind
  | startUp | recovered | unlocked | unlockDenied | credExhausted | locked | wipeCommitted | wipeDone | theftWipe
  | tamper | tamperBlocked | sweepDone | sweepStalled | sweepCancelled | sweepDropped | damageRecorded
  | mediaTimeout | configChanged | powerStep
deriving DecidableEq, Repr

/-! ## Spans, ranges, slots, credentials -/

/-- A span of blocks [start, start + len). -/
structure Run where
  start : Nat
  len   : Nat
deriving DecidableEq, Repr

/-- The five flags of a range entry (R25). -/
structure Flags where
  style          : ReadStyle
  lockOnSleep    : Bool
  idleRelock     : Bool
  wipeOnTheft    : Bool
  recoveryBarred : Bool
deriving DecidableEq, Repr

/-- The volatile view of a migration record (R28, R139). The next stored key and the staged record stand in the store. -/
structure MigRec where
  w         : Nat
  nextSlot  : Option SlotIx
  fence     : Option Run
  job       : Option JobNo
  level     : Nat
  policy    : LanePolicy
  chunkSize : Nat
deriving DecidableEq, Repr

/-- One entry of the range table (R25). `finishing` is the model's own mark that the store writes of the finish of the
entry's drain have been issued (R111). -/
structure RangeEntry where
  active    : Bool
  start     : Nat
  len       : Nat
  lock      : LockState
  cond      : Condition
  slot      : Option SlotIx
  mig       : Option MigRec
  gen       : Gen
  flags     : Flags
  finishing : Bool
deriving DecidableEq, Repr

/-- States of a key slot (R48). -/
inductive SlotState
  | empty | loaded | pendingZero
deriving DecidableEq, Repr

/-- Roles of a media slot (R51). -/
inductive Role
  | current | next
deriving DecidableEq, Repr

/-- One key slot (R48). -/
structure Slot where
  state : SlotState
  key   : Option Key
  owner : Option (RangeIx × Gen)
  role  : Option Role
  held  : Bool
  count : Nat
deriving DecidableEq, Repr

/-- A grant (R62). -/
structure Grant where
  range  : RangeIx
  access : Access
deriving DecidableEq, Repr

/-- One credential record (R62). -/
structure Cred where
  state    : CredState
  verifier : Option Secret
  budget   : Nat
  tries    : Nat
  grants   : List Grant
deriving DecidableEq, Repr

/-- The configuration of a tamper line (R158). -/
structure LineConfig where
  trigger  : Trigger
  action   : Action
  blocking : Option TamperLine
deriving DecidableEq, Repr

/-- The theft policy (R165). Acknowledge acts in the THEFT.SET that carries it (R166), and the factory policy names none: it is no
part of what is kept (DESIGN CHOICE, log entry 19). -/
structure TheftPolicy where
  strikeLimit   : Nat
  threshold     : Nat
  purge         : Option Pattern
  caseLine      : LineConfig
  bayLine       : LineConfig
  serviceLine   : LineConfig
  relockMinutes : Nat
deriving DecidableEq, Repr

/-- The device record (R182). -/
structure Device where
  systemKey    : Option Key
  ceiling      : Nat
  pbwLen       : Nat
  pbwEnabled   : Bool
  policy       : TheftPolicy
  idle         : Nat
  doze         : Nat
  strikes      : Nat
  lockedStarts : Nat
  lastCause    : TheftCause
deriving DecidableEq, Repr

/-- A purge option (R103, R109). -/
structure PurgeOpt where
  level   : Nat
  policy  : LanePolicy
  pattern : Pattern
deriving DecidableEq, Repr

/-- An entry of the wipe intent list (R109). -/
structure Intent where
  range  : RangeIx
  gen    : Gen
  purge  : Option PurgeOpt
  stored : Bool
deriving DecidableEq, Repr

/-- An entry of the damaged list (R145). -/
structure Damage where
  range : RangeIx
  lba   : Nat
deriving DecidableEq, Repr

/-! ## Events -/

/-- Edge directions of a tamper line (R157). -/
inductive Edge
  | assert | release
deriving DecidableEq, Repr

/-- The detail of a journal entry (R184). -/
inductive Detail
  | none
  | startUp (c : StartCause)
  | recovered (start : Nat) (failed : Bool)
  | lock (l : LockState)
  | code (c : BitVec 16)
  | lockCause (c : LockCause)
  | gen (g : Gen)
  | theft (c : TheftCause)
  | tamper (line : TamperLine) (edge : Edge)
  | blocked (line : TamperLine) (edge : Edge) (blocker : TamperLine)
  | sweepDone (failed : Bool)
  | stall (c : StallCause)
  | cancelled (c : CancelCause)
  | lba (n : Nat)
  | mediaTag (t : MediaTag)
  | power (p : PowerState)
deriving DecidableEq, Repr

/-- An event handed to the journal (R178). -/
structure Event where
  kind   : Kind
  range  : Option RangeIx := none
  cred   : Option CredIx := none
  job    : Option JobNo := none
  detail : Detail := .none
deriving DecidableEq, Repr

/-! ## Persistent records (R45, R139, R182) -/

/-- The staged record (R139). -/
structure Staged where
  range : RangeIx
  start : Nat
  len   : Nat
  runs  : List Run
deriving DecidableEq, Repr

/-- The persistent part of a migration record (R139). -/
structure StoredMig where
  nextKey   : Key
  w         : Nat
  level     : Nat
  policy    : LanePolicy
  chunkSize : Nat
  staged    : Option Staged
deriving DecidableEq, Repr

/-- A purge checkpoint (R128): the position, and the job's level, lane policy and pattern. -/
structure PurgeCkpt where
  lba : Nat
  opt : PurgeOpt
deriving DecidableEq, Repr

/-- A persistent range record (R45). -/
structure RangeRecord where
  active : Bool
  start  : Nat
  len    : Nat
  flags  : Flags
  gen    : Gen
  key    : Option Key
  cond   : Condition
  mig    : Option StoredMig
  purge  : Option PurgeCkpt
deriving DecidableEq, Repr

/-- A persistent credential record (R62); its state is EMPTY, SET or DISABLED. -/
structure CredRecord where
  state    : CredState
  verifier : Option Secret
  budget   : Nat
  grants   : List Grant
deriving DecidableEq, Repr

/-- The persistent store (R182). -/
structure Store where
  device  : Device
  ranges  : Vector RangeRecord 16
  creds   : Vector CredRecord 8
  intents : List Intent
  damaged : List Damage
deriving DecidableEq, Repr

/-- What a write of the device record changes; an absent field keeps its value (log entry 7). -/
structure DevPatch where
  systemKey    : Option Key := none
  ceiling      : Option Nat := none
  pbw          : Option (Nat × Bool) := none
  policy       : Option TheftPolicy := none
  intervals    : Option (Nat × Nat) := none
  strikes      : Option Nat := none
  lockedStarts : Option Nat := none
  lastCause    : Option TheftCause := none
deriving DecidableEq, Repr

/-- The writes of one record each (R182), each carrying the fields its rule names (log entry 7). -/
inductive StoreOp
  /-- The device record. -/
  | device (p : DevPatch)
  /-- RANGE.DEFINE's record (R42). -/
  | rangeDefine (r : RangeIx) (start len : Nat) (flags : Flags) (gen : Gen) (key : Key)
  /-- The FREE record that keeps its generation (R43). -/
  | rangeFree (r : RangeIx)
  /-- New flags (R44). -/
  | rangeFlags (r : RangeIx) (flags : Flags)
  /-- MIGRATING with a next key (R141). -/
  | rangeMigrate (r : RangeIx) (m : StoredMig)
  /-- The staged record (R148). -/
  | rangeStaged (r : RangeIx) (g : Staged)
  /-- W, and no staged record (R148). -/
  | rangeCheckpoint (r : RangeIx) (w : Nat)
  /-- No staged record, W unchanged (R149). -/
  | rangeUnstage (r : RangeIx)
  /-- The completing store (R151), or the checkpoint it is when the range drains (R153). -/
  | rangeComplete (r : RangeIx) (w : Nat)
  /-- The finish of a drain (R111). -/
  | rangeDrained (r : RangeIx) (gen : Gen) (key : Key) (purge : Option PurgeOpt)
  /-- A purge checkpoint (R128). -/
  | rangePurge (r : RangeIx) (c : PurgeCkpt)
  /-- STEADY with no purge checkpoint (R128, R129, R135). -/
  | rangeSteady (r : RangeIx)
  /-- A credential record (R77). -/
  | cred (c : CredIx) (rec : CredRecord)
  /-- The wipe intent list without some entries, with some purge options dropped, and with new entries. -/
  | intents (remove drop : List RangeIx) (add : List Intent)
  /-- The damaged list without some entries and with new ones. -/
  | damaged (remove add : List Damage)
  /-- The damaged list without a range's entries. -/
  | damagedRange (r : RangeIx)
deriving DecidableEq, Repr

/-- What the completion of a store write does beside changing the record (R182). -/
inductive Done
  /-- Nothing. -/
  | nothing
  /-- The request in service goes on. -/
  | control
  /-- The theft wipe's device record write (R115); a STRIKES wipe's write is the one DENIED waits for. -/
  | theftDevice (cause : TheftCause) (control : Bool)
  /-- The theft wipe's intent write (R115). -/
  | theftIntents (cause : TheftCause) (set : List RangeIx)
  /-- The clearing write of the locked-start count (R163). -/
  | theftClear
  /-- The last write of the finish of a drain (R111). -/
  | drained (r : RangeIx) (gen : Gen) (purging : Bool)
  /-- A store write of the chunk in motion. -/
  | chunk
  /-- The completing store of a re-key made with no chunk, with W at `w` (R127). -/
  | completing (r : RangeIx) (w : Nat)
  /-- The STEADY store of a range with which the PURGE job `j` is done without a chunk (R127). -/
  | purged (r : RangeIx) (j : JobNo)
  /-- The entry of an event that is reported once its records are stored (R38, R129). -/
  | report (e : Event)
deriving DecidableEq, Repr

/-- A store write issued and not completed, with the writes that its block issues after it, one after another. -/
structure Write where
  op   : StoreOp
  done : Done
  rest : List (StoreOp × Done)
deriving DecidableEq, Repr

/-! ## Journal -/

/-- An entry of the journal's ring (R178). -/
structure JEntry where
  seq   : BitVec 16
  event : Event
deriving DecidableEq, Repr

/-- The journal (R178, R179). -/
structure Journal where
  ring       : List JEntry
  gapPending : Bool
  nextSeq    : BitVec 16
  mask       : BitVec 32
deriving DecidableEq, Repr

/-! ## Front port and media port -/

/-- The stage of an unfinished transaction. -/
inductive Stage
  /-- Waiting for start-up or a wake (R3). -/
  | waiting
  /-- On the fence hold list (R10). -/
  | held
  /-- Admitted: its segments are on their paths (R12). -/
  | admitted
  /-- A FLUSH with the segments of its wait set that have not retired (R23). -/
  | flushWait (ids : List Nat)
  /-- A FLUSH whose media FLUSH request has been made (R23). -/
  | flushOut
  /-- A CONTROL transaction offered and not answered (R22). -/
  | control
deriving DecidableEq, Repr

/-- An unfinished front transaction (R1, R2). -/
structure Txn where
  cls   : FrontClass
  start : Nat
  count : Nat
  block : RequestBlock
  stage : Stage
deriving DecidableEq, Repr

/-- The place of a segment (R6). -/
inductive Place
  | preboot
  | range (r : RangeIx)
deriving DecidableEq, Repr

/-- The side of a segment of a MIGRATING range (R6). -/
inductive Side
  | below | above
deriving DecidableEq, Repr

/-- The states of a segment (R12). -/
inductive SegState
  | laneWait | inLane | tagWait | onMedia | retired
deriving DecidableEq, Repr

/-- A segment record (R6). `owner` is absent once a link reset has ended its transaction (R24). -/
structure Segment where
  id     : Nat
  owner  : Option FrontTag
  cls    : FrontClass
  start  : Nat
  len    : Nat
  place  : Place
  side   : Option Side
  slot   : Option SlotIx
  addr   : Nat
  state  : SegState
  status : Status
  data   : List Block
deriving DecidableEq, Repr

/-- A job as SWEEP.STATUS reports it (R132). -/
structure JobReport where
  kind      : JobKind
  level     : Nat
  policy    : LanePolicy
  ranges    : List RangeIx
  chunkSize : Nat
  pattern   : Option Pattern
  state     : JobState
  pause     : Option PauseCause
  stall     : Option StallCause
  pending   : PendingAction
  waits     : Bool
  cursorR   : RangeIx
  cursorLba : Nat
  remaining : Nat
deriving DecidableEq, Repr

/-- A range record of QUERY (R46, R156). -/
structure RangeReport where
  active  : Bool
  span    : Option (Nat × Nat)
  lock    : LockState
  cond    : Condition
  guarded : Bool
  gen     : Gen
  flags   : Flags
  mig     : Option (Nat × Option JobNo)
deriving DecidableEq, Repr

/-- A credential record of QUERY (R85). -/
structure CredReport where
  state  : CredState
  budget : Nat
  tries  : Nat
  grants : List Grant
deriving DecidableEq, Repr

/-- The results of QUERY (R176), part by part in its order. -/
structure QueryReport where
  ranges            : List RangeReport
  slotsEmpty        : Nat
  slotsLoaded       : Nat
  slotsPending      : Nat
  slot0Loaded       : Bool
  creds             : List CredReport
  strikes           : Nat
  frozen            : Bool
  nReported         : Nat
  capFault          : Bool
  u                 : Nat
  c                 : Nat
  persistentCeiling : Nat
  persistentWritten : Bool
  reserveView       : Bool
  pbwLen            : Nat
  pbwEnabled        : Bool
  writeOpen         : Bool
  windowOpen        : Bool
  prepared          : Option (CredIx × List RangeIx)
  intents           : List Intent
  lastCause         : TheftCause
  damaged           : List Damage
  policy            : TheftPolicy
  lockedStarts      : Nat
  levels            : List Level
  elapsedMinutes    : Nat
  expired           : Bool
  power             : PowerState
  op                : PowerOp
  idle              : Nat
  doze              : Nat
  quarantined       : Nat
  unread            : Nat
  mask              : BitVec 32
deriving DecidableEq, Repr

/-- The results of a response (R175). -/
inductive Results
  | none
  | lockStates (l : List LockState)
  | ceiling (c : Nat)
  | reserve (isOpen : Bool)
  | pbw (len : Nat) (enabled writeOpen windowOpen : Bool)
  | prepared (ticket : BitVec 16) (set : List RangeIx)
  | committed (gens : List Gen) (jobs : List JobNo)
  | job (j : JobNo)
  | jobState (st : JobState) (pause : Option PauseCause) (pending : PendingAction)
  | sweep (jobs : List (Option JobReport)) (stack : List JobNo)
  | theft (policy : TheftPolicy) (strikes lockedStarts : Nat) (cause : TheftCause)
  | power (idle doze : Nat)
  | mask (m : BitVec 32)
  | journal (entries : List (JEntry × Bool)) (more : Bool)
  | query (q : QueryReport)
deriving DecidableEq, Repr

/-- A response block (R175). -/
structure Response where
  status  : RespStatus
  results : Results
deriving DecidableEq, Repr

/-- A completion of a front transaction (R4). -/
structure Completion where
  tag       : FrontTag
  status    : Status
  attention : Bool
  data      : List Block
  response  : Option Response
deriving DecidableEq, Repr

/-- The front port and the admission unit. `sent` is the model's own record of the completions sent. -/
structure Front where
  tags    : Vector (Option Txn) 32
  waiting : List FrontTag
  held    : List FrontTag
  segs    : List Segment
  nextSeg : Nat
  sent    : List Completion
deriving DecidableEq, Repr

/-- The operations of media requests (R19). -/
inductive MediaOp
  | read | write | trim | flush
deriving DecidableEq, Repr

/-- The media requests of a chunk in motion. -/
inductive SweepReq
  /-- First READ of a run (R143). -/
  | read (run : Run)
  /-- Single-block READ of the retry (R144). -/
  | readBlock (lba : Nat)
  /-- Staging WRITE of a run (R147). -/
  | staging (run : Run)
  /-- Home WRITE of a run, first or second issue (R148, R149). -/
  | home (run : Run) (again : Bool)
  /-- Undo WRITE (R149). -/
  | undo (run : Run)
  /-- PURGE WRITE of a run, first or second issue (R128, R129). -/
  | fill (run : Run) (again : Bool)
deriving DecidableEq, Repr

/-- Whose media request it is. -/
inductive Requester
  | seg (id : Nat)
  | flush (t : FrontTag)
  | sweep (q : SweepReq)
  /-- The staging recovery's READ of a staged run or WRITE of it home, first or second issue (R154, R155). -/
  | recovery (run : Run) (write again : Bool)
  /-- A media FLUSH whose transaction a link reset has ended (R23). -/
  | discard
deriving DecidableEq, Repr

/-- A media request (R19). -/
structure MediaReq where
  op    : MediaOp
  addr  : Nat
  count : Nat
  data  : List Block
  who   : Requester
deriving DecidableEq, Repr

/-- A media tag (R19): a BUSY tag names its request and counts the microseconds since its issue. -/
inductive TagState
  | free
  | busy (req : MediaReq) (age : Nat)
  | quarantined
deriving DecidableEq, Repr

/-- The media port (R19). -/
structure MediaPort where
  tags    : Vector TagState 48
  waiting : List MediaReq
deriving DecidableEq, Repr

/-! ## Lanes -/

/-- The user of a granted lane (R14). -/
inductive LaneUser
  | seg (id : Nat)
  | pass
deriving DecidableEq, Repr

/-- A cipher lane (R14). -/
inductive Lane
  | free
  | dedicated
  | granted (u : LaneUser)
deriving DecidableEq, Repr

/-- The lane arbiter (R14). -/
structure Arbiter where
  lanes       : Vector Lane 4
  dedicated   : Option LaneIx
  wait        : List Nat
  waitingPass : Bool
  guard       : Nat
deriving DecidableEq, Repr

/-! ## Sweep engine -/

/-- A sweep job (R120). `wipeSet` names the ranges of a wipe that cancels the job at its chunk boundary (R108), empty
otherwise; `recreated` marks a PURGE job of the job phase, which begins each later range at its own checkpoint (R137). -/
structure Job where
  kind      : JobKind
  level     : Nat
  policy    : LanePolicy
  ranges    : List RangeIx
  pos       : Nat
  lba       : Nat
  chunkSize : Nat
  pattern   : Option Pattern
  state     : JobState
  pause     : Option PauseCause
  pending   : PendingAction
  stamp     : Nat
  stall     : Option StallCause
  wipeSet   : List RangeIx
  recreated : Bool
deriving DecidableEq, Repr

/-- An entry of the job table (R120, R140). -/
inductive JobEntry
  | free
  /-- Held for the RANGE.REKEY in service (R140). -/
  | reserved
  | job (j : Job)
deriving DecidableEq, Repr

/-- Where the chunk in motion stands (R128, R143–R149). -/
inductive ChunkPhase
  | reading | pass | staging | damageStore | stagedStore | home | checkpoint | undo | undoStore
  | fillWrite | fillStore (final : Bool)
deriving DecidableEq, Repr

/-- The chunk in motion (R127). -/
structure Chunk where
  job         : JobNo
  kind        : JobKind
  range       : RangeIx
  start       : Nat
  len         : Nat
  runs        : List Run
  phase       : ChunkPhase
  outstanding : Nat
  /-- Blocks read: the original ciphertext, absent for an unreadable block (R144). -/
  blocks      : List (Nat × Option Block)
  /-- Blocks to be written: new ciphertext (R147) or fill (R128). -/
  fresh       : List (Nat × Block)
  fail        : Option StallCause
  /-- A PURGE run whose WRITE failed twice (R129). -/
  failedTwice : Bool
  /-- Runs whose home WRITE completed OK (R149). -/
  homeOk      : List Run
  /-- The damaged entries the chunk adds (R146). -/
  newDamage   : List Nat
  curSlot     : Option SlotIx
  nextSlot    : Option SlotIx
deriving DecidableEq, Repr

/-- The sweep engine. -/
structure Sweep where
  jobs       : Vector JobEntry 6
  stack      : List JobNo
  nextStamp  : Nat
  chunk      : Option Chunk
  /-- The ranges whose last store is in flight with no chunk (R127). -/
  completing : List RangeIx
deriving DecidableEq, Repr

/-! ## Control unit -/

/-- The prepared state (R104). -/
structure Prepared where
  ticket : BitVec 16
  cred   : CredIx
  set    : List RangeIx
  purge  : Option PurgeOpt
deriving DecidableEq, Repr

/-- What the request in service does when the store writes it waits for have completed. -/
inductive After
  /-- Its checks have not begun. -/
  | start
  /-- It answers. -/
  | respond (r : Response)
  /-- QUERY takes its results (R176). -/
  | query
  /-- RESERVE.OPEN reports the view (R94). -/
  | reserve
  /-- RESTART restarts (R177). -/
  | restart (p : StartInputs)
  | unlock (c : CredIx) (set : List RangeIx)
  | credSet (c : CredIx) (v : Secret)
  | credClear (c : CredIx)
  | credDisable (c : CredIx)
  | credEnable (c : CredIx)
  | credGrant (c : CredIx) (r : RangeIx) (a : Access)
  | credRevoke (c : CredIx) (r : RangeIx)
  | credBudget (c : CredIx) (b : Nat)
  | rangeDefine (r : RangeIx) (start len : Nat) (flags : Flags) (gen : Gen)
  | rangeDelete (r : RangeIx)
  | rangeFlags (r : RangeIx) (flags : Flags) (bar : Bool)
  | rangeRekey (r : RangeIx) (j : JobNo) (level : Nat) (policy : LanePolicy) (chunkSize : Nat)
  | ceiling (c : Nat) (persistent : Bool)
  | pbw (len : Nat) (enabled writeOpen : Bool)
  /-- WIPE.COMMIT goes on from its condition check (R105). -/
  | commitCheck (set : List RangeIx) (purge : Option PurgeOpt)
  | commit (set : List RangeIx) (purge : Option PurgeOpt)
  | theft (policy : TheftPolicy) (clearStrikes clearStarts ack : Bool)
  | power (idle doze : Nat)
deriving DecidableEq, Repr

/-- The request in service (R174). `tag` is absent once a link reset has dropped its response (R24). -/
structure Service where
  tag   : Option FrontTag
  block : RequestBlock
  after : After
deriving DecidableEq, Repr

/-- The control unit. -/
structure Control where
  queue      : List (FrontTag × RequestBlock)
  service    : Option Service
  prepared   : Option Prepared
  lastTicket : BitVec 16
  frozen     : Bool
deriving DecidableEq, Repr

/-! ## Regions, theft monitor, power, start-up -/

/-- The capacity, the regions, the ceiling and the views (R87, R89, R93, R96). -/
structure Regions where
  nReported         : Nat
  n                 : Nat
  u                 : Nat
  capFault          : Bool
  c                 : Nat
  persistentWritten : Bool
  reserveView       : Bool
  writeOpen         : Bool
deriving DecidableEq, Repr

/-- The filter of one tamper line (R157), with the microseconds since its last sample and the sampling period that held
at that sample. -/
structure Filter where
  level  : Level
  run    : Nat
  age    : Nat
  period : Nat
deriving DecidableEq, Repr

/-- The volatile part of the theft monitor (R157, R164). `elapsed` counts microseconds. -/
structure Theft where
  caseLine    : Filter
  bayLine     : Filter
  serviceLine : Filter
  sampling    : Bool
  elapsed     : Nat
  expired     : Bool
deriving DecidableEq, Repr

/-- The power controller (R168). The timers count microseconds. -/
structure Power where
  state     : PowerState
  op        : PowerOp
  opTimer   : Nat
  stepTimer : Nat
  dozeDue   : Bool
deriving DecidableEq, Repr

/-- The start-up phase to be taken next, once what the last one waits for has come (R183). -/
inductive Phase
  /-- RESTART waits for the writes already issued (R177). -/
  | waitStore
  | load
  | intents
  | staging
  | stagingStore
  | stagingDone
  | lockedStarts
  | lockedCheck
  | lockedDrains
  | keys
deriving DecidableEq, Repr

/-- The staging recovery in progress (R154, R155). -/
structure Recovery where
  range       : RangeIx
  staged      : Staged
  outstanding : Nat
  lost        : List Run
  newDamage   : List Nat
deriving DecidableEq, Repr

/-- Start-up in progress (R183). `deferred` are the entries to be recorded after START_UP (R178). -/
structure StartUp where
  cause    : StartCause
  inputs   : StartInputs
  phase    : Phase
  recovery : Option Recovery
  deferred : List Event
deriving DecidableEq, Repr

/-! ## The state -/

/-- Everything the spec gives the NH3120, and the queue of commands. -/
structure State where
  powered    : Bool
  sleepLine  : Bool
  sleepReady : Bool
  front      : Front
  arb        : Arbiter
  media      : MediaPort
  ranges     : Vector RangeEntry 16
  slots      : Vector Slot 24
  creds      : Vector Cred 8
  dev        : Device
  intents    : List Intent
  damaged    : List Damage
  regions    : Regions
  control    : Control
  sweep      : Sweep
  theft      : Theft
  power      : Power
  journal    : Journal
  store      : Store
  writes     : List Write
  startUp    : Option StartUp
  fresh      : Nat
  pending    : List Instr
deriving DecidableEq, Repr

/-- The faults. -/
inductive Fault
  /-- Raised by MEDIA_COMPLETION and LATE_COMPLETION: a completion for a tag that is FREE. The media controller answers
  issued requests only (R20, R21), so the spec gives this input no effect. Safe: the model stops. Log entry 5. -/
  | completionWithoutRequest
deriving DecidableEq, Repr

/-- The refusals. -/
inductive Refusal
  /-- Raised by exec for a command that has no meaning yet. Safe: the model stops. -/
  | notModelled (mnemonic : String)
deriving DecidableEq, Repr

/-! ## Reset -/

/-- The flags of a factory range (R26 for range 0). -/
def factoryFlags (wipe : Bool) : Flags := ⟨.refuse, false, false, wipe, false⟩

/-- The factory line configuration (R158). -/
def factoryLine : LineConfig := ⟨.onAssert, .ignore, none⟩

/-- The factory theft policy (R165). -/
def factoryPolicy : TheftPolicy := ⟨0, 0, none, factoryLine, factoryLine, factoryLine, 0⟩

/-- The factory device record (R89, R96, R161, R162, R165, R167, R168); the system key is created at the first start-up (R182). -/
def factoryDevice : Device := ⟨none, 0, 0, false, factoryPolicy, 50, 30, 0, 0, .none⟩

/-- A FREE range record with stored generation 0 (R26). -/
def freeRecord : RangeRecord := ⟨false, 0, 0, factoryFlags false, 0, none, .steady, none, none⟩

/-- The factory record of range 0 (R26): ACTIVE, STEADY, generation 1, with a key (log entry 9). -/
def factoryRange0 : RangeRecord :=
  ⟨true, 0, 0, factoryFlags true, 1, some (Config.newKey 0), .steady, none, none⟩

/-- The factory credential record (R62). -/
def factoryCred : CredRecord := ⟨.empty, none, 5, []⟩

/-- The factory store (R182). -/
def factoryStore : Store :=
  { device := factoryDevice
    ranges := (Vector.replicate 16 freeRecord).set 0 factoryRange0
    creds := Vector.replicate 8 factoryCred
    intents := []
    damaged := [] }

/-- An EMPTY slot (R48). -/
def emptySlot : Slot := ⟨.empty, none, none, none, false, 0⟩

/-- A range entry as loaded: LOCKED, naming no slot (R47 step 1). -/
def loadedEntry (r : RangeRecord) : RangeEntry :=
  { active := r.active, start := r.start, len := r.len, lock := .locked, cond := r.cond, slot := none
    mig := r.mig.map (fun m => ⟨m.w, none, none, none, m.level, m.policy, m.chunkSize⟩)
    gen := r.gen, flags := r.flags, finishing := false }

/-- A credential as loaded: full tries (R64); the stored state is EMPTY, SET or DISABLED (R63). -/
def loadedCred (c : CredRecord) : Cred := ⟨c.state, c.verifier, c.budget, c.budget, c.grants⟩

/-- A vector mapped entry by entry. -/
def vmap {α β : Type} {n : Nat} (f : α → β) (v : Vector α n) : Vector β n := ⟨⟨v.toList.map f⟩, by simp⟩

/-- The front port with no transaction (R2, R10). -/
def emptyFront (nextSeg : Nat) (sent : List Completion) : Front :=
  ⟨Vector.replicate 32 none, [], [], [], nextSeg, sent⟩

/-- The lane arbiter after start-up (R14). -/
def emptyArbiter : Arbiter := ⟨Vector.replicate 4 .free, none, [], false, 0⟩

/-- The media port after the media reset (R19). -/
def emptyMediaPort : MediaPort := ⟨Vector.replicate 48 .free, []⟩

/-- The sweep engine before the job phase (R120, R125). -/
def emptySweep : Sweep := ⟨Vector.replicate 6 .free, [], 0, none, []⟩

/-- A filter that has not begun. -/
def restFilter : Filter := ⟨.released, 0, 0, 1000⟩

/-- The theft monitor before the admission phase (R157, R164). -/
def restTheft : Theft := ⟨restFilter, restFilter, restFilter, false, 0, false⟩

/-- The power controller from the start of start-up (R168). -/
def restPower : Power := ⟨.active, .noOp, 0, 0, false⟩

/-- The journal after start-up has cleared it: every kind unmasked except POWER_STEP, of code 19 (R178, R179). -/
def emptyJournal : Journal := ⟨[], false, 0, 1 <<< 19⟩

/-- The control unit after start-up (R84, R104, R174). -/
def emptyControl (lastTicket : BitVec 16) : Control := ⟨[], none, none, lastTicket, false⟩

/-- The regions before N is read. -/
def noRegions (persistentWritten : Bool) : Regions := ⟨0, 0, 0, false, 0, persistentWritten, false, false⟩

/-- The machine at reset: factory state, power-good low (log entry 1). -/
def State.reset : State :=
  { powered := false
    sleepLine := false
    sleepReady := false
    front := emptyFront 0 []
    arb := emptyArbiter
    media := emptyMediaPort
    ranges := vmap loadedEntry factoryStore.ranges
    slots := Vector.replicate 24 emptySlot
    creds := vmap loadedCred factoryStore.creds
    dev := factoryDevice
    intents := []
    damaged := []
    regions := noRegions false
    control := emptyControl 0
    sweep := emptySweep
    theft := restTheft
    power := restPower
    journal := emptyJournal
    store := factoryStore
    writes := []
    startUp := none
    fresh := 1
    pending := [] }

end Sys2Proof.Machine
end

