-- ==== Sys2Proof/Machine/Flags.lean ====
section
/-! DEFINITION. The flags and views that the spec derives from the state at every moment: guard, the pre-boot window,
ATTENTION, free to run, level-0 demand, the sweep cap, the end of a drain, and the like. -/

namespace Sys2Proof.Machine

/-! ## Index lists -/

/-- Every range index, in index order. -/
def allRanges : List RangeIx := [0, 1, 2, 3, 4, 5, 6, 7, 8, 9, 10, 11, 12, 13, 14, 15]

/-- Indices 1–15, in index order. -/
def definedRanges : List RangeIx := [1, 2, 3, 4, 5, 6, 7, 8, 9, 10, 11, 12, 13, 14, 15]

/-- Every credential index. -/
def allCreds : List CredIx := [0, 1, 2, 3, 4, 5, 6, 7]

/-- The media slots 1–23, in slot order (R48). -/
def mediaSlots : List SlotIx :=
  [1, 2, 3, 4, 5, 6, 7, 8, 9, 10, 11, 12, 13, 14, 15, 16, 17, 18, 19, 20, 21, 22, 23]

/-- Every front tag. -/
def allTags : List FrontTag :=
  [0, 1, 2, 3, 4, 5, 6, 7, 8, 9, 10, 11, 12, 13, 14, 15, 16, 17, 18, 19, 20, 21, 22, 23, 24, 25, 26, 27, 28, 29, 30, 31]

/-- Every lane. -/
def allLanes : List LaneIx := [0, 1, 2, 3]

/-- Every job number. -/
def allJobs : List JobNo := [0, 1, 2, 3, 4, 5]

/-! ## Journal flags -/

/-- The code of a journal kind (R184). -/
def kindCode : Kind → Nat
  | .startUp => 1
  | .recovered => 2
  | .unlocked => 3
  | .unlockDenied => 4
  | .credExhausted => 5
  | .locked => 6
  | .wipeCommitted => 7
  | .wipeDone => 8
  | .theftWipe => 9
  | .tamper => 10
  | .tamperBlocked => 11
  | .sweepDone => 12
  | .sweepStalled => 13
  | .sweepCancelled => 14
  | .sweepDropped => 15
  | .damageRecorded => 16
  | .mediaTimeout => 17
  | .configChanged => 18
  | .powerStep => 19

/-- Whether a mask masks a kind: bit k masks the kind of code k (R184). -/
def masked (mask : BitVec 32) (k : Kind) : Bool := mask.getLsbD (kindCode k)

/-- ATTENTION: the ring holds an unread entry whose kind is not masked at this moment (R180). -/
def attention (s : State) : Bool := s.journal.ring.any (fun e => !masked s.journal.mask e.event.kind)

/-! ## Grants and guard -/

/-- The access that a credential's grant to a range gives, if it holds one (R62). -/
def grantOf (c : Cred) (r : RangeIx) : Option Access := (c.grants.find? (fun g => g.range = r)).map (·.access)

/-- Whether the credential guards the range: a grant held in state SET, EXHAUSTED or DISABLED (R32). -/
def guards (c : Cred) (r : RangeIx) : Bool := c.state ≠ .empty && (grantOf c r).isSome

/-- Whether the range is guarded (R32). -/
def guarded (s : State) (r : RangeIx) : Bool := allCreds.any (fun c => guards s.creds[c] r)

/-- Whether the range would be guarded without credential `c`'s grant to it (R79, R82, R44). -/
def guardedWithout (s : State) (c : CredIx) (r : RangeIx) : Bool :=
  allCreds.any (fun d => d ≠ c && guards s.creds[d] r)

/-! ## Spans -/

/-- The start of a range; 0 for range 0 (R26). -/
def rangeStart (s : State) (r : RangeIx) : Nat := if r = 0 then 0 else s.ranges[r].start

/-- The end of a range; U for range 0 (R26). -/
def rangeEnd (s : State) (r : RangeIx) : Nat :=
  if r = 0 then s.regions.u else s.ranges[r].start + s.ranges[r].len

/-- The end of a range clipped at U (R127). -/
def clippedEnd (s : State) (r : RangeIx) : Nat := min (rangeEnd s r) s.regions.u

/-- Whether two spans share a block. -/
def overlaps (a b : Run) : Bool := a.start < b.start + b.len && b.start < a.start + a.len

/-! ## Pre-boot window -/

/-- The pre-boot window is open exactly when PBW is enabled, its length is nonzero and range 0 is not OPEN (R97). -/
def windowOpen (s : State) : Bool :=
  s.dev.pbwEnabled && s.dev.pbwLen ≠ 0 && s.ranges[(0 : RangeIx)].lock ≠ .opened

/-- The end of the pre-boot span for a class, 0 where there is none (R7, R96): while the window is closed and write-open
is set, the span exists for WRITE and TRIM only. R6 and R96 cut at its end and name no class, so the rules do not say whether
a READ is cut there then: it is not (DESIGN CHOICE, log entry 46). -/
def prebootEnd (s : State) (cls : FrontClass) : Nat :=
  if windowOpen s || (s.regions.writeOpen && cls ≠ .read) then s.dev.pbwLen else 0

/-! ## Jobs -/

/-- The job in an entry of the job table. -/
def jobAt (s : State) (j : JobNo) : Option Job :=
  match s.sweep.jobs[j] with
  | .job b => some b
  | .free => none
  | .reserved => none

/-- Whether a job is finished: DONE, CANCELLED or FAILED (R120). -/
def finished (b : Job) : Bool := b.state = .done || b.state = .cancelled || b.state = .failed

/-- Whether an entry can take a new job: FREE, or holding a finished job (R121). -/
def takesNew (e : JobEntry) : Bool :=
  match e with
  | .free => true
  | .reserved => false
  | .job b => finished b

/-- The lowest-numbered entry that can take a new job (R121). -/
def freeEntry (s : State) : Option JobNo := allJobs.find? (fun j => takesNew s.sweep.jobs[j])

/-- How many entries can take a new job (R106, R114). -/
def jobRoom (s : State) : Nat := (allJobs.filter (fun j => takesNew s.sweep.jobs[j])).length

/-- The ranges of its list that a job has not finished (R39). -/
def unfinished (b : Job) : List RangeIx := b.ranges.drop b.pos

/-- The range under a job's cursor (R120). -/
def cursorRange (b : Job) : Option RangeIx := (unfinished b).head?

/-- The RUNNING job (R125: at most one). -/
def runningJob (s : State) : Option JobNo :=
  allJobs.find? (fun j => match jobAt s j with | some b => b.state = .running | none => false)

/-- Whether job `j` has a chunk in motion (R122). -/
def hasChunk (s : State) (j : JobNo) : Bool :=
  match s.sweep.chunk with
  | some c => c.job = j
  | none => false

/-- Whether a chunk of any job is in motion on the range (R110). -/
def chunkOn (s : State) (r : RangeIx) : Bool :=
  match s.sweep.chunk with
  | some c => c.range = r
  | none => false

/-- Whether a live PURGE job other than `except` names the range and has not finished it (R39, R111). -/
def purgeNames (s : State) (except : Option JobNo) (r : RangeIx) : Bool :=
  allJobs.any (fun j => some j ≠ except &&
    match jobAt s j with
    | some b => b.kind = .purge && !finished b && (unfinished b).contains r
    | none => false)

/-- Whether a job waits on a drain: a PURGE whose range under the cursor is DRAINING (R112). -/
def waitsOnDrain (s : State) (b : Job) : Bool :=
  b.kind = .purge &&
    match cursorRange b with
    | some r => s.ranges[r].cond = .draining
    | none => false

/-- Whether a job is QUEUED and eligible (R122). -/
def eligible (s : State) (b : Job) : Bool := b.state = .queued && !waitsOnDrain s b

/-- Whether `a` is more urgent than `b`: lower level, or equal level and earlier stamp (R123). -/
def moreUrgent (a b : Job) : Bool := a.level < b.level || (a.level = b.level && a.stamp < b.stamp)

/-- The most urgent eligible QUEUED job (R123). -/
def mostUrgent (s : State) : Option (JobNo × Job) :=
  allJobs.foldl (fun best j =>
    match jobAt s j with
    | some b =>
      if eligible s b then
        match best with
        | some (_, a) => if moreUrgent b a then some (j, b) else best
        | none => some (j, b)
      else best
    | none => best) none

/-- Level-0 demand: a level-0 job is RUNNING, or QUEUED and not waiting on a drain (R136). -/
def level0Demand (s : State) : Bool :=
  allJobs.any (fun j => match jobAt s j with
    | some b => b.level = 0 && (b.state = .running || eligible s b)
    | none => false)

/-! ## Engine, lanes, power -/

/-- Whether the sweep engine is free to run (R123). -/
def freeToRun (s : State) : Bool :=
  s.powered && s.startUp.isNone && !s.regions.capFault && s.power.op = .noOp &&
    (s.power.state = .active || s.power.state = .idle)

/-- The sweep cap: 2 lanes in ACTIVE, 4 in IDLE (R16); no lane is granted in DOZE and SLEEP. -/
def sweepCap (s : State) : Nat :=
  match s.power.state with
  | .active => 2
  | .idle => 4
  | .doze => 0
  | .sleep => 0

/-- The lanes the sweep holds: the dedicated lane and every lane granted to a pass (R16). -/
def sweepLanes (s : State) : Nat :=
  (allLanes.filter (fun l => s.arb.lanes[l] = .dedicated || s.arb.lanes[l] = .granted .pass)).length

/-- How many lanes the chunk pass holds. -/
def passLanes (s : State) : Nat := (allLanes.filter (fun l => s.arb.lanes[l] = .granted .pass)).length

/-- Whether any lane is granted (R168). -/
def laneGranted (s : State) : Bool :=
  allLanes.any (fun l => match s.arb.lanes[l] with | .granted _ => true | .free => false | .dedicated => false)

/-- Whether a chunk waits for lanes or is in its pass. -/
def passAsked (s : State) : Bool :=
  match s.sweep.chunk with
  | some c => c.phase = .pass
  | none => false

/-- Whether the RUNNING job is a HOLD job (R16). -/
def holdRunning (s : State) : Bool :=
  match runningJob s with
  | some j => match jobAt s j with | some b => b.policy = .holding | none => false
  | none => false

/-- Whether no front transaction is unfinished (R168, R170). -/
def noTransaction (s : State) : Bool := allTags.all (fun t => s.front.tags[t].isNone)

/-- The sampling period in microseconds: 1 ms in ACTIVE and IDLE, 8 ms in DOZE and SLEEP and during the steps between
those states (R157). It holds from the next sample on: a filter keeps the period of its last sample. -/
def samplePeriod (s : State) : Nat :=
  if s.power.op = .noOp && (s.power.state = .active || s.power.state = .idle) then 1000 else 8000

/-! ## Drains and wipes -/

/-- The intent entry of a range (R109). -/
def intentOf (s : State) (r : RangeIx) : Option Intent := s.intents.find? (fun e => e.range = r)

/-- Whether some media slot owned by the range is LOADED or PENDING_ZERO (R110). -/
def ownsSlot (s : State) (r : RangeIx) : Bool :=
  mediaSlots.any (fun i => s.slots[i].state ≠ .empty &&
    match s.slots[i].owner with
    | some o => o.1 = r
    | none => false)

/-- Whether the drain of a range has come to its finish (R110) and its writes have not been issued. -/
def drainDue (s : State) (r : RangeIx) : Bool :=
  s.ranges[r].active && s.ranges[r].cond = .draining && !s.ranges[r].finishing && !ownsSlot s r && !chunkOn s r &&
    match intentOf s r with
    | some e => e.stored
    | none => false

/-- Whether a done handler belongs to a theft wipe's writes (R115). -/
def isTheftDone : Done → Bool
  | .theftDevice _ _ => true
  | .theftIntents _ _ => true
  | .theftClear => true
  | .nothing => false
  | .control => false
  | .drained _ _ _ => false
  | .chunk => false
  | .completing _ _ => false
  | .purged _ _ => false
  | .report _ => false

/-- Whether a write, or one that follows it, is a theft wipe's (R115). -/
def theftWrite (w : Write) : Bool := isTheftDone w.done || w.rest.any (fun x => isTheftDone x.2)

/-- Whether a theft wipe's store writes are outstanding (R174). -/
def theftOutstanding (s : State) : Bool := s.writes.any theftWrite

/-! ## Tamper lines -/

/-- The configuration of a line (R158). -/
def lineConfig (p : TheftPolicy) : TamperLine → LineConfig
  | .caseLine => p.caseLine
  | .bayLine => p.bayLine
  | .serviceLine => p.serviceLine

/-- The filter of a line (R157). -/
def filterOf (t : Theft) : TamperLine → Filter
  | .caseLine => t.caseLine
  | .bayLine => t.bayLine
  | .serviceLine => t.serviceLine

/-- Whether an edge direction is a trigger edge under a trigger (R158). -/
def triggers : Trigger → Edge → Bool
  | .onAssert, .assert => true
  | .onAssert, .release => false
  | .onRelease, .assert => false
  | .onRelease, .release => true
  | .both, _ => true

end Sys2Proof.Machine
end

