-- ==== Sys2Proof/Machine/Ops.lean ====
section
/-! DEFINITION. The named operations over the tables, the journal, the store, the key slots and the completions. -/

namespace Sys2Proof.Machine

/-! ## Table updates -/

/-- Change one range entry. -/
def modRange (s : State) (r : RangeIx) (f : RangeEntry → RangeEntry) : State :=
  { s with ranges := s.ranges.set r (f s.ranges[r]) }

/-- Change one key slot. -/
def modSlot (s : State) (i : SlotIx) (f : Slot → Slot) : State :=
  { s with slots := s.slots.set i (f s.slots[i]) }

/-- Change one credential. -/
def modCred (s : State) (c : CredIx) (f : Cred → Cred) : State :=
  { s with creds := s.creds.set c (f s.creds[c]) }

/-- Put a transaction in the front tag table, or take it out. -/
def setTxn (s : State) (t : FrontTag) (x : Option Txn) : State :=
  { s with front := { s.front with tags := s.front.tags.set t x } }

/-- Move a transaction to a stage. -/
def setStage (s : State) (t : FrontTag) (st : Stage) : State :=
  match s.front.tags[t] with
  | some x => setTxn s t (some { x with stage := st })
  | none => s

/-- Put an entry in the job table. -/
def setJob (s : State) (j : JobNo) (e : JobEntry) : State :=
  { s with sweep := { s.sweep with jobs := s.sweep.jobs.set j e } }

/-- Change the job of an entry, if it holds one. -/
def modJob (s : State) (j : JobNo) (f : Job → Job) : State :=
  match jobAt s j with
  | some b => setJob s j (.job (f b))
  | none => s

/-- Change the state of a lane. -/
def setLane (s : State) (l : LaneIx) (x : Lane) : State :=
  { s with arb := { s.arb with lanes := s.arb.lanes.set l x } }

/-- Change the state of a media tag. -/
def setTag (s : State) (t : MediaTag) (x : TagState) : State :=
  { s with media := { s.media with tags := s.media.tags.set t x } }

/-- A request joins the list of requests waiting for a media tag (R19). -/
def askTag (s : State) (q : MediaReq) : State :=
  { s with media := { s.media with waiting := s.media.waiting ++ [q] } }

/-- Change the segments. -/
def setSegs (s : State) (l : List Segment) : State := { s with front := { s.front with segs := l } }

/-- The segment of a number. -/
def segOf (s : State) (id : Nat) : Option Segment := s.front.segs.find? (fun g => g.id = id)

/-- Change one segment. -/
def modSeg (s : State) (id : Nat) (f : Segment → Segment) : State :=
  setSegs s (s.front.segs.map (fun g => if g.id = id then f g else g))

/-- Change the device record in force. -/
def modDev (s : State) (f : Device → Device) : State := { s with dev := f s.dev }

/-- Change the chunk in motion. -/
def setChunk (s : State) (c : Option Chunk) : State := { s with sweep := { s.sweep with chunk := c } }

/-! ## Journal -/

/-- Record an event at the tail of the ring (R178): nothing for a masked kind; the oldest entry goes, and gap pending is
set, when the ring holds 32. -/
def journalRecord (j : Journal) (e : Event) : Journal :=
  if masked j.mask e.kind then j
  else if j.ring.length < 32 then
    { j with ring := j.ring ++ [JEntry.mk j.nextSeq e], nextSeq := j.nextSeq + 1 }
  else
    { j with ring := (j.ring ++ [JEntry.mk j.nextSeq e]).drop (j.ring.length - 31), nextSeq := j.nextSeq + 1, gapPending := true }

/-- Raise an event (R178); during start-up it is kept for the journal until START_UP has been recorded. -/
def raise (s : State) (e : Event) : State :=
  match s.startUp with
  | some u => { s with startUp := some { u with deferred := u.deferred ++ [e] } }
  | none => { s with journal := journalRecord s.journal e }

/-- Raise events in order. -/
def raiseAll (s : State) (l : List Event) : State := l.foldl raise s

/-! ## Completions -/

/-- Send a completion, with ATTENTION as the ring stands (R4, R180). -/
def send (s : State) (t : FrontTag) (st : Status) (data : List Block) (resp : Option Response) : State :=
  { s with front := { s.front with sent := s.front.sent ++ [⟨t, st, attention s, data, resp⟩] } }

/-- Complete a transaction: send its completion and free its tag (R4). -/
def complete (s : State) (t : FrontTag) (st : Status) (data : List Block) (resp : Option Response) : State :=
  setTxn (send s t st data resp) t none

/-! ## Store (R182) -/

/-- Issue the writes of one block, one after another: the first joins the store's queue, the others follow on its
completion. -/
def issue (s : State) : List (StoreOp × Done) → State
  | [] => s
  | x :: rest => { s with writes := s.writes ++ [⟨x.1, x.2, rest⟩] }

/-- A device record with a patch's fields. -/
def patchDevice (d : Device) (p : DevPatch) : Device :=
  { systemKey := p.systemKey <|> d.systemKey
    ceiling := p.ceiling.getD d.ceiling
    pbwLen := (p.pbw.map (·.1)).getD d.pbwLen
    pbwEnabled := (p.pbw.map (·.2)).getD d.pbwEnabled
    policy := p.policy.getD d.policy
    idle := (p.intervals.map (·.1)).getD d.idle
    doze := (p.intervals.map (·.2)).getD d.doze
    strikes := p.strikes.getD d.strikes
    lockedStarts := p.lockedStarts.getD d.lockedStarts
    lastCause := p.lastCause.getD d.lastCause }

/-- Change one stored range record. -/
def modRecord (st : Store) (r : RangeIx) (f : RangeRecord → RangeRecord) : Store :=
  { st with ranges := st.ranges.set r (f st.ranges[r]) }

/-- Change a stored range record that is ACTIVE. A FREE record holds its generation alone, and a write that was issued
before RANGE.DELETE freed it leaves it so (R25, R43; log entry 41). -/
def modActive (st : Store) (r : RangeIx) (f : RangeRecord → RangeRecord) : Store :=
  modRecord st r (fun x => if x.active then f x else x)

/-- The stored migration record with W and no staged record (R148). -/
def checkpointRecord (w : Nat) (x : RangeRecord) : RangeRecord :=
  { x with mig := x.mig.map (fun m => { m with w := w, staged := none }) }

/-- The record of the completing store (R151). -/
def completedRecord (x : RangeRecord) : RangeRecord :=
  match x.mig with
  | some m => { x with key := some m.nextKey, gen := x.gen + 1, cond := .steady, mig := none }
  | none => x

/-- The intent list after a write of it: entries removed, purge options dropped, entries added. -/
def editIntents (l : List Intent) (remove drop : List RangeIx) (add : List Intent) : List Intent :=
  ((l.filter (fun e => !remove.contains e.range)).map
    (fun e => if drop.contains e.range then { e with purge := none } else e)) ++ add

/-- Whether the intent list in force added its entry of range `q` after that of range `r` (R109). -/
def addedAfter (list : List Intent) (r q : RangeIx) : Bool :=
  ((list.dropWhile (fun e => e.range ≠ r)).drop 1).any (fun e => e.range = q)

/-- A stored intent list with an entry that a write brings. The list keeps the order in which the entries were added (R109), and
the write of an entry added later may complete first: the new entry stands in front of those. -/
def placeIntent (list l : List Intent) (e : Intent) : List Intent :=
  l.takeWhile (fun x => !addedAfter list e.range x.range) ++ e :: l.dropWhile (fun x => !addedAfter list e.range x.range)

/-- The damaged list without some entries and with new ones (R145). -/
def editDamaged (l remove add : List Damage) : List Damage := l.filter (fun d => !remove.contains d) ++ add

/-- The effect of a write on the store (R182). A completing store on a range that has become DRAINING is a plain
checkpoint (R153), an entry of the intent list takes the place that its order of adding gives it (R109), and no intent is stored
for a range that RANGE.DELETE has freed (R25; log entry 41). -/
def applyOp (s : State) (op : StoreOp) : Store :=
  let st := s.store
  match op with
  | .device p => { st with device := patchDevice st.device p }
  | .rangeDefine r start len flags gen key =>
    modRecord st r (fun _ => ⟨true, start, len, flags, gen, some key, .steady, none, none⟩)
  | .rangeFree r => modRecord st r (fun x => { freeRecord with gen := x.gen })
  | .rangeFlags r flags => modActive st r (fun x => { x with flags := flags })
  | .rangeMigrate r m => modActive st r (fun x => { x with cond := .migrating, mig := some m })
  | .rangeStaged r g =>
    modActive st r (fun x => { x with mig := x.mig.map (fun m => { m with staged := some g }) })
  | .rangeCheckpoint r w => modActive st r (checkpointRecord w)
  | .rangeUnstage r =>
    modActive st r (fun x => { x with mig := x.mig.map (fun m => { m with staged := none }) })
  | .rangeComplete r w =>
    modActive st r (if s.ranges[r].cond = .draining then checkpointRecord w else completedRecord)
  | .rangeDrained r gen key purge =>
    modActive st r (fun x =>
      { x with gen := gen, key := some key, mig := none
               cond := if purge.isSome then .purging else .steady
               purge := purge.map (fun o => ⟨rangeStart s r, o⟩) })
  | .rangePurge r c => modActive st r (fun x => { x with purge := some c })
  | .rangeSteady r => modActive st r (fun x => { x with cond := .steady, purge := none })
  | .cred c rec => { st with creds := st.creds.set c rec }
  | .intents remove drop add =>
    let brought := (add.filter (fun e => s.ranges[e.range].active)).map (fun e => { e with stored := true })
    { st with intents := brought.foldl (placeIntent s.intents) (editIntents st.intents remove drop []) }
  | .damaged remove add => { st with damaged := editDamaged st.damaged remove add }
  | .damagedRange r => { st with damaged := st.damaged.filter (fun d => d.range ≠ r) }

/-- The stored form of a credential: EXHAUSTED is stored as SET (R63). -/
def credRecord (c : Cred) : CredRecord :=
  ⟨if c.state = .exhausted then .set else c.state, c.verifier, c.budget, c.grants⟩

/-- Take a new key: a free value (log entry 9). -/
def takeKey (s : State) : Key × State := (Config.newKey s.fresh, { s with fresh := s.fresh + 1 })

/-! ## Key slots (chapter 3) -/

/-- The EMPTY media slots, lowest first (R52). -/
def emptyMediaSlots (s : State) : List SlotIx := mediaSlots.filter (fun i => s.slots[i].state = .empty)

/-- Bind a slot: its reference count adds one. Binding is made only to a LOADED slot (R50). -/
def bindSlot (s : State) (i : SlotIx) : State :=
  modSlot s i (fun x => if x.state = .loaded then { x with count := x.count + 1 } else x)

/-- Drop a reference. A PENDING_ZERO slot whose count reaches 0 is zeroed and becomes EMPTY (R50, R56). -/
def dropRef (s : State) (i : SlotIx) : State :=
  modSlot s i (fun x =>
    if x.state = .pendingZero && x.count ≤ 1 then emptySlot else { x with count := x.count - 1 })

/-- Drop the reference of a binding that may be absent. -/
def dropOpt (s : State) : Option SlotIx → State
  | some i => dropRef s i
  | none => s

/-- A range ceases to name a slot: the count falls by one, and the slot is zeroed at 0 or goes to PENDING_ZERO (R55). -/
def releaseSlot (s : State) (i : SlotIx) : State :=
  modSlot s i (fun x =>
    if x.count ≤ 1 then emptySlot else { x with state := .pendingZero, count := x.count - 1 })

/-- Release a name that may be absent. -/
def releaseOpt (s : State) : Option SlotIx → State
  | some i => releaseSlot s i
  | none => s

/-- The next-key slot that a range names. -/
def nextSlotOf (x : RangeEntry) : Option SlotIx := x.mig.bind (·.nextSlot)

/-- A range ceases to name both its slots (R55). -/
def releaseNames (s : State) (r : RangeIx) : State :=
  let x := s.ranges[r]
  let s := releaseOpt (releaseOpt s x.slot) (nextSlotOf x)
  modRange s r (fun x => { x with slot := none, mig := x.mig.map (fun m => { m with nextSlot := none }) })

/-- Place a key of a range in the lowest-numbered EMPTY media slot (R52), held for the request in service or named at
once; nothing where no slot is EMPTY. -/
def placeKey (s : State) (r : RangeIx) (gen : Gen) (role : Role) (key : Option Key) (held : Bool) :
    Option SlotIx × State :=
  match emptyMediaSlots s with
  | [] => (none, s)
  | i :: _ => (some i, modSlot s i (fun _ => ⟨.loaded, key, some (r, gen), some role, held, if held then 0 else 1⟩))

/-- The key of a range in a role, as its persistent record holds it (R52). -/
def storedKey (s : State) (r : RangeIx) : Role → Option Key
  | .current => s.store.ranges[r].key
  | .next => s.store.ranges[r].mig.map (·.nextKey)

/-- Load a range's key in a role and hold it for the request in service (R53). -/
def holdKey (s : State) (r : RangeIx) (role : Role) : State :=
  (placeKey s r s.ranges[r].gen role (storedKey s r role) true).2

/-- The roles whose keys a range needs when it leaves LOCKED: its current key, and its next key while MIGRATING (R52). -/
def neededRoles (s : State) (r : RangeIx) : List Role :=
  if s.ranges[r].cond = .migrating then [.current, .next] else [.current]

/-- Load and hold the keys that a set of ranges needs, in index order, current before next (R52). -/
def holdKeys (s : State) (set : List RangeIx) : State :=
  (allRanges.filter set.contains).foldl (fun s r => (neededRoles s r).foldl (fun s role => holdKey s r role) s) s

/-- How many keys a set of ranges needs (R53). -/
def keyNeed (s : State) (set : List RangeIx) : Nat := (set.map (fun r => (neededRoles s r).length)).sum

/-- A range names a slot in a role. -/
def nameSlot (s : State) (r : RangeIx) (role : Role) (i : SlotIx) : State :=
  match role with
  | .current => modRange s r (fun x => { x with slot := some i })
  | .next => modRange s r (fun x => { x with mig := x.mig.map (fun m => { m with nextSlot := some i }) })

/-- Whether a range can take a held slot up: it is ACTIVE, not DRAINING, has the role and names no key in it (R54). -/
def canTake (s : State) (r : RangeIx) (role : Role) : Bool :=
  s.ranges[r].active && s.ranges[r].cond ≠ .draining &&
    match role with
    | .current => s.ranges[r].slot.isNone
    | .next => s.ranges[r].mig.isSome && (nextSlotOf s.ranges[r]).isNone

/-- Take up one slot if it is held: its range names it with count 1, or it is zeroed where the range can no longer take
it, or where the request does not want it (R54). -/
def takeUpSlot (want : RangeIx → Bool) (s : State) (i : SlotIx) : State :=
  let x := s.slots[i]
  if x.held then
    match x.owner, x.role with
    | some o, some role =>
      if canTake s o.1 role && want o.1 then
        nameSlot (modSlot s i (fun x => { x with held := false, count := x.count + 1 })) o.1 role i
      else modSlot s i (fun _ => emptySlot)
    | _, _ => modSlot s i (fun _ => emptySlot)
  else s

/-- Take up every slot held for the request in service (R54). -/
def takeUp (s : State) (want : RangeIx → Bool) : State := mediaSlots.foldl (takeUpSlot want) s

/-- Load a range's keys and name them at once (R52): at start-up and at the finish of a drain. -/
def loadNamed (s : State) (r : RangeIx) : State :=
  (neededRoles s r).foldl (fun s role =>
    match placeKey s r s.ranges[r].gen role (storedKey s r role) false with
    | (some i, s) => nameSlot s r role i
    | (none, s) => s) s

/-! ## Sorting points -/

/-- Insert a number in a strictly rising list. -/
def insertPoint (p : Nat) : List Nat → List Nat
  | [] => [p]
  | q :: qs => if p < q then p :: q :: qs else if p = q then q :: qs else q :: insertPoint p qs

/-- A list of numbers strictly rising. -/
def sortPoints (l : List Nat) : List Nat := l.foldr insertPoint []

/-- Cut [lo, hi) at strictly rising points inside it. -/
def cutSpan (lo hi : Nat) : List Nat → List Run
  | [] => [⟨lo, hi - lo⟩]
  | p :: ps => ⟨lo, p - lo⟩ :: cutSpan p hi ps

/-! ## Resolution (R29, R31) -/

/-- Whether an entry 1–15 is ACTIVE and contains an LBA. -/
def containsLba (s : State) (r : RangeIx) (lba : Nat) : Bool :=
  s.ranges[r].active && s.ranges[r].start ≤ lba && lba < s.ranges[r].start + s.ranges[r].len

/-- Whether entry `a` wins over entry `b`: greater start, or equal start and smaller length (R29). -/
def wins (s : State) (a b : RangeIx) : Bool :=
  s.ranges[b].start < s.ranges[a].start ||
    (s.ranges[a].start = s.ranges[b].start && s.ranges[a].len < s.ranges[b].len)

/-- The range an LBA resolves to (R29): ties go to the lower index, since indices are taken in rising order. -/
def resolve (s : State) (lba : Nat) : RangeIx :=
  definedRanges.foldl (fun best r =>
    if containsLba s r lba && (best = 0 || wins s r best) then r else best) 0

/-- The run boundaries strictly inside [lo, hi): the starts and ends of ACTIVE entries 1–15 at which the resolved range
changes (R31). -/
def runBoundaries (s : State) (lo hi : Nat) : List Nat :=
  let pts := definedRanges.flatMap (fun r =>
    if s.ranges[r].active then [s.ranges[r].start, s.ranges[r].start + s.ranges[r].len] else [])
  sortPoints (pts.filter (fun p => lo < p && p < hi && resolve s (p - 1) ≠ resolve s p))

/-- The maximal spans of [lo, hi) that resolve to a range (R128, R143). -/
def runsOf (s : State) (r : RangeIx) (lo hi : Nat) : List Run :=
  if lo < hi then (cutSpan lo hi (runBoundaries s lo hi)).filter (fun x => resolve s x.start = r) else []

/-- The block LBAs of a span. -/
def blocksOf (x : Run) : List Nat := (List.range x.len).map (x.start + ·)

end Sys2Proof.Machine
end

