-- ==== Sys2Proof/Machine/Operands.lean ====
section
/-! DEFINITION. The operand forms of requests: the parameters that follow a request block's header (R184), read as raw
numbers. What makes a value illegal is a check of each request's own rule. -/

namespace Sys2Proof.Machine

/-- The requests (R184), with their parameters as the bytes spell them. A range set of WIPE.PREPARE is absent for ALL. -/
inductive Request
  | query
  | restart
  | freeze
  | journalRead
  | journalMask (mask : Nat)
  | unlock (set : List Nat)
  | lock (set : List Nat)
  | credSet (target verifier : Nat)
  | credClear (target : Nat)
  | credDisable (target : Nat)
  | credEnable (target : Nat)
  | credGrant (target range access : Nat)
  | credRevoke (target range : Nat)
  | credBudget (target budget : Nat)
  | rangeDefine (range start len flags : Nat)
  | rangeDelete (range : Nat)
  | rangeFlags (range flags : Nat)
  | rangeRekey (range level policy chunkSize : Nat)
  | ceilingSet (value mode : Nat)
  | reserveOpen
  | reserveClose
  | pbwSet (len enabled writeOpen : Nat)
  | wipePrepare (level pattern : Nat) (set : Option (List Nat))
  | wipeCommit (ticket : Nat)
  | sweepStatus
  | sweepPause (job : Nat)
  | sweepResume (job : Nat)
  | sweepCancel (job : Nat)
  | theftSet (strikeLimit threshold purge : Nat) (lines : List Nat) (minutes ack : Nat)
  | powerSet (idle doze : Nat)
deriving DecidableEq, Repr

/-- Read fields of the given widths in bytes, one after another; nothing where the bytes are too few (R185). -/
def readFields : List Nat → List Byte → Option (List Nat)
  | [], _ => some []
  | w :: ws, bs =>
    if bs.length < w then none
    else (readFields ws (bs.drop w)).map (leNat (bs.take w) :: ·)

/-- Read a range set: a count byte followed by that many index bytes (R184). -/
def readSet : List Byte → Option (List Nat)
  | [] => none
  | c :: bs => if bs.length < c.toNat then none else some ((bs.take c.toNat).map (·.toNat))

/-- One parameter. -/
def read1 (w : Nat) (f : Nat → Request) (ps : List Byte) : Option Request :=
  match readFields [w] ps with
  | some [a] => some (f a)
  | _ => none

/-- Two parameters. -/
def read2 (v w : Nat) (f : Nat → Nat → Request) (ps : List Byte) : Option Request :=
  match readFields [v, w] ps with
  | some [a, b] => some (f a b)
  | _ => none

/-- Three parameters. -/
def read3 (u v w : Nat) (f : Nat → Nat → Nat → Request) (ps : List Byte) : Option Request :=
  match readFields [u, v, w] ps with
  | some [a, b, c] => some (f a b c)
  | _ => none

/-- Four parameters. -/
def read4 (t u v w : Nat) (f : Nat → Nat → Nat → Nat → Request) (ps : List Byte) : Option Request :=
  match readFields [t, u, v, w] ps with
  | some [a, b, c, d] => some (f a b c d)
  | _ => none

/-- WIPE.PREPARE's parameters: level, pattern, and a range set whose count FFh means ALL (R184). -/
def readPrepare : List Byte → Option Request
  | l :: p :: c :: bs =>
    if c = 255 then some (.wipePrepare l.toNat p.toNat none)
    else (readSet (c :: bs)).map (fun x => .wipePrepare l.toNat p.toNat (some x))
  | _ => none

/-- THEFT.SET's parameters (R184). -/
def readTheft (ps : List Byte) : Option Request :=
  match readFields [1, 1, 1, 1, 1, 1, 1, 1, 1, 1, 1, 1, 1, 1] ps with
  | some [a, b, c, t0, a0, b0, t1, a1, b1, t2, a2, b2, m, k] =>
    some (.theftSet a b c [t0, a0, b0, t1, a1, b1, t2, a2, b2] m k)
  | _ => none

/-- The request that a request block makes (R184): nothing for a code that names no request, and for parameters shorter
than the request needs (R174, R185). -/
def parse (b : RequestBlock) : Option Request :=
  let ps := b.params
  match b.code.toNat with
  | 1 => some .query
  | 2 => some .restart
  | 3 => some .freeze
  | 4 => some .journalRead
  | 5 => read1 4 .journalMask ps
  | 16 => (readSet ps).map .unlock
  | 17 => (readSet ps).map .lock
  | 32 => read2 1 32 .credSet ps
  | 33 => read1 1 .credClear ps
  | 34 => read1 1 .credDisable ps
  | 35 => read1 1 .credEnable ps
  | 36 => read3 1 1 1 .credGrant ps
  | 37 => read2 1 1 .credRevoke ps
  | 38 => read2 1 1 .credBudget ps
  | 48 => read4 1 5 5 1 .rangeDefine ps
  | 49 => read1 1 .rangeDelete ps
  | 50 => read2 1 1 .rangeFlags ps
  | 51 => read4 1 1 1 1 .rangeRekey ps
  | 64 => read2 5 1 .ceilingSet ps
  | 65 => some .reserveOpen
  | 66 => some .reserveClose
  | 67 => read3 2 1 1 .pbwSet ps
  | 80 => readPrepare ps
  | 81 => read1 2 .wipeCommit ps
  | 96 => some .sweepStatus
  | 97 => read1 1 .sweepPause ps
  | 98 => read1 1 .sweepResume ps
  | 99 => read1 1 .sweepCancel ps
  | 112 => readTheft ps
  | 113 => read2 1 1 .powerSet ps
  | _ => none

/-! ## Legal values -/

/-- An index below `n`. -/
def toIndex (n k : Nat) : Option (Fin n) := if h : k < n then some ⟨k, h⟩ else none

/-- Indices below `n`, if all of them are. -/
def toIndices (n : Nat) : List Nat → Option (List (Fin n))
  | [] => some []
  | k :: ks =>
    match toIndex n k, toIndices n ks with
    | some i, some is => some (i :: is)
    | _, _ => none

/-- A yes-or-no value (R184). -/
def toYesNo : Nat → Option Bool
  | 0 => some false
  | 1 => some true
  | _ => none

/-- An access (R184). -/
def toAccess : Nat → Option Access
  | 0 => some .read
  | 1 => some .readWrite
  | _ => none

/-- A lane policy (R184). -/
def toPolicy : Nat → Option LanePolicy
  | 0 => some .yielding
  | 1 => some .holding
  | _ => none

/-- A pattern (R184). -/
def toPattern : Nat → Option Pattern
  | 0 => some .zeros
  | 1 => some .ones
  | 2 => some .random
  | _ => none

/-- A theft purge option: 0 for OFF or 1 plus the pattern code (R184). -/
def toTheftPurge : Nat → Option (Option Pattern)
  | 0 => some none
  | n + 1 => (toPattern n).map some

/-- A trigger (R184). -/
def toTrigger : Nat → Option Trigger
  | 0 => some .onAssert
  | 1 => some .onRelease
  | 2 => some .both
  | _ => none

/-- An action (R184). -/
def toAction : Nat → Option Action
  | 0 => some .ignore
  | 1 => some .log
  | 2 => some .lock
  | 3 => some .wipe
  | _ => none

/-- A blocking line: FFh for NONE (R184). -/
def toBlocking : Nat → Option (Option TamperLine)
  | 0 => some (some .caseLine)
  | 1 => some (some .bayLine)
  | 2 => some (some .serviceLine)
  | 255 => some none
  | _ => none

/-- The configuration of a line; a line that names itself as its blocking line is illegal (R165). -/
def toLine (line : TamperLine) (t a b : Nat) : Option LineConfig :=
  match toTrigger t, toAction a, toBlocking b with
  | some t, some a, some b => if b = some line then none else some ⟨t, a, b⟩
  | _, _, _ => none

/-- A theft policy, if every value is legal (R165). -/
def toTheftPolicy (limit threshold purge : Nat) (lines : List Nat) (minutes : Nat) : Option TheftPolicy :=
  match lines with
  | [t0, a0, b0, t1, a1, b1, t2, a2, b2] =>
    match toTheftPurge purge, toLine .caseLine t0 a0 b0, toLine .bayLine t1 a1 b1, toLine .serviceLine t2 a2 b2 with
    | some p, some l0, some l1, some l2 =>
      if limit ≤ 250 && threshold ≤ 15 && minutes ≤ 255 then some ⟨limit, threshold, p, l0, l1, l2, minutes⟩ else none
    | _, _, _, _ => none
  | _ => none

/-- The flags byte (R184); its other bits are not read. -/
def toFlags (n : Nat) : Flags :=
  { style := if n.testBit 0 then .blank else .refuse
    lockOnSleep := n.testBit 1
    idleRelock := n.testBit 2
    wipeOnTheft := n.testBit 3
    recoveryBarred := n.testBit 4 }

/-- The credential that a request block names: absent for ABSENT, and the byte for an index (R184). -/
def namedCred (b : RequestBlock) : Option Nat := if b.cred = 255 then none else some b.cred.toNat

/-- A range set of UNLOCK or LOCK: 1–16 indices, no index twice, each naming an ACTIVE entry (step 2 of R70). -/
def toRangeSet (s : State) (l : List Nat) : Option (List RangeIx) :=
  match toIndices 16 l with
  | some set =>
    if 1 ≤ set.length && set.length ≤ 16 && set.Nodup && set.all (fun r => s.ranges[r].active) then some set else none
  | none => none

end Sys2Proof.Machine
end

