-- ==== Sys2Proof/Machine/Formats.lean ====
section
/-! DEFINITION. The formats of R184: the front descriptor and the request block as bytes, the completion, the response
block with its results, and the journal entry. -/

namespace Sys2Proof.Machine

/-! ## Value codes -/

/-- Status codes of completions. -/
def statusCode : Status → Nat
  | .ok => 0 | .malformed => 1 | .outOfRange => 2 | .locked => 3 | .rangeBusy => 4
  | .mediaError => 5 | .linkTimeout => 6 | .retry => 7 | .aborted => 8

/-- Status codes of responses. -/
def respCode : RespStatus → Nat
  | .done => 0 | .denied => 1 | .exhausted => 2 | .disabled => 3 | .notPermitted => 4 | .frozen => 5
  | .badRequest => 6 | .rangeBusy => 7 | .slotsExhausted => 8 | .tableFull => 9 | .alreadySet => 10
  | .noTicket => 11 | .notCancellable => 12

/-- Lock state codes. -/
def lockCode : LockState → Nat
  | .locked => 0 | .readOnly => 1 | .opened => 2

/-- Condition codes. -/
def condCode : Condition → Nat
  | .steady => 0 | .migrating => 1 | .draining => 2 | .purging => 3

/-- Credential state codes. -/
def credStateCode : CredState → Nat
  | .empty => 0 | .set => 1 | .exhausted => 2 | .disabled => 3

/-- Access codes. -/
def accessCode : Access → Nat
  | .read => 0 | .readWrite => 1

/-- Lane policy codes. -/
def policyCode : LanePolicy → Nat
  | .yielding => 0 | .holding => 1

/-- Pattern codes. -/
def patternCode : Pattern → Nat
  | .zeros => 0 | .ones => 1 | .random => 2

/-- Job kind codes. -/
def jobKindCode : JobKind → Nat
  | .rekey => 0 | .purge => 1

/-- Job state codes. -/
def jobStateCode : JobState → Nat
  | .queued => 0 | .running => 1 | .preempted => 2 | .paused => 3 | .stalled => 4 | .done => 5
  | .cancelled => 6 | .failed => 7

/-- Pause cause codes. -/
def pauseCode : PauseCause → Nat
  | .request => 0 | .locked => 1 | .power => 2

/-- Stall cause codes. -/
def stallCode : StallCause → Nat
  | .damageFull => 0 | .mediaError => 1 | .linkTimeout => 2

/-- Pending action codes. -/
def pendingCode : PendingAction → Nat
  | .noAction => 0 | .pause => 1 | .cancel => 2

/-- Lock cause codes. -/
def lockCauseCode : LockCause → Nat
  | .request => 0 | .idle => 1 | .sleep => 2 | .tamper => 3

/-- Theft cause codes. -/
def theftCode : TheftCause → Nat
  | .none => 0 | .strikes => 1 | .lockedStarts => 2 | .tamper => 3

/-- Tamper line codes. -/
def lineCode : TamperLine → Nat
  | .caseLine => 0 | .bayLine => 1 | .serviceLine => 2

/-- Trigger codes. -/
def triggerCode : Trigger → Nat
  | .onAssert => 0 | .onRelease => 1 | .both => 2

/-- Action codes. -/
def actionCode : Action → Nat
  | .ignore => 0 | .log => 1 | .lock => 2 | .wipe => 3

/-- Edge direction codes. -/
def edgeCode : Edge → Nat
  | .assert => 0 | .release => 1

/-- Filtered level codes. -/
def levelCode : Level → Nat
  | .asserted => 0 | .released => 1

/-- Power state codes. -/
def powerCode : PowerState → Nat
  | .active => 0 | .idle => 1 | .doze => 2 | .sleep => 3

/-- Codes of the operation in progress. -/
def opCode : PowerOp → Nat
  | .noOp => 0 | .wakeDoze => 1 | .sleepEntry => 2 | .wakeSleep => 3

/-- Start-up codes. -/
def startCode : StartCause → Nat
  | .powerOn => 0 | .restart => 1

/-- SWEEP_CANCELLED cause codes. -/
def cancelCode : CancelCause → Nat
  | .wipe => 0 | .theft => 1 | .request => 2

/-- The code of a yes-or-no value. -/
def yesNo (b : Bool) : Nat := if b then 1 else 0

/-- The flags byte. -/
def flagsCode (f : Flags) : Nat :=
  yesNo (f.style = .blank) + 2 * yesNo f.lockOnSleep + 4 * yesNo f.idleRelock + 8 * yesNo f.wipeOnTheft +
    16 * yesNo f.recoveryBarred

/-! ## Front descriptor and request block -/

/-- The 16 bytes of a descriptor. -/
def descriptorBytes (d : Descriptor) : List Byte :=
  leBytes 1 d.tag.val ++ [d.cls] ++ leBytes 5 d.start.toNat ++ [0] ++ leBytes 4 d.count.toNat ++ [0, 0, 0, 0]

/-- The request block: the 36-byte header, followed by the parameters. -/
def blockBytes (b : RequestBlock) : List Byte :=
  leBytes 2 b.code.toNat ++ [b.cred] ++ leBytes 1 b.params.length ++ leBytes 32 b.proof.toNat ++ b.params

/-- The request block that bytes spell: the header and the parameters of the length it gives. -/
def blockOfBytes (bs : List Byte) : RequestBlock :=
  { code := BitVec.ofNat 16 (leNat (bs.take 2))
    cred := (bs.drop 2).headD 0
    proof := BitVec.ofNat 256 (leNat ((bs.drop 4).take 32))
    params := (bs.drop 36).take ((bs.drop 3).headD 0).toNat }

/-- The descriptor that 16 bytes spell, with the request block that comes with it. -/
def descriptorOfBytes (bs : List Byte) (block : RequestBlock) : Descriptor :=
  { tag := ⟨(bs.headD 0).toNat % 32, Nat.mod_lt _ (by decide)⟩
    cls := (bs.drop 1).headD 0
    start := BitVec.ofNat 40 (leNat ((bs.drop 2).take 5))
    count := BitVec.ofNat 32 (leNat ((bs.drop 8).take 4))
    block := block }

/-! ## Journal entry -/

/-- The detail bytes, from byte 8. -/
def detailBytes : Detail → List Byte
  | .none => []
  | .startUp c => leBytes 1 (startCode c)
  | .recovered start failed => leBytes 5 start ++ leBytes 1 (yesNo failed)
  | .lock l => leBytes 1 (lockCode l)
  | .code c => leBytes 2 c.toNat
  | .lockCause c => leBytes 1 (lockCauseCode c)
  | .gen g => leBytes 4 g.toNat
  | .theft c => leBytes 1 (theftCode c)
  | .tamper line edge => leBytes 1 (lineCode line) ++ leBytes 1 (edgeCode edge)
  | .blocked line edge b => leBytes 1 (lineCode line) ++ leBytes 1 (edgeCode edge) ++ leBytes 1 (lineCode b)
  | .sweepDone failed => leBytes 1 (yesNo failed)
  | .stall c => leBytes 1 (stallCode c)
  | .cancelled c => leBytes 1 (cancelCode c)
  | .lba n => leBytes 5 n
  | .mediaTag t => leBytes 1 t.val
  | .power p => leBytes 1 (powerCode p)

/-- Zero bytes up to a length. -/
def padTo (n : Nat) (bs : List Byte) : List Byte := (bs ++ List.replicate n 0).take n

/-- The presence bits of byte 3 of a journal entry. -/
def presenceCode (e : Event) (gap : Bool) : Nat :=
  yesNo gap + 2 * yesNo e.range.isSome + 4 * yesNo e.cred.isSome + 8 * yesNo e.job.isSome

/-- The 16 bytes of a journal entry. -/
def entryBytes (e : JEntry) (gap : Bool) : List Byte :=
  leBytes 2 e.seq.toNat ++ leBytes 1 (kindCode e.event.kind) ++ leBytes 1 (presenceCode e.event gap) ++
    leBytes 1 ((e.event.range.map (·.val)).getD 0) ++ leBytes 1 ((e.event.cred.map (·.val)).getD 0) ++
    leBytes 1 ((e.event.job.map (·.val)).getD 0) ++ [0] ++ padTo 8 (detailBytes e.event.detail)

/-! ## Results -/

/-- A list: a count byte followed by its items. -/
def listBytes {α : Type} (f : α → List Byte) (l : List α) : List Byte := leBytes 1 l.length ++ l.flatMap f

/-- One byte. -/
def byte1 (n : Nat) : List Byte := leBytes 1 n

/-- A value that may be absent: nothing where it is (log entry 19). -/
def optBytes {α : Type} (f : α → List Byte) : Option α → List Byte
  | some a => f a
  | none => []

/-- A value whose presence nothing else tells: a yes-or-no byte before it (log entry 19). -/
def markedBytes {α : Type} (f : α → List Byte) : Option α → List Byte
  | some a => 1 :: f a
  | none => [0]

/-- A range record of QUERY: 0 for FREE, else 1 and the record (log entry 19). R176 lists the range records (R46) and the
migration part (R156), which both give W and the owning job: they stand once, inside the range record, and there is no
migration part of its own (DESIGN CHOICE, log entry 19). -/
def rangeReportBytes (x : RangeReport) : List Byte :=
  byte1 (yesNo x.active) ++ optBytes (fun p => leBytes 5 p.1 ++ leBytes 5 p.2) x.span ++ byte1 (lockCode x.lock) ++
    byte1 (condCode x.cond) ++ byte1 (yesNo x.guarded) ++ leBytes 4 x.gen.toNat ++ byte1 (flagsCode x.flags) ++
    optBytes (fun m => leBytes 5 m.1 ++ markedBytes (fun j => byte1 j.val) m.2) x.mig

/-- A credential record of QUERY. -/
def credReportBytes (x : CredReport) : List Byte :=
  byte1 (credStateCode x.state) ++ byte1 x.budget ++ byte1 x.tries ++
    listBytes (fun g => byte1 g.range.val ++ byte1 (accessCode g.access)) x.grants

/-- A line configuration. -/
def lineBytes (c : LineConfig) : List Byte :=
  byte1 (triggerCode c.trigger) ++ byte1 (actionCode c.action) ++ byte1 ((c.blocking.map lineCode).getD 255)

/-- A theft policy. R165 lists acknowledge among what the policy holds, and its factory policy names none; R166 and R167 do not say
whether the policy that they report carries an acknowledge byte: none is written (DESIGN CHOICE, log entry 19). -/
def policyBytes (p : TheftPolicy) : List Byte :=
  byte1 p.strikeLimit ++ byte1 p.threshold ++ byte1 ((p.purge.map (fun x => patternCode x + 1)).getD 0) ++
    lineBytes p.caseLine ++ lineBytes p.bayLine ++ lineBytes p.serviceLine ++ byte1 p.relockMinutes

/-- A set of ranges. -/
def setBytes (l : List RangeIx) : List Byte := listBytes (fun r => byte1 r.val) l

/-- A job report. R184 gives a block count 5 bytes, and the remaining count of a PURGE job over overlapping ranges may exceed
them: it is encoded modulo 2^40, as the spec says nothing of it (DESIGN CHOICE, log entry 46). -/
def jobBytes (j : JobReport) : List Byte :=
  byte1 (jobKindCode j.kind) ++ byte1 j.level ++ byte1 (policyCode j.policy) ++ setBytes j.ranges ++
    byte1 j.chunkSize ++ optBytes (fun p => byte1 (patternCode p)) j.pattern ++ byte1 (jobStateCode j.state) ++
    optBytes (fun p => byte1 (pauseCode p)) j.pause ++ optBytes (fun c => byte1 (stallCode c)) j.stall ++
    byte1 (pendingCode j.pending) ++ byte1 (yesNo j.waits) ++ byte1 j.cursorR.val ++ leBytes 5 j.cursorLba ++
    leBytes 5 j.remaining

/-- A purge option: the level, the lane policy that R107 gives with it, and the pattern (DESIGN CHOICE, log entry 19). -/
def purgeOptBytes (o : PurgeOpt) : List Byte :=
  byte1 o.level ++ byte1 (policyCode o.policy) ++ byte1 (patternCode o.pattern)

/-- The results of QUERY, part by part (R176). The elapsed minutes take 2 bytes (R184), and the spec says nothing of more than
65,535 of them: they are encoded modulo 65,536. The reported N takes 6 bytes, and the spec says nothing of an N of 2^48 or more:
it is encoded modulo 2^48 (DESIGN CHOICE, log entry 46). -/
def queryBytes (q : QueryReport) : List Byte :=
  q.ranges.flatMap rangeReportBytes ++
    byte1 q.slotsEmpty ++ byte1 q.slotsLoaded ++ byte1 q.slotsPending ++ byte1 (yesNo q.slot0Loaded) ++
    q.creds.flatMap credReportBytes ++ byte1 (yesNo q.frozen) ++ byte1 q.strikes ++
    leBytes 6 q.nReported ++ byte1 (yesNo q.capFault) ++ leBytes 5 q.u ++ leBytes 5 q.c ++
    leBytes 5 q.persistentCeiling ++ byte1 (yesNo q.persistentWritten) ++ byte1 (yesNo q.reserveView) ++
    leBytes 2 q.pbwLen ++ byte1 (yesNo q.pbwEnabled) ++ byte1 (yesNo q.writeOpen) ++ byte1 (yesNo q.windowOpen) ++
    markedBytes (fun p => byte1 p.1.val ++ setBytes p.2) q.prepared ++
    listBytes (fun e => byte1 e.range.val ++ leBytes 4 e.gen.toNat ++ markedBytes purgeOptBytes e.purge ++
      byte1 (yesNo e.stored)) q.intents ++
    byte1 (theftCode q.lastCause) ++
    listBytes (fun d => byte1 d.range.val ++ leBytes 5 d.lba) q.damaged ++
    policyBytes q.policy ++ byte1 q.strikes ++ byte1 q.lockedStarts ++ byte1 (theftCode q.lastCause) ++
    q.levels.flatMap (fun l => byte1 (levelCode l)) ++ leBytes 2 q.elapsedMinutes ++ byte1 (yesNo q.expired) ++
    byte1 (powerCode q.power) ++ byte1 (opCode q.op) ++ byte1 q.idle ++ byte1 q.doze ++
    byte1 q.quarantined ++ byte1 q.unread ++ leBytes 4 q.mask.toNat

/-- The bytes of results. R181 lists the number returned before the entries of a JOURNAL.READ, and R184 gives a list a count byte of its
own: one count byte is written, which is both (DESIGN CHOICE, log entry 19). A WIPE.COMMIT gives the destroyed generations as one
list, in index order and without the indices, and the job numbers as a second, which is empty where no PURGE job was queued (DESIGN
CHOICE, log entry 19). -/
def resultsBytes : Results → List Byte
  | .none => []
  | .lockStates l => listBytes (fun x => byte1 (lockCode x)) l
  | .ceiling c => leBytes 5 c
  | .reserve o => byte1 (yesNo o)
  | .pbw len e w o => leBytes 2 len ++ byte1 (yesNo e) ++ byte1 (yesNo w) ++ byte1 (yesNo o)
  | .prepared t set => leBytes 2 t.toNat ++ setBytes set
  | .committed gens jobs => listBytes (fun g => leBytes 4 g.toNat) gens ++ listBytes (fun j => byte1 j.val) jobs
  | .job j => byte1 j.val
  | .jobState st pause pending =>
    byte1 (jobStateCode st) ++ optBytes (fun p => byte1 (pauseCode p)) pause ++ byte1 (pendingCode pending)
  | .sweep jobs stack => jobs.flatMap (markedBytes jobBytes) ++ listBytes (fun j => byte1 j.val) stack
  | .theft p strikes starts cause => policyBytes p ++ byte1 strikes ++ byte1 starts ++ byte1 (theftCode cause)
  | .power idle doze => byte1 idle ++ byte1 doze
  | .mask m => leBytes 4 m.toNat
  | .journal es more => listBytes (fun e => entryBytes e.1 e.2) es ++ byte1 (yesNo more)
  | .query q => queryBytes q

/-- A response block: the 4-byte header, followed by the results; a refused request has none (R175, R185). -/
def responseBytes (r : Response) : List Byte :=
  byte1 (respCode r.status) ++ [0] ++ leBytes 2 (resultsBytes r.results).length ++ resultsBytes r.results

/-- The 4 bytes of a completion; the READ data or the response block follow it. -/
def completionBytes (c : Completion) : List Byte :=
  leBytes 1 c.tag.val ++ leBytes 1 (statusCode c.status) ++ leBytes 1 (yesNo c.attention) ++ [0]

end Sys2Proof.Machine
end

