-- ==== Sys2Proof/Machine/Front.lean ====
section
/-! DEFINITION. The front port and the admission unit: admission, the fence hold list, the retire of segments and the
completion of transactions, and the control unit's queue (chapter 1, R174). -/

namespace Sys2Proof.Machine

/-! ## The control unit's queue (R22, R174) -/

/-- The unit takes the oldest queued request into service, if it has none and no theft wipe's store writes are
outstanding (R174). -/
def takeNext (s : State) : State :=
  if s.control.service.isNone && !theftOutstanding s then
    match s.control.queue with
    | [] => s
    | x :: q => { s with control := { s.control with queue := q, service := some ⟨some x.1, x.2, .start⟩ } }
  else s

/-- A CONTROL transaction is offered to the unit (R22; log entry 21). -/
def offerControl (s : State) (t : FrontTag) (b : RequestBlock) : State :=
  if s.control.service.isNone && s.control.queue.isEmpty && !theftOutstanding s then
    { setStage s t .control with control := { s.control with service := some ⟨some t, b, .start⟩ } }
  else if s.control.queue.length < 4 then
    { setStage s t .control with control := { s.control with queue := s.control.queue ++ [(t, b)] } }
  else complete s t .retry [] none

/-! ## Retire and completion (R4, R13, R23) -/

/-- The segments of a transaction, in LBA order. -/
def segsOf (s : State) (t : FrontTag) : List Segment := s.front.segs.filter (fun g => g.owner = some t)

/-- The status of an admitted transaction: that of the lowest-LBA segment that did not retire OK, else OK (R4). -/
def settledStatus (l : List Segment) : Status :=
  match l.find? (fun g => g.status ≠ .ok) with
  | some g => g.status
  | none => .ok

/-- Complete a transaction whose last segment has retired (R4). -/
def completeIfDone (s : State) (t : FrontTag) : State :=
  let l := segsOf s t
  match s.front.tags[t] with
  | some x =>
    if l.all (fun g => g.state = .retired) then
      let st := settledStatus l
      let data := if x.cls = .read && st = .ok then l.flatMap (·.data) else []
      setSegs (complete s t st data none) (s.front.segs.filter (fun g => g.owner ≠ some t))
    else s
  | none => s

/-- A FLUSH issues its media FLUSH request (R23). R19 gives a media request an address and a count, and the spec states
neither for a FLUSH: the model puts 0 and 0 (DESIGN CHOICE, log entry 46). -/
def issueFlush (s : State) (t : FrontTag) : State := askTag (setStage s t .flushOut) ⟨.flush, 0, 0, [], .flush t⟩

/-- A retired segment leaves the wait set of one FLUSH, which issues its media FLUSH when the set is empty (R23). -/
def leaveWaitSet (id : Nat) (s : State) (t : FrontTag) : State :=
  match s.front.tags[t] with
  | some x =>
    match x.stage with
    | .flushWait ids =>
      if ids.contains id then
        let rest := ids.filter (· ≠ id)
        if rest.isEmpty then issueFlush s t else setStage s t (.flushWait rest)
      else s
    | .waiting => s
    | .held => s
    | .admitted => s
    | .flushOut => s
    | .control => s
  | none => s

/-- The damaged entries of its range that a segment covers (R13, R145). -/
def coveredDamage (s : State) (g : Segment) : List Damage :=
  match g.place with
  | .range r => s.damaged.filter (fun d => d.range = r && g.start ≤ d.lba && d.lba < g.start + g.len)
  | .preboot => []

/-- A WRITE or TRIM segment that retires OK removes the damaged entries it covers, and the list is stored (R13, R145). -/
def clearDamage (s : State) (g : Segment) (st : Status) : State :=
  if st = .ok && (g.cls = .write || g.cls = .trim) then
    let l := coveredDamage s g
    if l.isEmpty then s
    else issue { s with damaged := editDamaged s.damaged l [] } [(.damaged l [], .nothing)]
  else s

/-- A segment retires (R13): it drops its slot reference, clears damaged entries, leaves the wait sets of FLUSH
transactions and completes its transaction if it was the last. Where several wait sets empty at once, the spec gives their
media FLUSH requests no order: they are made ready in tag order (DESIGN CHOICE, log entry 46). -/
def retire (s : State) (id : Nat) (st : Status) (data : List Block) : State :=
  match segOf s id with
  | some g =>
    let s := modSeg s id (fun g => { g with state := .retired, status := st, data := data })
    let s := clearDamage (dropOpt s g.slot) g st
    let s := allTags.foldl (leaveWaitSet id) s
    match g.owner with
    | some t => completeIfDone s t
    | none => setSegs s (s.front.segs.filter (fun g => g.id ≠ id))
  | none => s

/-! ## Cutting (R6) -/

/-- A piece of a transaction's span, before it is decided. -/
structure Piece where
  start : Nat
  len   : Nat
  place : Place
  side  : Option Side
deriving DecidableEq, Repr

/-- The watermarks that are cuts: those of MIGRATING ranges that lie inside the range's resolved blocks (R6). -/
def watermarks (s : State) : List Nat :=
  allRanges.filterMap (fun r =>
    if s.ranges[r].active && s.ranges[r].cond = .migrating then
      match s.ranges[r].mig with
      | some m => if resolve s m.w = r then some m.w else none
      | none => none
    else none)

/-- The cuts strictly inside [lo, hi), outside the pre-boot span (R6). -/
def cutPoints (s : State) (lo hi : Nat) : List Nat :=
  sortPoints (((s.regions.c :: watermarks s) ++ runBoundaries s lo hi).filter (fun p => lo < p && p < hi))

/-- The side of the watermark that an LBA of a range lies on; absent where the range is not MIGRATING (R6). -/
def sideOf (s : State) (r : RangeIx) (lba : Nat) : Option Side :=
  if s.ranges[r].cond = .migrating then
    s.ranges[r].mig.map (fun m => if lba < m.w then .below else .above)
  else none

/-- A piece of a range. -/
def rangePiece (s : State) (x : Run) : Piece :=
  let r := resolve s x.start
  ⟨x.start, x.len, .range r, sideOf s r x.start⟩

/-- The pieces of the span [lo, hi) for a class: the pre-boot span as one, then the range pieces (R6). -/
def pieces (s : State) (cls : FrontClass) (lo hi : Nat) : List Piece :=
  let p := prebootEnd s cls
  let mid := min (max lo p) hi
  (if lo < mid then [⟨lo, mid - lo, .preboot, none⟩] else []) ++
    (if mid < hi then (cutSpan mid hi (cutPoints s mid hi)).map (rangePiece s) else [])

/-! ## Deciding (R7) -/

/-- What the decision of a segment gives (R7). -/
inductive Decision
  | refused (st : Status)
  | hold
  | blank
  | damaged
  | bound (slot : Option SlotIx)
deriving DecidableEq, Repr

/-- Whether a piece covers an LBA on the damaged list for its range (step 2 of R7). -/
def coversDamage (s : State) (r : RangeIx) (p : Piece) : Bool :=
  s.damaged.any (fun d => d.range = r && p.start ≤ d.lba && d.lba < p.start + p.len)

/-- Whether a piece overlaps its range's fence (step 6 of R7). -/
def touchesFence (s : State) (r : RangeIx) (p : Piece) : Bool :=
  s.ranges[r].cond = .migrating &&
    match s.ranges[r].mig.bind (·.fence) with
    | some f => overlaps f ⟨p.start, p.len⟩
    | none => false

/-- The slot of a range segment: the next-key slot below the watermark, the current key slot otherwise (R9). -/
def bindingOf (x : RangeEntry) : Option Side → Option SlotIx
  | some .below => nextSlotOf x
  | some .above => x.slot
  | none => x.slot

/-- The decision of a range segment, steps 2 to 7 of R7. -/
def decideRange (s : State) (cls : FrontClass) (r : RangeIx) (p : Piece) : Decision :=
  let x := s.ranges[r]
  let busy := x.cond = .draining || x.cond = .purging
  if cls = .read && x.lock ≠ .locked && !busy && coversDamage s r p then .damaged
  else if busy then .refused .rangeBusy
  else if x.lock = .locked then
    if cls = .read && x.flags.style = .blank then .blank else .refused .locked
  else if x.lock = .readOnly && cls ≠ .read then .refused .locked
  else if touchesFence s r p then .hold
  else .bound (bindingOf x p.side)

/-- The decision of a segment (R7). -/
def decidePiece (s : State) (cls : FrontClass) (p : Piece) : Decision :=
  match p.place with
  | .preboot =>
    if cls = .read then .bound (some 0)
    else if cls = .write && s.regions.writeOpen then .bound (some 0)
    else .refused .locked
  | .range r => decideRange s cls r p

/-! ## Outcome (R8, R9, R12) -/

/-- The media address of a segment (R6). -/
def mediaAddr (s : State) (p : Piece) : Nat :=
  match p.place with
  | .preboot => s.regions.n - 32832 + p.start
  | .range _ => p.start

/-- Add a segment record and its number. -/
def addSeg (s : State) (g : Segment) : State :=
  { s with front := { s.front with segs := s.front.segs ++ [g], nextSeg := s.front.nextSeg + 1 } }

/-- Admit one decided segment: bind it and start it on its path (R9, R12). -/
def admitSeg (t : FrontTag) (cls : FrontClass) (s : State) (p : Piece × Decision) : State :=
  let id := s.front.nextSeg
  let g : Segment :=
    { id := id, owner := some t, cls := cls, start := p.1.start, len := p.1.len, place := p.1.place, side := p.1.side
      slot := none, addr := mediaAddr s p.1, state := .retired, status := .ok, data := [] }
  match p.2 with
  | .blank => addSeg s { g with data := List.replicate p.1.len 0 }
  | .damaged => addSeg s { g with status := .mediaError }
  | .bound slot =>
    let s := match slot with | some i => bindSlot s i | none => s
    match cls with
    | .write =>
      let s := addSeg s { g with slot := slot, state := .laneWait }
      { s with arb := { s.arb with wait := s.arb.wait ++ [id] } }
    | .trim => askTag (addSeg s { g with slot := slot, state := .tagWait }) ⟨.trim, g.addr, g.len, [], .seg id⟩
    | .read => askTag (addSeg s { g with slot := slot, state := .tagWait }) ⟨.read, g.addr, g.len, [], .seg id⟩
    | .flush => s
    | .control => s
  | .refused _ => s
  | .hold => s

/-- The status of the lowest-LBA refused segment, if any was refused (R8). -/
def firstRefusal : List (Piece × Decision) → Option Status
  | [] => none
  | p :: ps =>
    match p.2 with
    | .refused st => some st
    | .hold => firstRefusal ps
    | .blank => firstRefusal ps
    | .damaged => firstRefusal ps
    | .bound _ => firstRefusal ps

/-- Append a transaction to the fence hold list, or complete it RETRY when the list holds 8 (R10). -/
def holdTxn (s : State) (t : FrontTag) : State :=
  if s.front.held.length < 8 then
    let s := setStage s t .held
    { s with front := { s.front with held := s.front.held ++ [t] } }
  else complete s t .retry [] none

/-- Admission of a READ, WRITE or TRIM (R5 to R9). The segments of one transaction start on their paths in one event, and
R15 and R19 give simultaneous entries no order: they join the traffic wait list and the media waiting list in LBA order
(DESIGN CHOICE, log entry 48). -/
def admitData (s : State) (t : FrontTag) (cls : FrontClass) (lo hi : Nat) : State :=
  if s.regions.u < hi || (s.regions.c < hi && !s.regions.reserveView) then complete s t .outOfRange [] none
  else
    let ps := (pieces s cls lo hi).map (fun p => (p, decidePiece s cls p))
    match firstRefusal ps with
    | some st => complete s t st [] none
    | none =>
      if ps.any (fun p => p.2 = .hold) then holdTxn s t
      else completeIfDone (ps.foldl (admitSeg t cls) (setStage s t .admitted)) t

/-- The wait set of a FLUSH: every WRITE and TRIM segment admitted and not retired (R23). -/
def flushSet (s : State) : List Nat :=
  (s.front.segs.filter (fun g => (g.cls = .write || g.cls = .trim) && g.state ≠ .retired)).map (·.id)

/-- Admission of a FLUSH (R23). -/
def admitFlush (s : State) (t : FrontTag) : State :=
  let ids := flushSet s
  if ids.isEmpty then issueFlush s t else setStage s t (.flushWait ids)

/-- Admission of the transaction of a tag, taken whole (R8). -/
def admitTxn (s : State) (t : FrontTag) : State :=
  match s.front.tags[t] with
  | some x =>
    match x.cls with
    | .control => offerControl s t x.block
    | .flush => admitFlush s t
    | .read => admitData s t .read x.start (x.start + x.count)
    | .write => admitData s t .write x.start (x.start + x.count)
    | .trim => admitData s t .trim x.start (x.start + x.count)
  | none => s

/-- The release of the fence hold list, in order (R11). -/
def releaseHeld (s : State) : State :=
  s.front.held.foldl admitTxn { s with front := { s.front with held := [] } }

/-- The waiting transactions pass to admission in arrival order (R3). -/
def admitWaiting (s : State) : State :=
  s.front.waiting.foldl admitTxn { s with front := { s.front with waiting := [] } }

/-- The waiting transactions complete RETRY (R3). R3 and R169 give the completions no order: they are sent in the order in
which the transactions arrived (DESIGN CHOICE, log entry 23). -/
def retryWaiting (s : State) : State :=
  s.front.waiting.foldl (fun s t => complete s t .retry [] none) { s with front := { s.front with waiting := [] } }

/-- Every unfinished transaction but one completes ABORTED, in tag order (R24, R177; log entry 23). -/
def abortAll (s : State) (keep : Option FrontTag) : State :=
  let s := { s with front := { s.front with held := [], waiting := [] }, control := { s.control with queue := [] } }
  allTags.foldl (fun s t =>
    if s.front.tags[t].isSome && some t ≠ keep then complete s t .aborted [] none else s) s

/-! ## Power steps (R168) -/

/-- The part enters a power state; POWER_STEP is journaled for a change of it, and the step timer counts anew (R168). -/
def enterPower (s : State) (p : PowerState) : State :=
  let changed := s.power.state ≠ p
  let s := { s with power := { s.power with state := p, op := .noOp, opTimer := 0, stepTimer := 0, dozeDue := false } }
  if changed then raise s { kind := .powerStep, detail := .power p } else s

/-! ## Keys and data -/

/-- The key that a slot holds. -/
def slotKey (s : State) : Option SlotIx → Option Key
  | some i => s.slots[i].key
  | none => none

/-- Change blocks one by one, each with its address. -/
def mapBlocks (f : Nat → Block → Block) : Nat → List Block → List Block
  | _, [] => []
  | a, b :: bs => f a b :: mapBlocks f (a + 1) bs

/-- The data of a pass under the bound key. -/
def passData (f : Key → Nat → Block → Block) (k : Option Key) (addr : Nat) (data : List Block) : List Block :=
  match k with
  | some k => mapBlocks (f k) addr data
  | none => data

end Sys2Proof.Machine
end

