-- ==== Sys2Proof/Machine/Sweep.lean ====
section
/-! DEFINITION. The sweep engine: the job table, the stack, the end of a job's turn, the return rule, unscheduled jobs,
the engine's choice and the taking of a PURGE chunk (chapter 7). -/

namespace Sys2Proof.Machine

/-! ## The stack and the dedicated lane (R16, R125) -/

/-- A job leaves the in-service stack; the order of the rest stands (R125). -/
def offStack (s : State) (j : JobNo) : State :=
  { s with sweep := { s.sweep with stack := s.sweep.stack.filter (· ≠ j) } }

/-- The dedicated lane ceases to be dedicated (R16). -/
def undedicate (s : State) : State :=
  match s.arb.dedicated with
  | some l =>
    let s := if s.arb.lanes[l] = .dedicated then setLane s l .free else s
    { s with arb := { s.arb with dedicated := none } }
  | none => s

/-- The lowest FREE lane. -/
def freeLane (s : State) : Option LaneIx := allLanes.find? (fun l => s.arb.lanes[l] = .free)

/-- A FREE lane becomes dedicated at once if there is one (R16; log entry 17). -/
def dedicate (s : State) : State :=
  match freeLane s with
  | some l => let s := setLane s l .dedicated; { s with arb := { s.arb with dedicated := some l } }
  | none => s

/-- A job changes to a state that is off the stack; a HOLD job that was RUNNING gives up its dedicated lane (R16). -/
def endTurn (s : State) (j : JobNo) (f : Job → Job) : State :=
  match jobAt s j with
  | some b =>
    let s := offStack (setJob s j (.job (f b))) j
    if b.state = .running && b.policy = .holding then undedicate s else s
  | none => s

/-- A job becomes RUNNING at the top of the stack; a HOLD job has a lane dedicated (R105, R16). -/
def becomeRunning (s : State) (j : JobNo) : State :=
  match jobAt s j with
  | some b =>
    let s := offStack (setJob s j (.job { b with state := .running })) j
    let s := { s with sweep := { s.sweep with stack := j :: s.sweep.stack } }
    if b.policy = .holding then dedicate s else s
  | none => s

/-- The RUNNING job becomes PREEMPTED and stays on the stack (R124). -/
def preempt (s : State) (j : JobNo) : State :=
  match jobAt s j with
  | some b =>
    let s := setJob s j (.job { b with state := .preempted, pending := .noAction })
    if b.policy = .holding then undedicate s else s
  | none => s

/-- A new job takes an entry and the next stamp (R121). -/
def queueJob (s : State) (j : JobNo) (b : Job) : State :=
  let s := setJob s j (.job { b with stamp := s.sweep.nextStamp })
  { s with sweep := { s.sweep with nextStamp := s.sweep.nextStamp + 1 } }

/-- Pause a job with a cause. -/
def pauseJob (s : State) (j : JobNo) (c : PauseCause) : State :=
  endTurn s j (fun b => { b with state := .paused, pause := some c, pending := .noAction })

/-! ## Cancellation and failure (R39, R108) -/

/-- What the end of a PURGE job leaves to be stored: ranges to be STEADY, and ranges that lose their purge option. -/
structure Release where
  steady : List RangeIx
  drop   : List RangeIx
deriving DecidableEq, Repr

/-- Two releases, one after the other. -/
def Release.join (a b : Release) : Release := ⟨a.steady ++ b.steady, a.drop ++ b.drop⟩

/-- The store writes of a release. -/
def Release.ops (x : Release) : List StoreOp :=
  x.steady.map .rangeSteady ++ if x.drop.isEmpty then [] else [.intents [] x.drop []]

/-- Issue writes, each on its own. -/
def issueEach (s : State) (l : List StoreOp) : State := l.foldl (fun s op => issue s [(op, .nothing)]) s

/-- Issue writes one after another with a handler at the last. -/
def issueChain (s : State) (l : List StoreOp) (last : Done) : State :=
  match l.reverse with
  | [] => s
  | x :: xs => issue s ((xs.reverse.map (fun op => (op, Done.nothing))) ++ [(x, last)])

/-- Issue writes together, in order, with a handler at the last: the store makes them one after another (R182), each behind
what was issued before the event and ahead of what a later event issues. -/
def issueAll (s : State) (l : List StoreOp) (last : Done) : State :=
  match l.reverse with
  | [] => s
  | x :: xs => issue (issueEach s xs.reverse) [(x, last)]

/-- Deal with one unfinished range of a PURGE job that has ended (R39). A range whose drain's finish writes are in flight
has PURGING among them, so its record is made STEADY behind them (log entry 40). -/
def releaseRange (x : State × Release) (r : RangeIx) : State × Release :=
  let s := x.1
  if purgeNames s none r then x
  else if s.ranges[r].cond = .purging then
    (modRange s r (fun y => { y with cond := .steady }), { x.2 with steady := x.2.steady ++ [r] })
  else if s.ranges[r].cond = .draining then
    ({ s with intents := editIntents s.intents [] [r] [] },
      ⟨if s.ranges[r].finishing then x.2.steady ++ [r] else x.2.steady, x.2.drop ++ [r]⟩)
  else x

/-- End a job in a finished state, and deal with its unfinished ranges outside `except` by R39. -/
def finishJob (s : State) (j : JobNo) (st : JobState) (except : List RangeIx) : State × Release :=
  match jobAt s j with
  | some b =>
    let s := endTurn s j (fun b => { b with state := st, pause := none, stall := none, pending := .noAction })
    if b.kind = .purge then
      ((unfinished b).filter (fun r => !except.contains r)).foldl releaseRange (s, ⟨[], []⟩)
    else (s, ⟨[], []⟩)
  | none => (s, ⟨[], []⟩)

/-- A wipe of some ranges cancels a job (R108); `r` is the range the entry names, the first of the wipe's set that the job
names where it names several (DESIGN CHOICE, log entry 27). -/
def cancelByWipe (s : State) (j : JobNo) (set : List RangeIx) (r : RangeIx) : State × Release :=
  let x := finishJob s j .cancelled set
  (raise x.1 { kind := .sweepCancelled, range := some r, job := some j, detail := .cancelled .wipe }, x.2)

/-- A wipe reaches one job of a range it makes DRAINING (R108). -/
def wipeJob (set : List RangeIx) (r : RangeIx) (x : State × Release) (j : JobNo) : State × Release :=
  let s := x.1
  match jobAt s j with
  | some b =>
    if !finished b && b.ranges.contains r && (b.kind = .rekey || b.level ≠ 0) then
      if hasChunk s j then (modJob s j (fun b => { b with wipeSet := b.wipeSet ++ set.filter (fun q => !b.wipeSet.contains q) }), x.2)
      else let y := cancelByWipe s j set r; (y.1, x.2.join y.2)
    else x
  | none => x

/-- A wipe deals with the sweep jobs of a range (R108). R108 gives several jobs that name the range no order: they are
cancelled, and their entries journaled, in job number order (DESIGN CHOICE, log entry 27). -/
def wipeJobs (set : List RangeIx) (r : RangeIx) (x : State × Release) : State × Release :=
  allJobs.foldl (wipeJob set r) x

/-! ## Return (R134) and locks (R136) -/

/-- Whether the engine is not free to run because of DOZE or a sleep request (R134). -/
def powerHolds (s : State) : Bool :=
  s.sleepLine || s.power.op ≠ .noOp || s.power.state = .doze || s.power.state = .sleep

/-- Whether a job is a REKEY job whose range is LOCKED. -/
def rekeyLocked (s : State) (b : Job) : Bool :=
  b.kind = .rekey && match cursorRange b with | some r => s.ranges[r].lock = .locked | none => false

/-- The return rule: a job leaves PAUSED or STALLED (R134). -/
def returnJob (s : State) (j : JobNo) : State :=
  match jobAt s j with
  | some b =>
    let b := { b with stall := none }
    if rekeyLocked s b then setJob s j (.job { b with state := .paused, pause := some .locked })
    else if powerHolds s && b.level ≠ 0 then setJob s j (.job { b with state := .paused, pause := some .power })
    else setJob s j (.job { b with state := .queued, pause := none })
  | none => s

/-- The job that is PAUSED with a cause returns by the return rule. -/
def returnIf (c : PauseCause) (s : State) (j : JobNo) : State :=
  match jobAt s j with
  | some b => if b.state = .paused && b.pause = some c then returnJob s j else s
  | none => s

/-- Every job PAUSED with cause POWER returns (R136). -/
def returnPower (s : State) : State := allJobs.foldl (returnIf .power) s

/-- Whether a job is the live REKEY job of a range. -/
def isRekeyOf (s : State) (r : RangeIx) (j : JobNo) : Bool :=
  match jobAt s j with
  | some b => b.kind = .rekey && !finished b && b.ranges.contains r
  | none => false

/-- The live REKEY job of a range. -/
def rekeyOf (s : State) (r : RangeIx) : Option JobNo := allJobs.find? (isRekeyOf s r)

/-- The REKEY job of a range that left LOCKED returns, if it is PAUSED with cause LOCKED (R71, R136). -/
def returnUnlocked (s : State) (r : RangeIx) : State :=
  match rekeyOf s r with
  | some j => returnIf .locked s j
  | none => s

/-- The lock procedure reaches the REKEY job of a range (R136). -/
def lockJob (s : State) (r : RangeIx) : State :=
  match rekeyOf s r with
  | some j =>
    match jobAt s j with
    | some b =>
      if b.state = .queued || b.state = .preempted || (b.state = .running && !hasChunk s j) then pauseJob s j .locked
      else s
    | none => s
  | none => s

/-! ## The end of a turn (R124) -/

/-- How the chunk before a boundary ended. -/
inductive ChunkEnd
  | went
  | failed
  | stalled (c : StallCause)
deriving DecidableEq, Repr

/-- The pause cause that holds for a job at a boundary (R124 case 5, R133, R136; log entry 29). -/
def pauseHolds (s : State) (b : Job) : Option PauseCause :=
  if b.pending = .pause then some .request
  else if rekeyLocked s b then some .locked
  else if s.sleepLine then some .power
  else none

/-- The entries journaled for a cancellation by request: one for each unfinished range (R135). R135 gives them no order: they
come in the order of the job's list (DESIGN CHOICE, log entry 46). -/
def cancelEvents (b : Job) (j : JobNo) : List Event :=
  (unfinished b).map (fun r =>
    { kind := .sweepCancelled, range := some r, job := some j, detail := .cancelled .request })

/-- An event is reported once its records are stored (R38). -/
def reportAfter (s : State) (ops : List StoreOp) (e : Event) : State :=
  if ops.isEmpty then raise s e else issueAll s ops (.report e)

/-- Whether the boundary of a job that a wipe has reached leaves a range of the wipe alone: the wipe still drains it (R108). A
range whose drain's finish writes are in flight, with no purge option of its own, owes its stored PURGING to a job: its
record is to be STEADY once no job names it (R39, R111; log entry 40). -/
def wipeSpares (s : State) (q : RangeIx) : Bool :=
  s.ranges[q].cond = .draining && (!s.ranges[q].finishing || ((intentOf s q).bind (·.purge)).isSome)

/-- A boundary of the RUNNING job: the first case of R124 that applies ends its turn. A wipe that reached the job while its
chunk was in motion leaves alone the ranges that it still drains (R108); one whose drain has ended meanwhile, or stores
PURGING for this job alone, is a range that the job has not finished (R39). -/
def settleTurn (s : State) (j : JobNo) (e : ChunkEnd) : State :=
  match jobAt s j with
  | some b =>
    match b.wipeSet, cursorRange b with
    | _, none =>
      let x := finishJob s j .done []
      raise x.1 { kind := .sweepDone, job := some j, detail := .sweepDone false
                  range := if b.kind = .rekey then b.ranges.head? else none }
    | w :: ws, some _ =>
      let x := cancelByWipe s j ((w :: ws).filter (wipeSpares s)) (((w :: ws).find? b.ranges.contains).getD w)
      issueEach x.1 x.2.ops
    | [], some r =>
      if b.pending = .cancel then
        let x := finishJob s j .cancelled []
        issueEach (raiseAll x.1 (cancelEvents b j)) x.2.ops
      else
        match e with
        | .failed =>
          let x := finishJob s j .failed []
          reportAfter x.1 x.2.ops { kind := .sweepDone, range := some r, job := some j, detail := .sweepDone true }
        | .stalled c =>
          let s := endTurn s j (fun b => { b with state := .stalled, stall := some c, pending := .noAction })
          raise s { kind := .sweepStalled, range := some r, job := some j, detail := .stall c }
        | .went =>
          match pauseHolds s b with
          | some c => pauseJob s j c
          | none => if waitsOnDrain s b then endTurn s j (fun b => { b with state := .queued }) else s
  | none => s

/-! ## Unscheduled ranges (R137) -/

/-- The job that RANGE.REKEY or start-up makes of a MIGRATING range. -/
def rekeyJob (s : State) (r : RangeIx) (level : Nat) (policy : LanePolicy) (chunkSize w : Nat) : Job :=
  let locked := s.ranges[r].lock = .locked
  { kind := .rekey, level := level, policy := policy, ranges := [r], pos := 0, lba := w, chunkSize := chunkSize
    pattern := none, state := if locked then .paused else .queued, pause := if locked then some .locked else none
    pending := .noAction, stamp := 0, stall := none, wipeSet := [], recreated := false }

/-- Whether a MIGRATING range has no REKEY job (R137). -/
def lacksRekey (s : State) (r : RangeIx) : Bool :=
  s.ranges[r].active && s.ranges[r].cond = .migrating && (rekeyOf s r).isNone

/-- Create the REKEY job of a MIGRATING range that no job names, while an entry is found (R137). -/
def createRekey (s : State) (r : RangeIx) : State :=
  if lacksRekey s r then
    match freeEntry s, s.ranges[r].mig with
    | some j, some m =>
      let s := queueJob s j (rekeyJob s r m.level m.policy m.chunkSize m.w)
      modRange s r (fun x => { x with mig := x.mig.map (fun m => { m with job := some j }) })
    | _, _ => s
  else s

/-- The stored purge checkpoint of a PURGING range that no job names (R137). -/
def lacksPurge (s : State) (r : RangeIx) : Option PurgeCkpt :=
  if s.ranges[r].active && s.ranges[r].cond = .purging && !purgeNames s none r then s.store.ranges[r].purge else none

/-- The PURGE job of a list of ranges. -/
def purgeJob (o : PurgeOpt) (ranges : List RangeIx) (lba : Nat) (recreated : Bool) : Job :=
  { kind := .purge, level := o.level, policy := o.policy, ranges := ranges, pos := 0, lba := lba, chunkSize := 64
    pattern := some o.pattern, state := .queued, pause := none, pending := .noAction, stamp := 0, stall := none
    wipeSet := [], recreated := recreated }

/-- Create one PURGE job of PURGING ranges that no job names: up to 4 of equal level, policy and pattern (R137). Where ranges of
several options interleave, R137 does not say how they are cut into groups nor which group comes first: a group is the
lowest-indexed range left and the next ranges left of its option, neighbours or not, up to 3 of them, and the groups take their
entries and stamps in the order of their first ranges (DESIGN CHOICE, log entry 36). -/
def createPurge (s : State) : State :=
  match allRanges.filterMap (fun r => (lacksPurge s r).map (fun c => (r, c))), freeEntry s with
  | (r, c) :: rest, some j =>
    let group := (((r, c) :: rest).filter (fun x => x.2.opt = c.opt)).take 4
    queueJob s j (purgeJob c.opt (group.map (·.1)) c.lba true)
  | _, _ => s

/-- Create jobs for the unscheduled ranges, REKEY first (R137). -/
def createUnscheduled (s : State) : State :=
  let s := allRanges.foldl createRekey s
  allJobs.foldl (fun s _ => createPurge s) s

/-! ## Choice (R123, R124, R125) -/

/-- The choice with no RUNNING job (R125). -/
def chooseIdle (s : State) : State :=
  match s.sweep.stack.head?, mostUrgent s with
  | none, none => s
  | none, some q => becomeRunning s q.1
  | some p, none => becomeRunning s p
  | some p, some q =>
    match jobAt s p with
    | some b => if q.2.level < b.level then becomeRunning s q.1 else becomeRunning s p
    | none => becomeRunning s q.1

/-- The choice at an event that leaves the RUNNING job at a boundary, or no job RUNNING (R124, R125). -/
def choose (s : State) : State :=
  match runningJob s with
  | some j =>
    match jobAt s j, mostUrgent s with
    | some b, some q => if q.2.level < b.level then becomeRunning (preempt s j) q.1 else s
    | _, _ => s
  | none => chooseIdle s

/-! ## Chunk passes and PURGE chunks (R16, R127, R128) -/

/-- A chunk pass asks for lanes: a HOLD job's pass starts on the dedicated lane, a YIELD job's pass becomes the waiting
pass (R16). A HOLD job with no dedicated lane yet has its pass begun when one is dedicated (R18; log entry 17). -/
def askLanes (s : State) (policy : LanePolicy) : State :=
  match policy with
  | .yielding => { s with arb := { s.arb with waitingPass := true } }
  | .holding =>
    match s.arb.dedicated with
    | some l => if s.arb.lanes[l] = .dedicated then setLane s l (.granted .pass) else s
    | none => s

/-- Whether a PURGE chunk's end is the end of its range's share for the job, so that the range becomes STEADY (R128). -/
def purgeEnds (s : State) (j : JobNo) (r : RangeIx) (lba : Nat) : Bool :=
  clippedEnd s r ≤ lba && !purgeNames s (some j) r

/-- The checkpoint store of a PURGE chunk (R128). R128 does not say when it is judged whether another live PURGE job names the
range: the model judges at the issue of the store, and again at the completion of one that left the range PURGING (DESIGN
CHOICE, log entry 36). -/
def storePurge (s : State) (j : JobNo) (b : Job) (c : Chunk) : State :=
  let lba := c.start + c.len
  let final := purgeEnds s j c.range lba
  let op := if final then StoreOp.rangeSteady c.range
    else .rangePurge c.range ⟨lba, ⟨b.level, b.policy, b.pattern.getD .zeros⟩⟩
  issue (setChunk s (some { c with phase := .fillStore final })) [(op, .chunk)]

/-- A RUNNING PURGE job takes its next chunk (R127, R128). -/
def takePurge (s : State) (j : JobNo) (b : Job) (r : RangeIx) : State :=
  let len := min b.chunkSize (clippedEnd s r - b.lba)
  let runs := runsOf s r b.lba (b.lba + len)
  let c : Chunk :=
    { job := j, kind := .purge, range := r, start := b.lba, len := len, runs := runs, phase := .pass, outstanding := 0
      blocks := [], fresh := [], fail := none, failedTwice := false, homeOk := [], newDamage := []
      curSlot := none, nextSlot := none }
  if runs.isEmpty then storePurge s j b c else askLanes (setChunk s (some c)) b.policy

/-- The last store of a range whose end is behind the cursor is issued, with no chunk (R127); the job stays at its
boundary while it is in flight. -/
def endRange (s : State) (r : RangeIx) (op : StoreOp) (d : Done) : State :=
  if s.sweep.completing.contains r then s
  else issue { s with sweep := { s.sweep with completing := s.sweep.completing ++ [r] } } [(op, d)]

/-- A RUNNING job at a boundary goes on: a job at or beyond the clipped end makes the last store of the range (R127), a PURGE
job takes its chunk, and a REKEY job waits for FENCE_SET (R143). While the step to DOZE is due, a job of level 1–3 takes no
chunk and stays at its boundary (R168); the rules do not say whether it ends its range then: it does, since the last store
takes no chunk, and likewise passes a range by (R127; DESIGN CHOICE, log entry 46). -/
def goOn (s : State) : State :=
  match runningJob s with
  | some j =>
    match jobAt s j with
    | some b =>
      match b.kind, cursorRange b with
      | .purge, some r =>
        if clippedEnd s r ≤ b.lba then endRange s r (.rangeSteady r) (.purged r j)
        else if s.power.dozeDue && b.level ≠ 0 then s
        else takePurge s j b r
      | .rekey, some r =>
        if clippedEnd s r ≤ b.lba then endRange s r (.rangeComplete r b.lba) (.completing r b.lba) else s
      | _, none => s
    | none => s
  | none => s

/-- Where a PURGE job's cursor stands in its next range (R128, R137). -/
def nextLba (s : State) (b : Job) : Nat :=
  match b.ranges[b.pos + 1]? with
  | some r => if b.recreated then ((s.store.ranges[r].purge).map (·.lba)).getD (rangeStart s r) else rangeStart s r
  | none => b.lba

/-- A PURGE job is done with the range under its cursor. -/
def pastRange (s : State) (b : Job) : Job := { b with pos := b.pos + 1, lba := nextLba s b }

/-- The RUNNING PURGE job whose cursor is at or beyond the clipped end of a range that another live PURGE job names: it is
done with the range, which stays PURGING, with nothing to store (R127, R128). -/
def passesRange (s : State) : Option JobNo :=
  match runningJob s with
  | some j =>
    match jobAt s j with
    | some b =>
      match cursorRange b with
      | some r => if b.kind = .purge && clippedEnd s r ≤ b.lba && purgeNames s (some j) r then some j else none
      | none => none
    | none => none
  | none => none

/-- Whether the RUNNING job waits on a drain. After a choice it does so where the engine has resumed a PURGE job whose cursor came
to a DRAINING range while it was PREEMPTED (R125). -/
def runningWaits (s : State) : Bool :=
  match runningJob s with
  | some j => (jobAt s j).any (waitsOnDrain s)
  | none => false

/-- The boundary is settled for the RUNNING job, if there is one (R124). -/
def settleRunning (s : State) : State :=
  match runningJob s with
  | some j => settleTurn s j .went
  | none => s

/-- The job that the engine has chosen goes on. A resumed job that waits on a drain has its turn ended (case 6 of R124), and one
that passes a range by is at a boundary anew: in both cases the engine takes the boundary again. -/
def onward (again : State → State) (s : State) : State :=
  if runningWaits s then again s
  else
    match passesRange s with
    | some j => again (modJob s j (pastRange s))
    | none => goOn s

/-- The engine at a boundary: it settles the RUNNING job's turn, chooses and goes on (R123 to R125); at most `n` times, once
more for each range that a job passes by and for each resumed job that waits on a drain. -/
def engineTurn : Nat → State → State
  | 0, s => s
  | n + 1, s => onward (engineTurn n) (choose (createUnscheduled (settleRunning s)))

/-- The engine after an event (R123): it creates jobs for unscheduled ranges, and, while it is free to run and no chunk is
in motion, it takes the boundary. No more than the 24 ranges of six jobs are passed by, and no more than the 4 jobs of the
stack are resumed to wait. -/
def engine (s : State) : State :=
  if s.startUp.isSome then s
  else if freeToRun s && s.sweep.chunk.isNone then engineTurn 29 s
  else createUnscheduled s

end Sys2Proof.Machine
end

