-- ==== Sys2Proof/Machine/Wipe.lean ====
section
/-! DEFINITION. The lock procedure (R74), what makes a range DRAINING (R107, R108), the queueing of PURGE jobs (R112), the
theft wipe (R113 to R115), and the drain (R110, R111). -/

namespace Sys2Proof.Machine

/-! ## Locks -/

/-- The lock procedure on one range (R74). -/
def lockRange (cause : LockCause) (s : State) (r : RangeIx) : State :=
  if guarded s r && s.ranges[r].active && s.ranges[r].lock ≠ .locked then
    let s := modRange (releaseNames s r) r (fun x => { x with lock := .locked })
    let s := if s.ranges[r].cond = .migrating then lockJob s r else s
    raise s { kind := .locked, range := some r, detail := .lockCause cause }
  else s

/-- The lock procedure on a set of ranges (R74). R74 gives the LOCKED entries no order: they come in index order (DEDUCED, log
entry 38). -/
def lockProcedure (s : State) (set : List RangeIx) (cause : LockCause) : State :=
  (allRanges.filter set.contains).foldl (lockRange cause) s

/-! ## Draining -/

/-- A range becomes DRAINING and LOCKED, releases its slots, and its sweep jobs are dealt with (step 4 of R107, R108). -/
def makeDraining (set : List RangeIx) (x : State × Release) (r : RangeIx) : State × Release :=
  let s := modRange (releaseNames x.1 r) r (fun y => { y with lock := .locked, cond := .draining })
  wipeJobs set r (s, x.2)

/-- Whether a new PURGE of one wipe takes up to 4 ranges: cut a list into groups (R112). -/
def groupsOf4 : List RangeIx → List (List RangeIx)
  | a :: b :: c :: d :: rest => [a, b, c, d] :: groupsOf4 rest
  | [] => []
  | l => [l]

/-- Place PURGE jobs group by group while an entry can take one; the groups that were placed and the jobs' numbers
(R112, R114). -/
def placeGroups (o : PurgeOpt) : State → List (List RangeIx) → State × List (List RangeIx) × List JobNo
  | s, [] => (s, [], [])
  | s, g :: gs =>
    match freeEntry s with
    | some j =>
      let first := (g.head?.map (rangeStart s)).getD 0
      let x := placeGroups o (queueJob s j (purgeJob o g first false)) gs
      (x.1, g :: x.2.1, j :: x.2.2)
    | none => (s, [], [])

/-! ## The theft wipe -/

/-- The QUEUED PURGE job of level 2 or 3 that is oldest in queue order (R114). -/
def oldestDisplaceable (s : State) : Option JobNo :=
  let ok := fun (b : Job) => b.kind = .purge && b.state = .queued && (b.level = 2 || b.level = 3)
  (allJobs.foldl (fun (best : Option (JobNo × Job)) j =>
    match jobAt s j with
    | some b =>
      if ok b then
        match best with
        | some x => if b.stamp < x.2.stamp then some (j, b) else best
        | none => some (j, b)
      else best
    | none => best) none).map (·.1)

/-- Displace queued PURGE jobs, one at a time, until the room suffices or none is left (R114). -/
def displace (need : Nat) : Nat → State × Release → State × Release
  | 0, x => x
  | n + 1, x =>
    if jobRoom x.1 < need then
      match oldestDisplaceable x.1 with
      | some j =>
        let y := finishJob x.1 j .cancelled []
        displace need n (raise y.1 { kind := .sweepCancelled, job := some j, detail := .cancelled .theft }, x.2.join y.2)
      | none => x
    else x

/-- The range set of a theft wipe (R113). -/
def theftSet (s : State) : List RangeIx :=
  allRanges.filter (fun r =>
    s.ranges[r].active && s.ranges[r].flags.wipeOnTheft && s.ranges[r].cond ≠ .draining && (intentOf s r).isNone)

/-- The WIPE_ON_THEFT ranges with a pending entry of a commit that are not yet DRAINING (step 4 of R113). -/
def theftPending (s : State) : List RangeIx :=
  allRanges.filter (fun r =>
    s.ranges[r].active && s.ranges[r].flags.wipeOnTheft && s.ranges[r].cond ≠ .draining &&
      match intentOf s r with
      | some e => !e.stored
      | none => false)

/-- The purge option of a theft wipe's jobs (R112). -/
def theftOpt (p : Pattern) : PurgeOpt := ⟨0, .holding, p⟩

/-- Step 5 of R113: the theft wipe queues its PURGE jobs; the ranges placed in a job. -/
def theftPurge (s : State) (cause : TheftCause) (set : List RangeIx) : State × Release × List RangeIx :=
  match s.dev.policy.purge with
  | some p =>
    let groups := groupsOf4 set
    let x := displace groups.length 6 (s, ⟨[], []⟩)
    let y := placeGroups (theftOpt p) x.1 groups
    let placed := y.2.1.flatten
    let dropped := set.filter (fun r => !placed.contains r)
    let s := raiseAll y.1 (dropped.map (fun r => { kind := .sweepDropped, range := some r, detail := .theft cause }))
    (s, x.2, placed)
  | none => (s, ⟨[], []⟩, [])

/-- The event of a theft wipe (R113), with the stores of STEADY ranges issued: the state, the set, and the intent write
that follows the device record write (R115). -/
def theftTrigger (s : State) (cause : TheftCause) : State × List RangeIx × StoreOp :=
  let s := { s with control := { s.control with prepared := none } }
  let s := raise s { kind := .theftWipe, detail := .theft cause }
  let set := theftSet s
  let also := theftPending s
  let all := set ++ also
  let x := all.foldl (makeDraining all) (s, ⟨[], []⟩)
  let y := theftPurge x.1 cause set
  let rel := x.2.join y.2.1
  let s := y.1
  let add := set.map (fun r =>
    let purge := if y.2.2.contains r then s.dev.policy.purge.map theftOpt else none
    (⟨r, s.ranges[r].gen, purge, false⟩ : Intent))
  let s := issueEach { s with intents := s.intents ++ add } (rel.steady.map .rangeSteady)
  (s, set, .intents [] rel.drop add)

/-- The store writes that follow a theft wipe's event, one after another (R115, R163). The last theft cause is set by the
device record write. -/
def theftChain (cause : TheftCause) (control : Bool) (patch : DevPatch) (set : List RangeIx) (op : StoreOp) :
    List (StoreOp × Done) :=
  [(.device { patch with lastCause := some cause }, .theftDevice cause control), (op, .theftIntents cause set)] ++
    if cause = .lockedStarts then [(.device { lockedStarts := some 0 }, .theftClear)] else []

/-- Put a theft wipe's writes behind those of the last earlier theft wipe in a list of writes; nothing where there is none
(R116). -/
def behindTheft (chain : List (StoreOp × Done)) : List Write → Option (List Write)
  | [] => none
  | w :: ws =>
    match behindTheft chain ws with
    | some ws => some (w :: ws)
    | none => if theftWrite w then some ({ w with rest := w.rest ++ chain } :: ws) else none

/-- Issue a theft wipe's writes: they follow those of an earlier theft wipe that are outstanding (R115, R116). -/
def issueTheft (s : State) (chain : List (StoreOp × Done)) : State :=
  match behindTheft chain s.writes with
  | some ws => { s with writes := ws }
  | none => issue s chain

/-- A theft wipe with cause TAMPER: the event and its writes (R113, R115). -/
def theftTamper (s : State) : State :=
  let x := theftTrigger s .tamper
  issueTheft x.1 (theftChain .tamper false {} x.2.1 x.2.2)

/-- The completion of a theft wipe's intent write (step 3 of R115). -/
def theftStored (s : State) (set : List RangeIx) : State :=
  let s := { s with intents := s.intents.map (fun e => if set.contains e.range then { e with stored := true } else e) }
  set.foldl (fun s r =>
    match intentOf s r with
    | some e => raise s { kind := .wipeCommitted, range := some r, detail := .gen e.gen }
    | none => s) s

/-! ## The drain (R110, R111) -/

/-- The option of the earliest queued live PURGE job that names a range and has not finished it (step 2 of R111). -/
def earliestPurge (s : State) (r : RangeIx) : Option PurgeOpt :=
  (allJobs.foldl (fun (best : Option Job) j =>
    match jobAt s j with
    | some b =>
      if b.kind = .purge && !finished b && (unfinished b).contains r then
        match best with
        | some x => if b.stamp < x.stamp then some b else best
        | none => some b
      else best
    | none => best) none).map (fun b => ⟨b.level, b.policy, b.pattern.getD .zeros⟩)

/-- The finish of a drain begins: a new key, and its store writes one after another (steps 1 to 4 of R111). -/
def startDrainFinish (s : State) (r : RangeIx) : State :=
  match intentOf s r with
  | some e =>
    let purge := earliestPurge s r <|> e.purge
    let k := takeKey s
    let s := modRange k.2 r (fun x => { x with finishing := true })
    let gen := e.gen + 1
    let dmg : List (StoreOp × Done) := if s.damaged.any (fun d => d.range = r) then [(.damagedRange r, .nothing)] else []
    issue s ([(.rangeDrained r gen k.1 purge, .nothing)] ++ dmg ++ [(.intents [r] [] [], .drained r gen purge.isSome)])
  | none => s

/-- An unguarded range whose drain has finished loads its new key, if a media slot is EMPTY, and becomes OPEN (step 6 of
R111). During start-up the step is left to the key phase (R118). In SLEEP and in the wake from it no key is loaded (R60,
R171), so the range stays LOCKED: R111 names no power state, and the model takes R171 to govern (DESIGN CHOICE, log
entry 46). -/
def drainLock (s : State) (r : RangeIx) : State :=
  if s.startUp.isSome || s.power.state = .sleep || guarded s r then s
  else
    let s := loadNamed s r
    if s.ranges[r].slot.isSome then modRange s r (fun x => { x with lock := .opened }) else s

/-- Whether a purge is still to follow the drain of a range: a live PURGE job names it, or its intent entry carries a purge
option (R38, R39). -/
def purgeFollows (s : State) (r : RangeIx) : Bool := purgeNames s none r || ((intentOf s r).bind (·.purge)).isSome

/-- The completion of the last write of a drain's finish (steps 5 to 7 of R111). The range is PURGING if a purge was to
follow when the finish began and still is (R39; log entry 40). An entry that RANGE.DELETE has freed meanwhile stays FREE, and
one that RANGE.DEFINE has made anew since is not that range: neither has a finish in progress (R25; DESIGN CHOICE, log entry
41). -/
def drained (s : State) (r : RangeIx) (gen : Gen) (purging : Bool) : State :=
  if s.ranges[r].active && s.ranges[r].finishing then
    let cond : Condition := if purging && purgeFollows s r then .purging else .steady
    let s := modRange s r (fun x => { x with gen := gen, cond := cond, mig := none, finishing := false })
    let s := { s with damaged := s.damaged.filter (fun d => d.range ≠ r)
                      intents := s.intents.filter (fun e => e.range ≠ r) }
    raise (drainLock s r) { kind := .wipeDone, range := some r, detail := .gen gen }
  else s

end Sys2Proof.Machine
end

