-- ==== Sys2Proof/Machine/Chunk.lean ====
section
/-! DEFINITION. The chunk in motion: its fence, media requests, pass, stores and end, for REKEY (chapter 8) and PURGE
(R128, R129). -/

namespace Sys2Proof.Machine

/-- Issue one media request of the chunk. -/
def askSweep (s : State) (op : MediaOp) (addr count : Nat) (data : List Block) (q : SweepReq) : State :=
  askTag s ⟨op, addr, count, data, .sweep q⟩

/-- Issue a WRITE of a run with the chunk's new blocks. R19 gives requests made in one event no order: those of a chunk join
the waiting list in rising LBA, here and wherever a chunk issues several (DESIGN CHOICE, log entry 48). -/
def writeRun (c : Chunk) (addr : Run → Nat) (q : Run → SweepReq) (s : State) (x : Run) : State :=
  askSweep s .write (addr x) x.len ((c.fresh.filter (fun b => x.start ≤ b.1 && b.1 < x.start + x.len)).map (·.2)) (q x)

/-- The staging address of a run (R147). -/
def stagingAddr (s : State) (start : Nat) (x : Run) : Nat := s.regions.n - 64 + (x.start - start)

/-! ## The end of a chunk -/

/-- A REKEY chunk ends: its fence clears, the hold list is released, its references are dropped and its job is at a
boundary (R148, R149). -/
def endRekey (s : State) (c : Chunk) (e : ChunkEnd) : State :=
  let s := modRange s c.range (fun x => { x with mig := x.mig.map (fun m => { m with fence := none }) })
  let s := releaseHeld (setChunk s none)
  let s := dropOpt (dropOpt s c.curSlot) c.nextSlot
  engine (settleTurn s c.job e)

/-- A failed REKEY chunk ends with W unchanged (R149). -/
def failRekey (s : State) (c : Chunk) : State := endRekey s c (.stalled (c.fail.getD .mediaError))

/-- Held slots of a range whose migration completes: a held next key is the current key from now on, and a held old
current key is zeroed (log entry 16). -/
def heldAfterMigration (r : RangeIx) (gen : Gen) (s : State) (i : SlotIx) : State :=
  modSlot s i (fun x =>
    if x.held && x.owner.map (·.1) = some r then
      if x.role = some .next then { x with role := some .current, owner := some (r, gen) } else emptySlot
    else x)

/-- A next-key slot becomes its range's CURRENT slot, owned at the new generation (R57); an EMPTY slot holds nothing. -/
def promoted (r : RangeIx) (gen : Gen) (y : Slot) : Slot :=
  if y.state = .empty then y else { y with role := some .current, owner := some (r, gen) }

/-- The range takes its new generation, and its next-key slot becomes its CURRENT slot (R151, R57). -/
def completeMigration (s : State) (r : RangeIx) : State :=
  let x := s.ranges[r]
  let gen := x.gen + 1
  let next := nextSlotOf x
  let s := modRange s r (fun x => { x with gen := gen, cond := .steady, mig := none, slot := next })
  let s := match next with
    | some i => modSlot s i (promoted r gen)
    | none => s
  let s := releaseOpt s x.slot
  mediaSlots.foldl (heldAfterMigration r gen) s

/-- The completing store has completed: the migration ends, unless the range drains (R151, R153). -/
def migrationStored (s : State) (r : RangeIx) (w : Nat) (j : JobNo) : State :=
  if s.ranges[r].cond = .migrating then
    modJob (completeMigration s r) j (fun b => { b with pos := b.pos + 1, lba := w })
  else
    modJob (modRange s r (fun x => { x with mig := x.mig.map (fun m => { m with w := w }) })) j (fun b => { b with lba := w })

/-- A REKEY chunk's checkpoint has completed (R148). -/
def checkpointStored (s : State) (c : Chunk) : State :=
  let w := c.start + c.len
  let s :=
    if clippedEnd s c.range ≤ w then migrationStored s c.range w c.job
    else modJob (modRange s c.range (fun x => { x with mig := x.mig.map (fun m => { m with w := w }) })) c.job
      (fun b => { b with lba := w })
  endRekey s c .went

/-- Whether a PURGE chunk whose checkpoint has completed owes its range the STEADY record: the range is PURGING, the job is
done with it, and no other live PURGE job names it any more (R39, R128). -/
def owesSteady (s : State) (c : Chunk) : Bool :=
  s.ranges[c.range].cond = .purging && (jobAt s c.job).any (fun b => cursorRange b = some c.range) &&
    purgeEnds s c.job c.range (c.start + c.len)

/-- The cursor of a PURGE job moves to the end of its chunk, and into the next range at the end of the one under it (R128). A
job whose cursor has left the range, since RANGE.DELETE freed it (log entry 41), keeps its cursor. -/
def purgeAdvanced (s : State) (c : Chunk) (b : Job) : Job :=
  let lba := c.start + c.len
  if cursorRange b ≠ some c.range then b
  else if clippedEnd s c.range ≤ lba then pastRange s { b with lba := lba }
  else { b with lba := lba }

/-- A PURGE chunk's checkpoint has completed (R128). Where the last other job that named the range ended while the checkpoint
was in flight, the range leaves PURGING with this job (R39): the STEADY record is stored, and the chunk ends at its completion
(DESIGN CHOICE, log entry 36). -/
def purgeStored (s : State) (c : Chunk) (final : Bool) : State :=
  if !final && owesSteady s c then
    issue (setChunk s (some { c with phase := .fillStore true })) [(.rangeSteady c.range, .chunk)]
  else
    let t := if final && s.ranges[c.range].cond = .purging then modRange s c.range (fun x => { x with cond := .steady }) else s
    engine (settleTurn (setChunk (modJob t c.job (purgeAdvanced t c)) none) c.job .went)

/-- A PURGE chunk ends with no checkpoint (R129, R130). -/
def failPurge (s : State) (c : Chunk) : State :=
  let e : ChunkEnd := if c.failedTwice then .failed else .stalled (c.fail.getD .linkTimeout)
  engine (settleTurn (setChunk s none) c.job e)

/-! ## The steps of a chunk -/

/-- The checkpoint store of a REKEY chunk; at the end of the range it is the completing store (R148, R151). -/
def storeCheckpoint (s : State) (c : Chunk) : State :=
  let w := c.start + c.len
  let op := if clippedEnd s c.range ≤ w then StoreOp.rangeComplete c.range w else .rangeCheckpoint c.range w
  issue (setChunk s (some { c with phase := .checkpoint })) [(op, .chunk)]

/-- The LBAs of the unreadable blocks that the damaged list does not hold for the range (R146). The spec gives the new
entries of one chunk no order; the model adds and journals them in rising LBA (DESIGN CHOICE, log entry 46). -/
def neededDamage (s : State) (c : Chunk) : List Nat :=
  sortPoints ((c.blocks.filter (fun b => b.2.isNone && !s.damaged.contains ⟨c.range, b.1⟩)).map (·.1))

/-- Every read has completed: the damaged check (R144, R146). -/
def readsDone (s : State) (c : Chunk) (policy : LanePolicy) : State :=
  if c.fail.isSome then failRekey s c
  else
    let need := neededDamage s c
    if 16 < s.damaged.length + need.length then failRekey s { c with fail := some .damageFull }
    else askLanes (setChunk s (some { c with phase := .pass, newDamage := need })) policy

/-- Store the staged record (step 1 of R148). -/
def storeStaged (s : State) (c : Chunk) : State :=
  issue (setChunk s (some { c with phase := .stagedStore }))
    [(.rangeStaged c.range ⟨c.range, c.start, c.len, c.runs⟩, .chunk)]

/-- Every staging WRITE has completed (R147): the damaged entries are added and stored, then the staged record. -/
def stagingDone (s : State) (c : Chunk) : State :=
  if c.fail.isSome then failRekey s c
  else if c.newDamage.isEmpty then storeStaged s c
  else
    let add : List Damage := c.newDamage.map (fun n => ⟨c.range, n⟩)
    let s := { s with damaged := editDamaged s.damaged [] add }
    issue (setChunk s (some { c with phase := .damageStore })) [(.damaged [] add, .chunk)]

/-- The home WRITEs are issued (step 2 of R148). -/
def homeWrites (s : State) (c : Chunk) : State :=
  let c := { c with phase := .home, outstanding := c.runs.length }
  c.runs.foldl (writeRun c (·.start) (fun x => .home x false)) (setChunk s (some c))

/-- The spans of a run whose blocks were read (R149). -/
def readSpans (c : Chunk) (x : Run) : List Run :=
  let read := fun n => c.blocks.any (fun b => b.1 = n && b.2.isSome)
  ((blocksOf x).foldl (fun (acc : List Run) n =>
    if read n then
      match acc with
      | y :: ys => if y.start + y.len = n then ⟨y.start, y.len + 1⟩ :: ys else ⟨n, 1⟩ :: acc
      | [] => [⟨n, 1⟩]
    else acc) []).reverse

/-- The original ciphertext of a span. -/
def originalData (c : Chunk) (x : Run) : List Block :=
  (blocksOf x).filterMap (fun n => (c.blocks.find? (fun b => b.1 = n)).bind (·.2))

/-- The undo has ended: the range record is stored without the staged record (R149). -/
def storeUndo (s : State) (c : Chunk) : State :=
  issue (setChunk s (some { c with phase := .undoStore })) [(.rangeUnstage c.range, .chunk)]

/-- Every home WRITE has completed or timed out (R148, R149). -/
def homeDone (s : State) (c : Chunk) : State :=
  if c.fail.isNone then storeCheckpoint s c
  else
    let spans := (c.runs.filter c.homeOk.contains).flatMap (readSpans c)
    if spans.isEmpty then storeUndo s c
    else
      let c := { c with phase := .undo, outstanding := spans.length }
      spans.foldl (fun s x => askSweep s .write x.start x.len (originalData c x) (.undo x)) (setChunk s (some c))

/-- Every WRITE of a PURGE chunk has completed or timed out (R128, R129). -/
def fillDone (s : State) (c : Chunk) (b : Job) : State :=
  if c.failedTwice || c.fail.isSome then failPurge s c else storePurge s c.job b c

/-- The chunk goes on once none of the media requests of its phase is outstanding. -/
def chunkGoOn (s : State) (c : Chunk) : State :=
  if c.outstanding ≠ 0 then setChunk s (some c)
  else
    match jobAt s c.job with
    | some b =>
      match c.phase with
      | .reading => readsDone s c b.policy
      | .staging => stagingDone s c
      | .home => homeDone s c
      | .undo => storeUndo s c
      | .fillWrite => fillDone s c b
      | .pass => setChunk s (some c)
      | .damageStore => setChunk s (some c)
      | .stagedStore => setChunk s (some c)
      | .checkpoint => setChunk s (some c)
      | .undoStore => setChunk s (some c)
      | .fillStore _ => setChunk s (some c)
    | none => setChunk s (some c)

/-- The answer of a media request of the chunk. -/
inductive Answer
  | ok (data : List Block)
  | error
  | timeout
deriving DecidableEq, Repr

/-- Mark a chunk failed with a cause; a second failure changes no cause (R130, R150). -/
def markFailed (c : Chunk) (cause : StallCause) : Chunk := { c with fail := c.fail <|> some cause }

/-- One request fewer is outstanding. -/
def answered (c : Chunk) : Chunk := { c with outstanding := c.outstanding - 1 }

/-- Deliver the blocks of a READ of a run. The spec lets no READ deliver fewer blocks than it counts: one that does leaves
the rest unreadable (DESIGN CHOICE, log entry 25). -/
def deliver (c : Chunk) (x : Run) (data : List Block) : Chunk :=
  { c with blocks := c.blocks ++ (List.range x.len).map (fun i => (x.start + i, data[i]?)) }

/-- A media request of the chunk is answered (R128, R129, R144, R147, R149). -/
def chunkAnswer (s : State) (c : Chunk) (q : SweepReq) (a : Answer) : State :=
  match q, a with
  | .read x, .ok data => chunkGoOn s (answered (deliver c x data))
  | .read x, .error =>
    let c := { c with outstanding := c.outstanding - 1 + x.len }
    (blocksOf x).foldl (fun s n => askSweep s .read n 1 [] (.readBlock n)) (setChunk s (some c))
  | .readBlock n, .ok data => chunkGoOn s (answered (deliver c ⟨n, 1⟩ data))
  | .readBlock n, .error => chunkGoOn s (answered { c with blocks := c.blocks ++ [(n, none)] })
  | .read _, .timeout => chunkGoOn s (answered (markFailed c .linkTimeout))
  | .readBlock _, .timeout => chunkGoOn s (answered (markFailed c .linkTimeout))
  | .staging _, .ok _ => chunkGoOn s (answered c)
  | .staging _, .error => chunkGoOn s (answered (markFailed c .mediaError))
  | .staging _, .timeout => chunkGoOn s (answered (markFailed c .linkTimeout))
  | .home x _, .ok _ => chunkGoOn s (answered { c with homeOk := c.homeOk ++ [x] })
  | .home x false, .error => writeRun c (·.start) (fun y => .home y true) s x
  | .home _ true, .error => chunkGoOn s (answered (markFailed c .mediaError))
  | .home _ _, .timeout => chunkGoOn s (answered (markFailed c .linkTimeout))
  | .undo _, _ => chunkGoOn s (answered c)
  | .fill _ _, .ok _ => chunkGoOn s (answered c)
  | .fill x false, .error => writeRun c (·.start) (fun y => .fill y true) s x
  | .fill _ true, .error => chunkGoOn s (answered { c with failedTwice := true })
  | .fill _ _, .timeout => chunkGoOn s (answered (markFailed c .linkTimeout))

/-! ## The pass (R128, R147) -/

/-- The lanes of a pass are released together; the dedicated lane of a RUNNING HOLD job returns to DEDICATED (R14). -/
def releasePass (s : State) : State :=
  allLanes.foldl (fun s l =>
    if s.arb.lanes[l] = .granted .pass then
      setLane s l (if s.arb.dedicated = some l then .dedicated else .free)
    else s) { s with arb := { s.arb with waitingPass := false } }

/-- A block of zeros. -/
def zeroBlock : Block := 0

/-- The new ciphertext of a block: deciphered under the current key and enciphered under the next; a block of zeros where
it is unreadable (R146, R147). -/
def rekeyBlock (cur next : Option Key) (b : Nat × Option Block) : Nat × Block :=
  let plain := match b.2, cur with
    | some x, some k => Config.decipher k b.1 x
    | some x, none => x
    | none, _ => zeroBlock
  (b.1, match next with | some k => Config.encipher k b.1 plain | none => plain)

/-- The fill of a block: random fill is a free value (R128; log entry 10). -/
def fillBlock (p : Pattern) (n : Nat) : Block :=
  match p with
  | .zeros => 0
  | .ones => BitVec.allOnes 32768
  | .random => Config.randomBlock n

/-- A REKEY pass ends: the staging WRITEs are issued (R147). -/
def rekeyPassEnd (s : State) (c : Chunk) : State :=
  let cur := slotKey s c.curSlot
  let next := slotKey s c.nextSlot
  let blocks := (c.runs.flatMap blocksOf).filterMap (fun n => c.blocks.find? (fun b => b.1 = n))
  let c := { c with fresh := blocks.map (rekeyBlock cur next), phase := .staging, outstanding := c.runs.length }
  c.runs.foldl (writeRun c (stagingAddr s c.start) .staging) (setChunk s (some c))

/-- A PURGE pass ends: one WRITE is issued for each run (R128). -/
def purgePassEnd (s : State) (c : Chunk) (p : Pattern) : State :=
  let blocks := c.runs.flatMap blocksOf
  let c := { c with phase := .fillWrite, outstanding := c.runs.length
                    fresh := blocks.zipIdx.map (fun (x : Nat × Nat) => (x.1, fillBlock p (s.fresh + x.2))) }
  let s := { s with fresh := s.fresh + blocks.length }
  c.runs.foldl (writeRun c (·.start) (fun x => .fill x false)) (setChunk s (some c))

/-! ## Stores of the chunk -/

/-- A store write of the chunk has completed. -/
def chunkStored (s : State) : State :=
  match s.sweep.chunk with
  | some c =>
    match c.phase with
    | .damageStore =>
      storeStaged (raiseAll s (c.newDamage.map (fun n =>
        { kind := .damageRecorded, range := some c.range, job := some c.job, detail := .lba n }))) c
    | .stagedStore => homeWrites s c
    | .checkpoint => checkpointStored s c
    | .undoStore => failRekey s c
    | .fillStore final => purgeStored s c final
    | .reading => s
    | .pass => s
    | .staging => s
    | .home => s
    | .undo => s
    | .fillWrite => s
  | none => s

/-- The last store of a range, made with no chunk, is no longer in flight. -/
def offCompleting (s : State) (r : RangeIx) : State :=
  { s with sweep := { s.sweep with completing := s.sweep.completing.filter (· ≠ r) } }

/-- The completing store made with no chunk has completed (R127): the migration ends, and its job is DONE in whatever state
the events since have left it (log entry 15). A job that a wipe has cancelled is not reached. -/
def completingStored (s : State) (r : RangeIx) (w : Nat) : State :=
  let s := offCompleting s r
  match rekeyOf s r with
  | some j => engine (settleTurn (migrationStored s r w j) j .went)
  | none => s

/-- The STEADY store of a range with which a PURGE job is done without a chunk has completed (R127, R128): the range is
STEADY, and the job, if it still has the range under its cursor, goes past it. The spec does not say what becomes of a job
that an event has taken off its boundary meanwhile: a PAUSED, QUEUED or PREEMPTED job goes past the range in its state, and
is DONE if it was the last (DESIGN CHOICE, log entry 15). -/
def purgedStored (s : State) (r : RangeIx) (j : JobNo) : State :=
  let s := offCompleting s r
  if s.ranges[r].cond = .purging && !purgeNames s (some j) r then
    let s := modRange s r (fun x => { x with cond := .steady })
    match jobAt s j with
    | some b =>
      if b.kind = .purge && !finished b && cursorRange b = some r then
        let s := modJob s j (pastRange s)
        engine (if (unfinished (pastRange s b)).isEmpty then settleTurn s j .went else s)
      else engine s
    | none => engine s
  else s

/-! ## The fence (R143) -/

/-- The chunk that a RUNNING REKEY job prepares at its boundary, if it may set its fence now (R143, R168). -/
def readyFence (s : State) : Option (JobNo × Job × RangeIx) :=
  if freeToRun s && s.sweep.chunk.isNone && !s.power.dozeDue then
    match runningJob s with
    | some j =>
      match jobAt s j with
      | some b =>
        match b.kind, cursorRange b with
        | .rekey, some r =>
          let len := min b.chunkSize (clippedEnd s r - b.lba)
          let free := !s.front.segs.any (fun g => g.state ≠ .retired && g.place = .range r && overlaps ⟨g.start, g.len⟩ ⟨b.lba, len⟩)
          if s.ranges[r].cond = .migrating && s.ranges[r].lock ≠ .locked && b.lba < clippedEnd s r && free then some (j, b, r)
          else none
        | _, _ => none
      | none => none
    | none => none
  else none

/-- The setting of the fence, as one event (R143, R58); a chunk with no runs goes straight to its checkpoint. The READs of
several runs join the waiting list in rising LBA: R19 gives them no order (DESIGN CHOICE, log entry 48). -/
def setFence (s : State) (j : JobNo) (b : Job) (r : RangeIx) : State :=
  let len := min b.chunkSize (clippedEnd s r - b.lba)
  let runs := runsOf s r b.lba (b.lba + len)
  let cur := s.ranges[r].slot
  let next := nextSlotOf s.ranges[r]
  let s := modRange s r (fun x => { x with mig := x.mig.map (fun m => { m with fence := some ⟨b.lba, len⟩ }) })
  let s := match cur with | some i => bindSlot s i | none => s
  let s := match next with | some i => bindSlot s i | none => s
  let c : Chunk :=
    { job := j, kind := .rekey, range := r, start := b.lba, len := len, runs := runs, phase := .reading
      outstanding := runs.length, blocks := [], fresh := [], fail := none, failedTwice := false, homeOk := []
      newDamage := [], curSlot := cur, nextSlot := next }
  if runs.isEmpty then storeCheckpoint s c
  else runs.foldl (fun s x => askSweep s .read x.start x.len [] (.read x)) (setChunk s (some c))

end Sys2Proof.Machine
end

