-- ==== Sys2Proof/Machine/StartUp.lean ====
section
/-! DEFINITION. The start-up phases of R183, from the load to the admission phase, and the start of SLEEP entry that may follow. -/

namespace Sys2Proof.Machine

/-- Move start-up to a phase. -/
def setPhase (s : State) (p : Phase) : State :=
  { s with startUp := s.startUp.map (fun u => { u with phase := p }) }

/-- Set the staging recovery in progress. -/
def setRecovery (s : State) (r : Option Recovery) : State :=
  { s with startUp := s.startUp.map (fun u => { u with recovery := r }) }

/-! ## Regions (R87, R89) -/

/-- The capacity that the part takes from a reported N, or nothing for a capacity fault (R87). -/
def takenCapacity (n : Nat) : Option Nat :=
  if n < 2 ^ 18 then none else some (min n (2 ^ 40) / 8 * 8)

/-- The regions as read in the load phase (R87, R89). -/
def readRegions (n : Nat) (ceiling : Nat) (written : Bool) : Regions :=
  match takenCapacity n with
  | some m =>
    let u := m - 32832
    { nReported := n, n := m, u := u, capFault := false
      c := if ceiling = 0 then u else if ceiling ≤ u then ceiling else u
      persistentWritten := written, reserveView := false, writeOpen := false }
  | none =>
    { nReported := n, n := 0, u := 0, capFault := true, c := 0
      persistentWritten := written, reserveView := false, writeOpen := false }

/-! ## Phases 1 to 3 -/

/-- The tables that hold the range records, the intents and the damaged list are taken from the store (R47 step 1, R109,
R145). -/
def loadTables (s : State) : State :=
  { s with ranges := vmap loadedEntry s.store.ranges, intents := s.store.intents, damaged := s.store.damaged }

/-- Phase 1: the store is loaded and N is read; the system key is created at the first start-up (R49, R183). -/
def loadPhase (s : State) (p : StartInputs) : State :=
  let s := loadTables { s with dev := s.store.device, creds := vmap loadedCred s.store.creds
                               regions := readRegions p.capacity s.store.device.ceiling s.regions.persistentWritten }
  match s.dev.systemKey with
  | some _ => s
  | none =>
    let k := takeKey s
    issue (modDev k.2 (fun d => { d with systemKey := some k.1 })) [(.device { systemKey := some k.1 }, .nothing)]

/-- The intent pass carries out one entry: the state and the writes it adds to the chain (R117). An entry of an index that
RANGE.DELETE has freed is only removed (log entry 41). -/
def passIntent (x : State × List (StoreOp × Done)) (e : Intent) : State × List (StoreOp × Done) :=
  let s := x.1
  let dmg : List (StoreOp × Done) :=
    if s.damaged.any (fun d => d.range = e.range) then [(.damagedRange e.range, .nothing)] else []
  let tail := dmg ++ [(.intents [e.range] [] [], .nothing)]
  if s.store.ranges[e.range].active && s.store.ranges[e.range].gen = e.gen then
    let k := takeKey s
    (k.2, x.2 ++ (.rangeDrained e.range (e.gen + 1) k.1 e.purge, .nothing) :: tail)
  else (s, x.2 ++ tail)

/-- Phase 2: the intent pass (R117): the entries in list order, each write completing before the next begins. -/
def intentPass (s : State) : State :=
  let x := s.store.intents.foldl passIntent (s, [])
  issue x.1 x.2

/-- The first MIGRATING range whose record holds a staged record (R154). -/
def stagedRange (s : State) : Option (RangeIx × Staged) :=
  allRanges.findSome? (fun r =>
    let x := s.store.ranges[r]
    if x.active && x.cond = .migrating then (x.mig.bind (·.staged)).map (fun g => (r, g)) else none)

/-- A READ of a staged run (R154). -/
def askStaged (start : Nat) (s : State) (x : Run) : State :=
  askTag s ⟨.read, stagingAddr s start x, x.len, [], .recovery x false false⟩

/-- The staging recovery of a range begins (R154): the READs of its runs wait in rising LBA (DESIGN CHOICE, log entry 48). -/
def startRecovery (s : State) (r : RangeIx) (g : Staged) : State :=
  g.runs.foldl (askStaged g.start) (setRecovery s (some ⟨r, g, g.runs.length, [], []⟩))

/-- The blocks of a list of runs that the damaged list does not hold for a range, while the list has room (R155). The spec
gives the lost blocks no order: the list takes them in rising LBA over all lost runs (DESIGN CHOICE, log entry 46). -/
def lostBlocks (damaged : List Damage) (r : RangeIx) (runs : List Run) : List Nat :=
  ((sortPoints (runs.flatMap blocksOf)).filter (fun n => !damaged.contains ⟨r, n⟩)).take (16 - damaged.length)

/-- Every run has been copied or lost: the record, and the damaged list if it changed, are stored (R154, R155). R155 stores the
two together and gives them no order: the record is written first and the list at its completion (DESIGN CHOICE, log entry
46). R154 does not say whether the end of the range is its stored end or that clipped at U, as a job treats it (R127): it is
the clipped end (DESIGN CHOICE, log entry 35). -/
def storeRecovery (s : State) (v : Recovery) : State :=
  let w := v.staged.start + v.staged.len
  let op := if clippedEnd s v.range ≤ w then StoreOp.rangeComplete v.range w else .rangeCheckpoint v.range w
  let lost := lostBlocks s.damaged v.range v.lost
  let s := setRecovery s (some { v with newDamage := lost })
  let dmg : List (StoreOp × Done) :=
    if lost.isEmpty then [] else [(.damaged [] (lost.map (fun n => ⟨v.range, n⟩)), .nothing)]
  issue s ((op, .nothing) :: dmg)

/-- The recovery's stores have completed: its entries are raised, and the tables are loaded as stored (R154, R155). R184
lists a job number for DAMAGE_RECORDED, and no job exists in this phase: it is left absent (DESIGN CHOICE, log entry 46). -/
def endRecovery (s : State) (v : Recovery) : State :=
  let s := loadTables (setRecovery s none)
  raiseAll s ({ kind := .recovered, range := some v.range, detail := .recovered v.staged.start (!v.lost.isEmpty) } ::
    v.newDamage.map (fun n => { kind := .damageRecorded, range := some v.range, detail := .lba n }))

/-- A media request of the staging recovery is answered (R154, R155); `sent` is the data of a WRITE. -/
def recoveryAnswer (s : State) (v : Recovery) (x : Run) (write again : Bool) (sent : List Block) (a : Answer) : State :=
  let less := { v with outstanding := v.outstanding - 1 }
  let lose := setRecovery s (some { less with lost := v.lost ++ [x] })
  match write, a with
  | false, .ok data => askTag s ⟨.write, x.start, x.len, data, .recovery x true false⟩
  | true, .ok _ => setRecovery s (some less)
  | false, .error => if again then lose else askTag s ⟨.read, stagingAddr s v.staged.start x, x.len, [], .recovery x false true⟩
  | true, .error => if again then lose else askTag s ⟨.write, x.start, x.len, sent, .recovery x true true⟩
  | _, .timeout => lose

/-! ## Phase 4 (R162, R118) -/

/-- The locked-start check: the count rises, and its write is issued; whether the check does anything (R162). -/
def lockedStartCheck (s : State) : Bool × State :=
  if s.dev.policy.threshold ≠ 0 && allRanges.any (fun r => s.ranges[r].active && guarded s r) then
    let n := min (s.dev.lockedStarts + 1) s.dev.policy.threshold
    (true, issue (modDev s (fun d => { d with lockedStarts := n })) [(.device { lockedStarts := some n }, .nothing)])
  else (false, s)

/-- A theft wipe with cause LOCKED_STARTS: the event and its writes (R113, R115, R163). -/
def theftLockedStarts (s : State) : State :=
  let x := theftTrigger s .lockedStarts
  issueTheft x.1 (theftChain .lockedStarts false {} x.2.1 x.2.2)

/-! ## Phases 5 to 8 -/

/-- An unguarded range becomes OPEN with its keys loaded (R47 step 4). -/
def openUnguarded (s : State) (r : RangeIx) : State :=
  if s.ranges[r].active && !guarded s r && s.ranges[r].cond ≠ .draining then
    let s := loadNamed s r
    if s.ranges[r].slot.isSome then modRange s r (fun x => { x with lock := .opened }) else s
  else s

/-- Phase 5: slot 0 is loaded with the system key, and the unguarded ranges are opened in index order (R47, R49). -/
def keyPhase (s : State) : State :=
  let s := modSlot s 0 (fun _ => ⟨.loaded, s.dev.systemKey, none, none, false, 0⟩)
  allRanges.foldl openUnguarded s

/-- Phase 7: START_UP is journaled, and the entries of the phases after it (R178). -/
def journalPhase (s : State) (u : StartUp) : State :=
  raiseAll { s with startUp := none } ({ kind := .startUp, detail := .startUp u.cause } :: u.deferred)

/-- The first sample of each filter (R157). -/
def firstSamples (period : Nat) (p : StartInputs) (t : Theft) : Theft :=
  { t with caseLine := ⟨p.caseLv, 0, 0, period⟩, bayLine := ⟨p.bayLv, 0, 0, period⟩
           serviceLine := ⟨p.svcLv, 0, 0, period⟩, sampling := true }

/-- A job that is RUNNING at a boundary when the sleep request line rises is PAUSED with cause POWER (R170). -/
def pauseRunning (s : State) : State :=
  match runningJob s with
  | some j => if hasChunk s j then s else pauseJob s j .power
  | none => s

/-- SLEEP entry begins (R170). -/
def beginSleepEntry (s : State) : State :=
  let s := { s with control := { s.control with prepared := none }
                    regions := { s.regions with reserveView := false, writeOpen := false }
                    power := { s.power with op := .sleepEntry, opTimer := 0, dozeDue := false } }
  pauseRunning s

/-- Phases 5 to 8 (R183). R183 gives the beginning of SLEEP entry, where the line is high, no order against the engine's choice and
the passing of the waiting transactions to admission: SLEEP entry begins first, then the engine chooses, and the transactions are
admitted, not completed RETRY (DEDUCED, log entry 43). -/
def admitPhase (s : State) (u : StartUp) : State :=
  let s := createUnscheduled (keyPhase s)
  let s := journalPhase s u
  let s := { s with theft := firstSamples (samplePeriod s) u.inputs s.theft }
  let s := if s.sleepLine then beginSleepEntry s else s
  takeNext (admitWaiting (engine s))

/-! ## The sequence -/

/-- One phase, when what the one before it waits for has come (R183). R118 gives the drains of a LOCKED_STARTS wipe that fall
due together no order: they finish, and journal WIPE_DONE, in index order. The wipe's clearing write (R163) and the writes of those
drains fall due together, at the completion of the intent write, and R182 lets either go first: the clearing write is made first,
and the drains begin after its completion (DESIGN CHOICE, log entry 46). -/
def runPhase (s : State) (u : StartUp) : State :=
  match u.phase with
  | .waitStore => setPhase s .load
  | .load => setPhase (loadPhase s u.inputs) .intents
  | .intents => setPhase (intentPass s) .staging
  | .staging =>
    let s := loadTables s
    if s.regions.capFault then setPhase s .lockedStarts
    else
      match stagedRange s with
      | some x => setPhase (startRecovery s x.1 x.2) .stagingStore
      | none => setPhase s .lockedStarts
  | .stagingStore =>
    match u.recovery with
    | some v => setPhase (storeRecovery s v) .stagingDone
    | none => setPhase s .staging
  | .stagingDone =>
    match u.recovery with
    | some v => setPhase (endRecovery s v) .staging
    | none => setPhase s .staging
  | .lockedStarts =>
    let x := lockedStartCheck s
    setPhase x.2 (if x.1 then .lockedCheck else .keys)
  | .lockedCheck =>
    if s.dev.lockedStarts = s.dev.policy.threshold then setPhase (theftLockedStarts s) .lockedDrains
    else setPhase s .keys
  | .lockedDrains =>
    let due := allRanges.filter (drainDue s)
    if due.isEmpty then setPhase s .keys else due.foldl startDrainFinish s
  | .keys => admitPhase s u

/-- Whether the phase to be taken still waits: for a store write or for a copy of the staging recovery (R183). -/
def phaseWaits (s : State) (u : StartUp) : Bool :=
  !s.writes.isEmpty || match u.recovery with
    | some v => v.outstanding ≠ 0
    | none => false

/-- Start-up goes on phase by phase, up to the first that waits; at most `n` phases. -/
def advance : Nat → State → State
  | 0, s => s
  | n + 1, s =>
    match s.startUp with
    | some u => if phaseWaits s u then s else advance n (runPhase s u)
    | none => s

/-- Start-up goes on. No sequence of phases without a wait is longer than 64. -/
def startUpGoesOn (s : State) : State := advance 64 s

/-! ## The start (R172, R177, R183) -/

/-- Every volatile state but the front port, the pending queue and persistent-written as at power-on (R172, R177); the
writes are left to the caller. -/
def clearVolatile (s : State) (written : Bool) : State :=
  { s with sleepReady := false, arb := emptyArbiter, media := emptyMediaPort
           ranges := vmap loadedEntry s.store.ranges, slots := Vector.replicate 24 emptySlot
           creds := vmap loadedCred s.store.creds, dev := s.store.device, intents := s.store.intents
           damaged := s.store.damaged, regions := noRegions written, control := emptyControl s.control.lastTicket
           sweep := emptySweep, theft := restTheft, power := restPower, journal := emptyJournal, startUp := none }

/-- Start-up begins at a phase (R183). -/
def beginStartUp (s : State) (cause : StartCause) (p : StartInputs) (ph : Phase) : State :=
  startUpGoesOn { s with startUp := some ⟨cause, p, ph, none, []⟩ }

/-- A write that RESTART leaves to complete: it does nothing more, and a completing store on a DRAINING range stays the
plain checkpoint that R153 makes of it. -/
def bareWrite (s : State) (w : Write) : Write :=
  let op := match w.op with
    | .rangeComplete r n => if s.ranges[r].cond = .draining then StoreOp.rangeCheckpoint r n else w.op
    | _ => w.op
  ⟨op, .nothing, []⟩

/-- RESTART, steps 3 to 5 (R177, R59): every other transaction completes ABORTED, the media is reset, segments, chunks and
slots go, and the phases run once the writes already issued have completed. -/
def restartPart (s : State) (p : StartInputs) : State :=
  let s := abortAll s none
  let s := { s with front := emptyFront s.front.nextSeg s.front.sent
                    writes := s.writes.map (bareWrite s) }
  beginStartUp (clearVolatile s s.regions.persistentWritten) .restart p .waitStore

end Sys2Proof.Machine
end

