-- ==== Sys2Proof/Machine/Control.lean ====
section
/-! DEFINITION. The control unit's service: proof checking and its accounting (R65 to R68), the order of a request's
store writes (R174), and what a request does when the writes it waits for have completed. -/

namespace Sys2Proof.Machine

/-! ## Responses -/

/-- The request in service is answered: its CONTROL transaction completes OK with the response, unless a link reset has
dropped it, and the unit takes its next request (R22, R174). -/
def respond (s : State) (r : Response) : State :=
  match s.control.service with
  | some v =>
    let s := { s with control := { s.control with service := none } }
    let s := match v.tag with
      | some t => complete s t .ok [] (some r)
      | none => s
    takeNext s
  | none => s

/-- A refusal returns its status alone (R175). -/
def refusal (st : RespStatus) : Response := ⟨st, .none⟩

/-- What the request in service does when the writes it waits for have completed is settled. -/
def setAfter (s : State) (a : After) : State :=
  { s with control := { s.control with service := s.control.service.map (fun v => { v with after := a }) } }

/-- The request in service is answered once store writes, issued in this event, have completed (R38, R175; log entry 14). -/
def respondAfter (s : State) (ops : List StoreOp) (r : Response) : State :=
  if ops.isEmpty then respond s r else issueAll (setAfter s (.respond r)) ops .control

/-- The prepared state ends (R104). -/
def endPrepared (s : State) : State := { s with control := { s.control with prepared := none } }

/-- Raise CONFIG_CHANGED with the code of the request (R184). -/
def configChanged (s : State) (range : Option RangeIx) (cred : Option CredIx) (code : BitVec 16) : State :=
  raise s { kind := .configChanged, range := range, cred := cred, detail := .code code }

/-! ## Guard loss and opening (R33, R71) -/

/-- A range whose guard was lost while not DRAINING becomes OPEN if it names its keys (R33, R35, R79); its REKEY job
returns. -/
def openIfUnguarded (s : State) (r : RangeIx) : State :=
  let x := s.ranges[r]
  if x.active && !guarded s r && x.cond ≠ .draining && x.lock ≠ .opened && x.slot.isSome then
    returnUnlocked (modRange s r (fun x => { x with lock := .opened })) r
  else s

/-- The lock state that an UNLOCK gives a range (R71). -/
def unlockedTo (x : RangeEntry) (a : Access) : LockState :=
  match x.lock, a with
  | .locked, .readWrite => if x.slot.isSome then .opened else .locked
  | .locked, .read => if x.slot.isSome then .readOnly else .locked
  | .readOnly, .readWrite => .opened
  | .readOnly, .read => .readOnly
  | .opened, _ => .opened

/-- One range of an UNLOCK at the take-up (R71 steps 3 to 5). -/
def unlockRange (cred : Option CredIx) (access : RangeIx → Access) (s : State) (r : RangeIx) : State :=
  let l := unlockedTo s.ranges[r] (access r)
  if l ≠ s.ranges[r].lock then
    let s := returnUnlocked (modRange s r (fun x => { x with lock := l })) r
    raise s { kind := .unlocked, range := some r, cred := cred, detail := .lock l }
  else s

/-- The take-up of an UNLOCK (R71, R73). R71 orders the results alone: the ranges are opened, and their UNLOCKED entries journaled,
in that order too, the order named (DEDUCED, log entry 38). -/
def unlockAll (s : State) (cred : Option CredIx) (set : List RangeIx) (access : RangeIx → Access) : State :=
  engine (set.foldl (unlockRange cred access) (takeUp s (fun _ => true)))

/-- The lock states of a list of ranges, in its order. -/
def lockStates (s : State) (set : List RangeIx) : Results := .lockStates (set.map (fun r => s.ranges[r].lock))

/-! ## Query (R176) -/

/-- The record of a range (R46, R156): a span for ACTIVE entries 1–15, and the other values for every index; those of a FREE
entry, but for its generation, stand at zero. -/
def rangeReport (s : State) (r : RangeIx) : RangeReport :=
  let x := s.ranges[r]
  { active := x.active, span := if r = 0 || !x.active then none else some (x.start, x.len), lock := x.lock, cond := x.cond
    guarded := guarded s r, gen := x.gen, flags := x.flags
    mig := if x.cond = .migrating then x.mig.map (fun m => (m.w, m.job)) else none }

/-- How many media slots are in a state (R61). -/
def slotCount (s : State) (st : SlotState) : Nat := (mediaSlots.filter (fun i => s.slots[i].state = st)).length

/-- How many media tags are QUARANTINED (R176). -/
def quarantinedTags (s : State) : Nat := (s.media.tags.toList.filter (fun t => t = .quarantined)).length

/-- The results of QUERY, taken whole (R176). R167 reports elapsed in minutes and says nothing of a part of a minute: the
model rounds down (DESIGN CHOICE, log entry 46). -/
def queryReport (s : State) : QueryReport :=
  { ranges := allRanges.map (rangeReport s)
    slotsEmpty := slotCount s .empty, slotsLoaded := slotCount s .loaded, slotsPending := slotCount s .pendingZero
    slot0Loaded := s.slots[(0 : SlotIx)].state = .loaded
    creds := allCreds.map (fun c => ⟨s.creds[c].state, s.creds[c].budget, s.creds[c].tries, s.creds[c].grants⟩)
    strikes := s.dev.strikes, frozen := s.control.frozen
    nReported := s.regions.nReported, capFault := s.regions.capFault, u := s.regions.u, c := s.regions.c
    persistentCeiling := s.dev.ceiling, persistentWritten := s.regions.persistentWritten
    reserveView := s.regions.reserveView, pbwLen := s.dev.pbwLen, pbwEnabled := s.dev.pbwEnabled
    writeOpen := s.regions.writeOpen, windowOpen := windowOpen s
    prepared := s.control.prepared.map (fun p => (p.cred, p.set)), intents := s.intents
    lastCause := s.dev.lastCause, damaged := s.damaged, policy := s.dev.policy, lockedStarts := s.dev.lockedStarts
    levels := [s.theft.caseLine.level, s.theft.bayLine.level, s.theft.serviceLine.level]
    elapsedMinutes := s.theft.elapsed / 60000000, expired := s.theft.expired
    power := s.power.state, op := s.power.op, idle := s.dev.idle, doze := s.dev.doze
    quarantined := quarantinedTags s, unread := s.journal.ring.length, mask := s.journal.mask }

/-! ## WIPE.COMMIT (R105 to R107) -/

/-- Whether a commit of a set cancels a job at once, so that its entry counts as room (R106, R108). -/
def cancelledAtOnce (s : State) (set : List RangeIx) (j : JobNo) : Bool :=
  match jobAt s j with
  | some b => !finished b && b.ranges.any set.contains && (b.kind = .rekey || b.level ≠ 0) && !hasChunk s j
  | none => false

/-- Whether the job table can take the PURGE jobs of a commit (R106). -/
def commitRoom (s : State) (set : List RangeIx) (purge : Option PurgeOpt) : Bool :=
  purge.isNone ||
    (set.length + 3) / 4 ≤ jobRoom s + (allJobs.filter (cancelledAtOnce s set)).length

/-- The pending entries of a commit (step 2 of R107). -/
def commitEntries (s : State) (set : List RangeIx) (purge : Option PurgeOpt) : List Intent :=
  set.map (fun r => ⟨r, s.ranges[r].gen, purge, false⟩)

/-- The completion of a commit's intent write for one range (step 4 of R107, R113). -/
def commitRange (set : List RangeIx) (x : State × Release) (r : RangeIx) : State × Release :=
  let y := if x.1.ranges[r].cond = .draining then x else makeDraining set x r
  match intentOf y.1 r with
  | some e => (raise y.1 { kind := .wipeCommitted, range := some r, detail := .gen e.gen }, y.2)
  | none => y

/-- The completion of a commit's intent write (steps 4 to 6 of R107): the state, what the cancelled jobs leave to be stored
before the response (R38), and the results. -/
def commitStored (s : State) (set : List RangeIx) (purge : Option PurgeOpt) : State × Release × Results :=
  let s := { s with intents := s.intents.map (fun e => if set.contains e.range then { e with stored := true } else e) }
  let gens := set.map (fun r => ((intentOf s r).map (·.gen)).getD 0)
  let x := set.foldl (commitRange set) (s, ⟨[], []⟩)
  match purge with
  | some o =>
    let y := placeGroups o x.1 (groupsOf4 set)
    (y.1, x.2, .committed gens y.2.2)
  | none => (x.1, x.2, .committed gens [])

/-! ## What a request does when its writes have completed -/

/-- A change of a credential record takes effect (R77): held slots are taken up, and the ranges of `ranges` that are left
unguarded are opened (R33, R54). -/
def credChanged (s : State) (c : CredIx) (f : Cred → Cred) (ranges : List RangeIx) : State :=
  if ranges.isEmpty then modCred s c f
  else engine (ranges.foldl openIfUnguarded (takeUp (modCred s c f) (fun _ => true)))

/-- A grant list without a range. -/
def withoutGrant (l : List Grant) (r : RangeIx) : List Grant := l.filter (fun g => g.range ≠ r)

/-- A grant list with a grant: its access changed in place, or added at the tail (R81). -/
def withGrant (l : List Grant) (r : RangeIx) (a : Access) : List Grant :=
  if l.any (fun g => g.range = r) then l.map (fun g => if g.range = r then { g with access := a } else g)
  else l ++ [⟨r, a⟩]

/-- CRED.SET's record (R78). -/
def credSetTo (v : Secret) (x : Cred) : Cred :=
  { x with state := if x.state = .disabled then .disabled else .set, verifier := some v, tries := x.budget }

/-- CRED.CLEAR's record (R79). -/
def credCleared (x : Cred) : Cred := { x with state := .empty, verifier := none, grants := [], tries := x.budget }

/-- CRED.DISABLE's record (R80). -/
def credDisabled (x : Cred) : Cred :=
  { x with state := .disabled, tries := if x.state = .exhausted then x.budget else x.tries }

/-- CRED.ENABLE's record (R80). -/
def credEnabled (x : Cred) : Cred := { x with state := .set, tries := x.budget }

/-- CRED.BUDGET's record (R83). -/
def credBudgetTo (n : Nat) (x : Cred) : Cred :=
  { x with budget := n, tries := n, state := if x.state = .exhausted then .set else x.state }

/-- RANGE.DEFINE's entry (step 3 of R42). -/
def definedEntry (start len : Nat) (flags : Flags) (gen : Gen) : RangeEntry :=
  { active := true, start := start, len := len, lock := .opened, cond := .steady, slot := none, mig := none
    gen := gen, flags := flags, finishing := false }

/-- A FREE entry that keeps its generation (R43). Where the drain of a theft wipe has stored a later generation in the record
meanwhile, the FREE record keeps that one and the entry, which QUERY reports (R46), the one it had in force: the spec does not say
which the entry keeps (DESIGN CHOICE, log entry 41). -/
def freedEntry (x : RangeEntry) : RangeEntry := { loadedEntry freeRecord with gen := x.gen }

/-- A PURGE job without a range that has become FREE (R25): its cursor keeps its place among the ranges that are left. -/
def withoutRange (s : State) (r : RangeIx) (b : Job) : Job :=
  { b with ranges := b.ranges.filter (· ≠ r), pos := ((b.ranges.take b.pos).filter (· ≠ r)).length
           lba := if cursorRange b = some r then nextLba s b else b.lba }

/-- A live PURGE job ceases to name a range that has become FREE; a job that is left with no range to work, and has no chunk
in motion, is CANCELLED, and one with a chunk in motion is DONE at its end (R25; DESIGN CHOICE, log entry 41). -/
def forgetRange (r : RangeIx) (s : State) (j : JobNo) : State :=
  match jobAt s j with
  | some b =>
    if b.kind = .purge && !finished b && b.ranges.contains r then
      let s := setJob s j (.job (withoutRange s r b))
      if (unfinished (withoutRange s r b)).isEmpty && !hasChunk s j then
        raise (finishJob s j .cancelled []).1
          { kind := .sweepCancelled, range := some r, job := some j, detail := .cancelled .request }
      else s
    else s
  | none => s

/-- RANGE.DELETE takes effect (step 4 of R43). Where a theft wipe has reached the range since the check, its intent entry
and its place in the wipe's PURGE jobs go with the entry (R25; DESIGN CHOICE, log entry 41). -/
def deleteRange (s : State) (r : RangeIx) : State :=
  let s := modRange (releaseNames s r) r freedEntry
  let s := { s with creds := vmap (fun c => { c with grants := withoutGrant c.grants r }) s.creds
                    damaged := s.damaged.filter (fun d => d.range ≠ r)
                    intents := s.intents.filter (fun e => e.range ≠ r) }
  allJobs.foldl (forgetRange r) s

/-- What is left to be stored when RANGE.DELETE takes effect: the wipe intent list, if a theft wipe has given the range an
entry (log entry 41). -/
def deleteOps (s : State) (r : RangeIx) : List StoreOp := if (intentOf s r).isSome then [.intents [r] [] []] else []

/-- RANGE.REKEY takes effect (step 4 of R141). -/
def startRekey (s : State) (r : RangeIx) (j : JobNo) (level : Nat) (policy : LanePolicy) (chunkSize : Nat) : State :=
  let w := rangeStart s r
  let s := modRange s r (fun x => { x with cond := .migrating, mig := some ⟨w, none, none, some j, level, policy, chunkSize⟩ })
  let s := takeUp s (fun q => s.ranges[q].lock ≠ .locked)
  engine (queueJob s j (rekeyJob s r level policy chunkSize w))

/-- THEFT.SET takes effect (step 3 of R166). -/
def setTheft (s : State) (p : TheftPolicy) (clearStrikes clearStarts ack : Bool) : State :=
  let changed := p.relockMinutes ≠ s.dev.policy.relockMinutes
  let s := modDev s (fun d =>
    { d with policy := p, strikes := if clearStrikes then 0 else d.strikes
             lockedStarts := if clearStarts then 0 else d.lockedStarts
             lastCause := if ack then .none else d.lastCause })
  if changed then { s with theft := { s.theft with elapsed := 0, expired := false } } else s

/-- What the request in service does when the store writes it waits for have completed. A RESTART leaves the store writes of
a theft wipe to complete first (R115; log entry 47). The rules do not say whether CONFIG_CHANGED is journaled where a link
reset has dropped the response (R24, R166): it is, with the table change (DESIGN CHOICE, log entry 46). -/
def finishService (s : State) : State :=
  match s.control.service with
  | none => s
  | some v =>
    let code := v.block.code
    let done := fun (s : State) (r : Results) => respond s ⟨.done, r⟩
    match v.after with
    | .start => s
    | .respond r => respond s r
    | .query => done (endPrepared s) (.query (queryReport s))
    | .reserve => done s (.reserve s.regions.reserveView)
    | .restart p => if theftOutstanding s then s else restartPart (done s .none) p
    | .unlock c set =>
      let access := fun r => (grantOf s.creds[c] r).getD .read
      let s := unlockAll (modDev s (fun d => { d with lockedStarts := 0 })) (some c) set access
      done s (lockStates s set)
    | .credSet c x => done (configChanged (credChanged s c (credSetTo x) []) none (some c) code) .none
    | .credClear c =>
      done (configChanged (credChanged s c credCleared (s.creds[c].grants.map (·.range))) none (some c) code) .none
    | .credDisable c => done (configChanged (credChanged s c credDisabled []) none (some c) code) .none
    | .credEnable c => done (configChanged (credChanged s c credEnabled []) none (some c) code) .none
    | .credGrant c r a =>
      let f := fun (x : Cred) => { x with grants := withGrant x.grants r a }
      done (configChanged (credChanged s c f []) none (some c) code) .none
    | .credRevoke c r =>
      let f := fun (x : Cred) => { x with grants := withoutGrant x.grants r }
      done (configChanged (credChanged s c f [r]) none (some c) code) .none
    | .credBudget c n => done (configChanged (credChanged s c (credBudgetTo n) []) none (some c) code) .none
    | .rangeDefine r start len flags gen =>
      let s := takeUp (modRange s r (fun _ => definedEntry start len flags gen)) (fun _ => true)
      done (configChanged s (some r) none code) .none
    | .rangeDelete r =>
      respondAfter (configChanged (engine (deleteRange s r)) (some r) none code) (deleteOps s r) ⟨.done, .none⟩
    | .rangeFlags r flags bar =>
      let s := modRange s r (fun x => { x with flags := flags })
      let s := if bar then credChanged s 1 (fun x => { x with grants := withoutGrant x.grants r }) [r] else s
      done (configChanged s (some r) none code) .none
    | .rangeRekey r j level policy chunkSize =>
      if s.ranges[r].cond = .draining then
        respond (engine (setJob (takeUp s (fun _ => false)) j .free)) (refusal .rangeBusy)
      else done (configChanged (startRekey s r j level policy chunkSize) (some r) none code) (.job j)
    | .ceiling c persistent =>
      let s := if persistent then
          { modDev s (fun d => { d with ceiling := c }) with
            regions := { s.regions with c := c, persistentWritten := true } }
        else { s with regions := { s.regions with c := c } }
      done (configChanged s none none code) (.ceiling c)
    | .pbw len enabled writeOpen =>
      let s := { modDev s (fun d => { d with pbwLen := len, pbwEnabled := enabled }) with
                 regions := { s.regions with writeOpen := writeOpen && v.tag.isSome && !s.sleepLine } }
      done (configChanged s none none code) (.pbw len enabled s.regions.writeOpen (windowOpen s))
    | .commitCheck set purge =>
      if set.any (fun r => s.ranges[r].cond = .draining) then respond s (refusal .rangeBusy)
      else if !commitRoom s set purge then respond s (refusal .tableFull)
      else
        let add := commitEntries s set purge
        let s := { s with intents := s.intents ++ add
                          control := { s.control with service := some { v with after := .commit set purge } } }
        issue s [(.intents [] [] add, .control)]
    | .commit set purge =>
      let x := commitStored s set purge
      respondAfter (engine x.1) x.2.1.ops ⟨.done, x.2.2⟩
    | .theft p clearStrikes clearStarts ack =>
      let s := configChanged (setTheft s p clearStrikes clearStarts ack) none none code
      done s (.theft s.dev.policy s.dev.strikes s.dev.lockedStarts s.dev.lastCause)
    | .power idle doze =>
      let s := modDev s (fun d => { d with idle := idle, doze := doze })
      let s := { s with power := { s.power with stepTimer := 0, dozeDue := false } }
      done (configChanged (engine s) none none code) (.power idle doze)

/-! ## Service -/

/-- The device record write of R68, where it is due. -/
def dueOps (dirty : Bool) : List StoreOp := if dirty then [.device { strikes := some 0 }] else []

/-- The request makes its store writes one after another, the device record write of R68 first, and then goes on; with no
write to make it goes on at once (R68, R174; log entry 13). -/
def proceed (s : State) (dirty : Bool) (ops : List StoreOp) (a : After) : State :=
  let ops := dueOps dirty ++ ops
  if ops.isEmpty then finishService (setAfter s a) else issueChain (setAfter s a) ops .control

/-- The request is refused; the refusal follows the device record write of R68. -/
def refuse (s : State) (dirty : Bool) (st : RespStatus) : State := proceed s dirty [] (.respond (refusal st))

/-- The request is carried out with nothing more to store. -/
def carried (s : State) (dirty : Bool) (r : Results) : State := proceed s dirty [] (.respond ⟨.done, r⟩)

/-- The outcome of proof checking (R66). -/
inductive ProofCheck
  | refused (st : RespStatus)
  | mismatch (c : CredIx)
  | passed (c : Option CredIx) (matched : Bool)
deriving DecidableEq, Repr

/-- Proof checking (R66); `owner` tells whether the request takes OWNER authority (R65). -/
def checkProof (s : State) (b : RequestBlock) (owner : Bool) : ProofCheck :=
  match namedCred b with
  | none => .passed none false
  | some k =>
    match toIndex 8 k with
    | none => .refused .badRequest
    | some c =>
      match s.creds[c].state with
      | .empty => if owner && c = 0 then .passed (some c) false else .refused .denied
      | .disabled => .refused .disabled
      | .exhausted => .refused .exhausted
      | .set =>
        match s.creds[c].verifier with
        | some v => if Config.proofMatches b.proof v then .passed (some c) true else .mismatch c
        | none => .mismatch c

/-- The strike count after a mismatch: it stays at 250 (R67). -/
def nextStrikes (n : Nat) : Nat := if n < 250 then n + 1 else n

/-- The accounting of a mismatch in the tables: a try, a strike and their journal entries (steps 1 to 4 of R67). -/
def countMismatch (s : State) (b : RequestBlock) (c : CredIx) : State :=
  let s := modCred s c (fun x => { x with tries := x.tries - 1 })
  let s := modDev s (fun d => { d with strikes := nextStrikes d.strikes })
  let s := raise s { kind := .unlockDenied, cred := some c, detail := .code b.code }
  if s.creds[c].tries = 0 then
    raise (modCred s c (fun x => { x with state := .exhausted })) { kind := .credExhausted, cred := some c }
  else s

/-- The accounting of a mismatch (R67): the device record is stored, and DENIED follows it. -/
def mismatch (s : State) (b : RequestBlock) (c : CredIx) : State :=
  let s := setAfter (countMismatch s b c) (.respond (refusal .denied))
  if s.dev.policy.strikeLimit ≠ 0 && s.dev.strikes = s.dev.policy.strikeLimit then
    let x := theftTrigger (modDev s (fun d => { d with strikes := 0 })) .strikes
    engine (issueTheft x.1 (theftChain .strikes true { strikes := some 0 } x.2.1 x.2.2))
  else issue s [(.device { strikes := some s.dev.strikes }, .control)]

/-- The accounting of a match in the tables (R68). -/
def countMatch (s : State) (c : CredIx) : State :=
  modCred (modDev s (fun d => { d with strikes := 0 })) c (fun x => { x with tries := x.budget })

/-- Check the proof of the request in service and account for it; go on with the credential, and with whether a device
record write is due, if the check passes (R66 to R68). -/
def withProof (s : State) (b : RequestBlock) (owner : Bool) (go : State → Option CredIx → Bool → State) : State :=
  match checkProof s b owner with
  | .refused st => refuse s false st
  | .mismatch c => mismatch s b c
  | .passed (some c) true => go (countMatch s c) (some c) (s.dev.strikes ≠ 0)
  | .passed c _ => go s c false

/-- A request that needs OWNER authority; `config` tells whether it is refused while frozen (R65, R84). -/
def ownerRequest (s : State) (b : RequestBlock) (config : Bool) (go : State → Bool → State) : State :=
  withProof s b true (fun s c dirty =>
    if c ≠ some 0 then refuse s dirty .notPermitted
    else if config && s.control.frozen then refuse s dirty .frozen
    else go s dirty)

/-- The store writes of a theft wipe have completed: the unit takes its next request, and a RESTART that waited for them goes
on (R115, R174). -/
def afterTheft (s : State) : State :=
  match s.control.service with
  | some v =>
    match v.after with
    | .restart _ => finishService s
    | _ => s
  | none => takeNext s

/-- The request in service whose checks have not begun. While a theft wipe's store writes are outstanding no checks begin
(R174). -/
def atStart (s : State) : Option RequestBlock :=
  match s.control.service with
  | some v => if v.after = .start && !theftOutstanding s then some v.block else none
  | none => none

/-- The request in service whose checks have not begun, parsed. -/
def starting (s : State) : Option (RequestBlock × Request) :=
  match atStart s with
  | some b => (parse b).map (fun r => (b, r))
  | none => none

end Sys2Proof.Machine
end

