-- ==== Sys2Proof/Machine/Requests.lean ====
section
/-! DEFINITION. The meanings of QUERY, RESTART, FREEZE, JOURNAL.READ, JOURNAL.MASK and of a request block that names no
request (chapter 11, R84). A request's command acts when that request is in service and its checks have not begun; else it
is no step (log entries 3, 6). -/

namespace Sys2Proof.Machine

/-- QUERY (R176): it ends the prepared state once its results are taken, or at its refusal (R104). -/
def execQuery (s : State) : Host.Outcome State Fault Refusal :=
  match starting s with
  | some (b, .query) =>
    match checkProof s b false with
    | .passed _ _ => .next (withProof s b false (fun s _ dirty => proceed s dirty [] .query))
    | .refused _ => .next (withProof (endPrepared s) b false (fun s _ _ => s))
    | .mismatch _ => .next (withProof (endPrepared s) b false (fun s _ _ => s))
  | _ => .next s

/-- RESTART (R177). -/
def execRestart (p : StartInputs) (s : State) : Host.Outcome State Fault Refusal :=
  match starting s with
  | some (b, .restart) =>
    .next (ownerRequest (endPrepared s) b false (fun s dirty => proceed s dirty [] (.restart p)))
  | _ => .next s

/-- FREEZE (R84). -/
def execFreeze (s : State) : Host.Outcome State Fault Refusal :=
  match starting s with
  | some (b, .freeze) =>
    .next (withProof (endPrepared s) b false (fun s _ dirty =>
      carried { s with control := { s.control with frozen := true } } dirty .none))
  | _ => .next s

/-- The entries that a JOURNAL.READ returns: up to 16 of the oldest, the first with the gap indication while gap pending is
set (R178, R181). -/
def readEntries (j : Journal) : List (JEntry × Bool) :=
  match j.ring.take 16 with
  | [] => []
  | e :: es => (e, j.gapPending) :: es.map (fun e => (e, false))

/-- The journal after a JOURNAL.READ has taken its entries (R178, R181). R178 clears gap pending on returning the entry that carries
the gap indication, and R181 says only that the entries of a dropped response are lost: gap pending is cleared at the taking,
whether or not the response is dropped (DESIGN CHOICE, log entry 46). -/
def afterRead (j : Journal) : Journal :=
  { j with ring := j.ring.drop 16, gapPending := j.gapPending && j.ring.isEmpty }

/-- JOURNAL.READ (R181). Whether entries remain is taken with the entries: R181 does not say whether an event raised while the
device record write of R68 is in flight counts (DESIGN CHOICE, log entry 46). -/
def execJournalRead (s : State) : Host.Outcome State Fault Refusal :=
  match starting s with
  | some (b, .journalRead) =>
    .next (withProof (endPrepared s) b false (fun s _ dirty =>
      let j := afterRead s.journal
      carried { s with journal := j } dirty (.journal (readEntries s.journal) (!j.ring.isEmpty))))
  | _ => .next s

/-- The mask that a JOURNAL.MASK puts in force: START_UP and THEFT_WIPE stay unmasked (R179), and bits that name no kind
are not kept (log entry 20). -/
def allowedMask (m : Nat) : BitVec 32 := BitVec.ofNat 32 m &&& 0x000FFDFC

/-- JOURNAL.MASK (R179). -/
def execJournalMask (s : State) : Host.Outcome State Fault Refusal :=
  match starting s with
  | some (b, .journalMask m) =>
    .next (withProof (endPrepared s) b false (fun s _ dirty =>
      carried { s with journal := { s.journal with mask := allowedMask m } } dirty (.mask (allowedMask m))))
  | _ => .next s

/-- A request block with an unknown code or short parameters is served and answered BAD_REQUEST, with no proof check and
no accounting (R174). -/
def execUnknownRequest (s : State) : Host.Outcome State Fault Refusal :=
  match atStart s with
  | some b =>
    match parse b with
    | none => .next (respond (endPrepared s) (refusal .badRequest))
    | some _ => .next s
  | none => .next s

end Sys2Proof.Machine
end

