-- ==== Sys2Proof/Machine/Credentials.lean ====
section
/-! DEFINITION. The meanings of UNLOCK, LOCK and the CRED requests (chapter 4). -/

namespace Sys2Proof.Machine

/-- The LOCKED ranges of a set, whose keys an UNLOCK loads (R70, R73). -/
def lockedOf (s : State) (set : List RangeIx) : List RangeIx := set.filter (fun r => s.ranges[r].lock = .locked)

/-- Whether a range of a set is DRAINING or PURGING (step 4 of R70). -/
def anyBusy (s : State) (set : List RangeIx) : Bool :=
  set.any (fun r => s.ranges[r].cond = .draining || s.ranges[r].cond = .purging)

/-- Whether the EMPTY media slots are too few for the keys of some ranges (R53). -/
def lacksSlots (s : State) (set : List RangeIx) : Bool := (emptyMediaSlots s).length < keyNeed s set

/-- The device record write of an UNLOCK: both cleared counts in one, if either was nonzero (R71). -/
def unlockOps (s : State) (dirty : Bool) : List StoreOp :=
  if dirty || s.dev.lockedStarts ≠ 0 then [.device { strikes := some 0, lockedStarts := some 0 }] else []

/-- UNLOCK with a credential, after its proof has matched (R70, R71). -/
def serveUnlock (s : State) (c : CredIx) (dirty : Bool) (l : List Nat) : State :=
  match toRangeSet s l with
  | none => refuse s dirty .badRequest
  | some set =>
    if set.any (fun r => (grantOf s.creds[c] r).isNone) then refuse s dirty .notPermitted
    else if anyBusy s set then refuse s dirty .rangeBusy
    else if lacksSlots s (lockedOf s set) then refuse s dirty .slotsExhausted
    else proceed (holdKeys s (lockedOf s set)) false (unlockOps s dirty) (.unlock c set)

/-- UNLOCK with a credential (R70, R71). -/
def execUnlock (s : State) : Host.Outcome State Fault Refusal :=
  match starting s with
  | some (b, .unlock l) =>
    if (namedCred b).isSome then
      .next (withProof (endPrepared s) b false (fun s c dirty =>
        match c with
        | some c => serveUnlock s c dirty l
        | none => s))
    else .next s
  | _ => .next s

/-- UNLOCK with credential ABSENT (R73). -/
def serveUnlockAbsent (s : State) (l : List Nat) : State :=
  match toRangeSet s l with
  | none => refuse s false .badRequest
  | some set =>
    if set.any (guarded s) then refuse s false .notPermitted
    else if anyBusy s set then refuse s false .rangeBusy
    else if lacksSlots s (lockedOf s set) then refuse s false .slotsExhausted
    else
      let s := unlockAll (holdKeys s (lockedOf s set)) none set (fun _ => .readWrite)
      carried s false (lockStates s set)

/-- UNLOCK with credential ABSENT (R73). -/
def execUnlockAbsent (s : State) : Host.Outcome State Fault Refusal :=
  match starting s with
  | some (b, .unlock l) => if (namedCred b).isNone then .next (serveUnlockAbsent (endPrepared s) l) else .next s
  | _ => .next s

/-- LOCK, after any proof check (R75). -/
def serveLock (s : State) (dirty : Bool) (l : List Nat) : State :=
  match toRangeSet s l with
  | none => refuse s dirty .badRequest
  | some set =>
    if set.any (fun r => !guarded s r) then refuse s dirty .notPermitted
    else
      let s := engine (lockProcedure s set .request)
      carried s dirty (lockStates s set)

/-- LOCK (R75). -/
def execLock (s : State) : Host.Outcome State Fault Refusal :=
  match starting s with
  | some (b, .lock l) => .next (withProof (endPrepared s) b false (fun s _ dirty => serveLock s dirty l))
  | _ => .next s

/-! ## Managing credentials -/

/-- The store write of a credential's record as a change makes it (R77). -/
def credOp (s : State) (c : CredIx) (f : Cred → Cred) : StoreOp := .cred c (credRecord (f s.creds[c]))

/-- Whether the named credential may set the target's verifier (R78). -/
def maySet (s : State) (named target : CredIx) : Bool :=
  named = 0 || (named = target && s.creds[target].state = .set) || (named = 1 && target = 0)

/-- CRED.SET, after its proof check (R78). A target outside 0–7 is refused by the authority step for any credential but
OWNER. -/
def serveCredSet (s : State) (c : Option CredIx) (dirty : Bool) (target verifier : Nat) : State :=
  let allowed := match c with
    | none => false
    | some n => match toIndex 8 target with
      | some t => maySet s n t
      | none => n = 0
  if !allowed then refuse s dirty .notPermitted
  else if s.control.frozen then refuse s dirty .frozen
  else
    match toIndex 8 target with
    | none => refuse s dirty .badRequest
    | some t =>
      let v := BitVec.ofNat 256 verifier
      proceed s dirty [credOp s t (credSetTo v)] (.credSet t v)

/-- CRED.SET (R78). Whether an EMPTY credential 0 is named is settled by R65. -/
def execCredSet (s : State) : Host.Outcome State Fault Refusal :=
  match starting s with
  | some (b, .credSet t v) =>
    .next (withProof (endPrepared s) b true (fun s c dirty => serveCredSet s c dirty t v))
  | _ => .next s

/-- The LOCKED ranges, not DRAINING, that lose their last guard when a credential's grants to some ranges go (R33, R79). -/
def openedByLoss (s : State) (c : CredIx) (ranges : List RangeIx) : List RangeIx :=
  ranges.filter (fun r =>
    s.ranges[r].active && guards s.creds[c] r && !guardedWithout s c r && s.ranges[r].cond ≠ .draining &&
      s.ranges[r].lock = .locked)

/-- CRED.CLEAR (R79). -/
def serveCredClear (s : State) (dirty : Bool) (target : Nat) : State :=
  match toIndex 8 target with
  | none => refuse s dirty .badRequest
  | some t =>
    let need := openedByLoss s t (s.creds[t].grants.map (·.range))
    if lacksSlots s need then refuse s dirty .slotsExhausted
    else proceed (holdKeys s need) dirty [credOp s t credCleared] (.credClear t)

/-- CRED.CLEAR (R79). -/
def execCredClear (s : State) : Host.Outcome State Fault Refusal :=
  match starting s with
  | some (b, .credClear t) =>
    .next (ownerRequest (endPrepared s) b true (fun s dirty => serveCredClear s dirty t))
  | _ => .next s

/-- The legal targets of CRED.DISABLE and CRED.ENABLE: not 0 and not EMPTY (R80). -/
def toTarget (s : State) (target : Nat) : Option CredIx :=
  match toIndex 8 target with
  | some t => if t = 0 || s.creds[t].state = .empty then none else some t
  | none => none

/-- CRED.DISABLE (R80). -/
def execCredDisable (s : State) : Host.Outcome State Fault Refusal :=
  match starting s with
  | some (b, .credDisable t) =>
    .next (ownerRequest (endPrepared s) b true (fun s dirty =>
      match toTarget s t with
      | none => refuse s dirty .badRequest
      | some t => proceed s dirty [credOp s t credDisabled] (.credDisable t)))
  | _ => .next s

/-- CRED.ENABLE (R80). -/
def execCredEnable (s : State) : Host.Outcome State Fault Refusal :=
  match starting s with
  | some (b, .credEnable t) =>
    .next (ownerRequest (endPrepared s) b true (fun s dirty =>
      match toTarget s t with
      | none => refuse s dirty .badRequest
      | some t => proceed s dirty [credOp s t credEnabled] (.credEnable t)))
  | _ => .next s

/-- CRED.GRANT (R81). -/
def serveCredGrant (s : State) (dirty : Bool) (target range access : Nat) : State :=
  match toIndex 8 target, toIndex 16 range, toAccess access with
  | some t, some r, some a =>
    if s.creds[t].state = .empty || !s.ranges[r].active then refuse s dirty .badRequest
    else if t = 1 && s.ranges[r].flags.recoveryBarred then refuse s dirty .notPermitted
    else proceed s dirty [credOp s t (fun x => { x with grants := withGrant x.grants r a })] (.credGrant t r a)
  | _, _, _ => refuse s dirty .badRequest

/-- CRED.GRANT (R81). -/
def execCredGrant (s : State) : Host.Outcome State Fault Refusal :=
  match starting s with
  | some (b, .credGrant t r a) =>
    .next (ownerRequest (endPrepared s) b true (fun s dirty => serveCredGrant s dirty t r a))
  | _ => .next s

/-- CRED.REVOKE (R82). -/
def serveCredRevoke (s : State) (dirty : Bool) (target range : Nat) : State :=
  match toIndex 8 target, toIndex 16 range with
  | some t, some r =>
    if (grantOf s.creds[t] r).isNone then refuse s dirty .badRequest
    else
      let need := openedByLoss s t [r]
      if lacksSlots s need then refuse s dirty .slotsExhausted
      else
        proceed (holdKeys s need) dirty [credOp s t (fun x => { x with grants := withoutGrant x.grants r })]
          (.credRevoke t r)
  | _, _ => refuse s dirty .badRequest

/-- CRED.REVOKE (R82). -/
def execCredRevoke (s : State) : Host.Outcome State Fault Refusal :=
  match starting s with
  | some (b, .credRevoke t r) =>
    .next (ownerRequest (endPrepared s) b true (fun s dirty => serveCredRevoke s dirty t r))
  | _ => .next s

/-- CRED.BUDGET (R83). -/
def serveCredBudget (s : State) (dirty : Bool) (target budget : Nat) : State :=
  match toIndex 8 target with
  | some t =>
    if 1 ≤ budget && budget ≤ 15 then proceed s dirty [credOp s t (credBudgetTo budget)] (.credBudget t budget)
    else refuse s dirty .badRequest
  | none => refuse s dirty .badRequest

/-- CRED.BUDGET (R83). -/
def execCredBudget (s : State) : Host.Outcome State Fault Refusal :=
  match starting s with
  | some (b, .credBudget t n) =>
    .next (ownerRequest (endPrepared s) b true (fun s dirty => serveCredBudget s dirty t n))
  | _ => .next s

end Sys2Proof.Machine
end

