-- ==== Sys2Proof/Machine/RangeRequests.lean ====
section
/-! DEFINITION. The meanings of RANGE.DEFINE, RANGE.DELETE, RANGE.FLAGS and RANGE.REKEY (chapter 2, R140, R141). -/

namespace Sys2Proof.Machine

/-- The ranges that the LBAs of a span resolve to (R31). -/
def rangesOfSpan (s : State) (lo hi : Nat) : List RangeIx :=
  (cutSpan lo hi (runBoundaries s lo hi)).map (fun x => resolve s x.start)

/-- The legal index of an entry 1–15. -/
def toDefined (n : Nat) : Option RangeIx :=
  match toIndex 16 n with
  | some r => if r = 0 then none else some r
  | none => none

/-- RANGE.DEFINE (R40 to R42). -/
def serveRangeDefine (s : State) (dirty : Bool) (range start len flags : Nat) : State :=
  match toDefined range with
  | none => refuse s dirty .badRequest
  | some r =>
    if start % 8 ≠ 0 || len % 8 ≠ 0 || len < 8 || s.regions.u < start + len then refuse s dirty .badRequest
    else if s.ranges[r].active || (rangesOfSpan s start (start + len)).any (fun q => s.ranges[q].cond ≠ .steady) then
      refuse s dirty .rangeBusy
    else if (emptyMediaSlots s).isEmpty then refuse s dirty .slotsExhausted
    else
      let gen := s.store.ranges[r].gen + 1
      let k := takeKey s
      let s := (placeKey k.2 r gen .current (some k.1) true).2
      proceed s dirty [.rangeDefine r start len (toFlags flags) gen k.1] (.rangeDefine r start len (toFlags flags) gen)

/-- RANGE.DEFINE (R42). -/
def execRangeDefine (s : State) : Host.Outcome State Fault Refusal :=
  match starting s with
  | some (b, .rangeDefine r start len flags) =>
    .next (ownerRequest (endPrepared s) b true (fun s dirty => serveRangeDefine s dirty r start len flags))
  | _ => .next s

/-- The records of the credentials that hold a grant to a range, without it, in index order (step 1 of R43). -/
def grantOps (s : State) (r : RangeIx) : List StoreOp :=
  (allCreds.filter (fun c => (grantOf s.creds[c] r).isSome)).map
    (fun c => credOp s c (fun x => { x with grants := withoutGrant x.grants r }))

/-- RANGE.DELETE (R40, R43). -/
def serveRangeDelete (s : State) (dirty : Bool) (range : Nat) : State :=
  match toDefined range with
  | none => refuse s dirty .badRequest
  | some r =>
    if !s.ranges[r].active then refuse s dirty .badRequest
    else if s.ranges[r].cond ≠ .steady then refuse s dirty .rangeBusy
    else
      let dmg := if s.damaged.any (fun d => d.range = r) then [StoreOp.damagedRange r] else []
      proceed s dirty (grantOps s r ++ dmg ++ [.rangeFree r]) (.rangeDelete r)

/-- RANGE.DELETE (R43). -/
def execRangeDelete (s : State) : Host.Outcome State Fault Refusal :=
  match starting s with
  | some (b, .rangeDelete r) =>
    .next (ownerRequest (endPrepared s) b true (fun s dirty => serveRangeDelete s dirty r))
  | _ => .next s

/-- RANGE.FLAGS (R40, R44). -/
def serveRangeFlags (s : State) (dirty : Bool) (range flags : Nat) : State :=
  match toIndex 16 range with
  | none => refuse s dirty .badRequest
  | some r =>
    let f := toFlags flags
    let bar := f.recoveryBarred && (grantOf s.creds[(1 : CredIx)] r).isSome
    let need := if bar then openedByLoss s 1 [r] else []
    if !s.ranges[r].active then refuse s dirty .badRequest
    else if lacksSlots s need then refuse s dirty .slotsExhausted
    else
      let ops := if bar then [credOp s 1 (fun x => { x with grants := withoutGrant x.grants r })] else []
      proceed (holdKeys s need) dirty (ops ++ [.rangeFlags r f]) (.rangeFlags r f bar)

/-- RANGE.FLAGS (R44). -/
def execRangeFlags (s : State) : Host.Outcome State Fault Refusal :=
  match starting s with
  | some (b, .rangeFlags r flags) =>
    .next (ownerRequest (endPrepared s) b true (fun s dirty => serveRangeFlags s dirty r flags))
  | _ => .next s

/-- The legal parameters of RANGE.REKEY after its index (step 4 of R140). -/
def toRekey (level policy chunkSize : Nat) : Option LanePolicy :=
  match toPolicy policy with
  | some p =>
    if 1 ≤ level && level ≤ 3 && [8, 16, 32, 64].contains chunkSize && (p = .yielding || level = 1) then some p else none
  | none => none

/-- Whether the named credential may re-key a range: OWNER, or a READ_WRITE grant to it (step 2 of R140). -/
def mayRekey (s : State) (c : Option CredIx) (range : Nat) : Bool :=
  match c with
  | none => false
  | some c => c = 0 || match toIndex 16 range with
    | some r => grantOf s.creds[c] r = some .readWrite
    | none => false

/-- RANGE.REKEY from its job entry check (steps 6 and 7 of R140, R141). -/
def takeRekey (s : State) (dirty : Bool) (r : RangeIx) (level : Nat) (p : LanePolicy) (chunkSize : Nat) : State :=
  match freeEntry s with
  | none => refuse s dirty .tableFull
  | some j =>
    let s := setJob s j .reserved
    if (emptyMediaSlots s).isEmpty then refuse (engine (setJob s j .free)) dirty .slotsExhausted
    else
      let k := takeKey s
      let s := (placeKey k.2 r s.ranges[r].gen .next (some k.1) true).2
      proceed s dirty [.rangeMigrate r ⟨k.1, rangeStart s r, level, p, chunkSize, none⟩] (.rangeRekey r j level p chunkSize)

/-- RANGE.REKEY, after its proof check (R140). -/
def serveRangeRekey (s : State) (c : Option CredIx) (dirty : Bool) (range level policy chunkSize : Nat) : State :=
  if !mayRekey s c range then refuse s dirty .notPermitted
  else if s.control.frozen then refuse s dirty .frozen
  else
    match toIndex 16 range, toRekey level policy chunkSize with
    | some r, some p =>
      if !s.ranges[r].active then refuse s dirty .badRequest
      else if s.ranges[r].lock ≠ .opened || s.ranges[r].cond ≠ .steady then refuse s dirty .rangeBusy
      else takeRekey s dirty r level p chunkSize
    | _, _ => refuse s dirty .badRequest

/-- RANGE.REKEY (R141). -/
def execRangeRekey (s : State) : Host.Outcome State Fault Refusal :=
  match starting s with
  | some (b, .rangeRekey r level policy chunkSize) =>
    .next (withProof (endPrepared s) b true (fun s c dirty => serveRangeRekey s c dirty r level policy chunkSize))
  | _ => .next s

end Sys2Proof.Machine
end

