-- ==== Sys2Proof/Machine/RegionRequests.lean ====
section
/-! DEFINITION. The meanings of CEILING.SET, RESERVE.OPEN, RESERVE.CLOSE and PBW.SET (chapter 5). -/

namespace Sys2Proof.Machine

/-- CEILING.SET (R90, R91). -/
def serveCeiling (s : State) (dirty : Bool) (value mode : Nat) : State :=
  if value < 1 || s.regions.u < value then refuse s dirty .badRequest
  else
    match mode with
    | 0 => proceed s dirty [] (.ceiling value false)
    | 1 =>
      if s.regions.persistentWritten then refuse s dirty .alreadySet
      else proceed s dirty [.device { ceiling := some value }] (.ceiling value true)
    | _ => refuse s dirty .badRequest

/-- CEILING.SET (R91). -/
def execCeilingSet (s : State) : Host.Outcome State Fault Refusal :=
  match starting s with
  | some (b, .ceilingSet v m) =>
    .next (ownerRequest (endPrepared s) b true (fun s dirty => serveCeiling s dirty v m))
  | _ => .next s

/-- Whether a credential holds a grant to some ACTIVE entry 1–15 that lies wholly within [C, U) (R94). -/
def grantInReserve (s : State) (c : CredIx) : Bool :=
  definedRanges.any (fun r =>
    s.ranges[r].active && (grantOf s.creds[c] r).isSome && s.regions.c ≤ s.ranges[r].start &&
      s.ranges[r].start + s.ranges[r].len ≤ s.regions.u)

/-- Whether the named credential may open the reserve view (R94). -/
def mayOpenReserve (s : State) (c : Option CredIx) : Bool :=
  match c with
  | none => false
  | some c => c = 0 || c = 1 || grantInReserve s c

/-- RESERVE.OPEN, after its proof check (R94): while the sleep request line is high the view stays closed. The response
reports the view as it stands when it is returned. -/
def serveReserveOpen (s : State) (c : Option CredIx) (dirty : Bool) : State :=
  if !mayOpenReserve s c then refuse s dirty .notPermitted
  else
    proceed { s with regions := { s.regions with reserveView := !s.sleepLine } } dirty [] .reserve

/-- RESERVE.OPEN (R94). -/
def execReserveOpen (s : State) : Host.Outcome State Fault Refusal :=
  match starting s with
  | some (b, .reserveOpen) => .next (withProof (endPrepared s) b true serveReserveOpen)
  | _ => .next s

/-- RESERVE.CLOSE (R95). -/
def execReserveClose (s : State) : Host.Outcome State Fault Refusal :=
  match starting s with
  | some (b, .reserveClose) =>
    .next (ownerRequest (endPrepared s) b false (fun s dirty =>
      carried { s with regions := { s.regions with reserveView := false } } dirty .none))
  | _ => .next s

/-- PBW.SET (R100). -/
def servePbw (s : State) (dirty : Bool) (len enabled writeOpen : Nat) : State :=
  match toYesNo enabled, toYesNo writeOpen with
  | some e, some w =>
    if 32768 < len || len % 8 ≠ 0 then refuse s dirty .badRequest
    else proceed s dirty [.device { pbw := some (len, e) }] (.pbw len e w)
  | _, _ => refuse s dirty .badRequest

/-- PBW.SET (R100). -/
def execPbwSet (s : State) : Host.Outcome State Fault Refusal :=
  match starting s with
  | some (b, .pbwSet len e w) =>
    .next (ownerRequest (endPrepared s) b true (fun s dirty => servePbw s dirty len e w))
  | _ => .next s

end Sys2Proof.Machine
end

