-- ==== Sys2Proof/Machine/WipeRequests.lean ====
section
/-! DEFINITION. The meanings of WIPE.PREPARE and WIPE.COMMIT (chapter 6). -/

namespace Sys2Proof.Machine

/-- The numbers of the set that a WIPE.PREPARE names, ALL taken as every ACTIVE entry (R103). -/
def preparedNumbers (s : State) : Option (List Nat) → List Nat
  | some l => l
  | none => (allRanges.filter (fun r => s.ranges[r].active)).map (·.val)

/-- Whether the named credential may prepare a wipe of the set (step 2 of R103). -/
def mayPrepare (s : State) (c : Option CredIx) (l : List Nat) : Bool :=
  match c with
  | none => false
  | some c =>
    c = 0 || c = 1 || l.all (fun n => match toIndex 16 n with
      | some r => grantOf s.creds[c] r = some .readWrite
      | none => false)

/-- The purge option of a WIPE.PREPARE, if it is legal: level 0 for none, else 1–3 with a pattern; its jobs are YIELD
(R103, R107, R184). -/
def toPurgeOption (level pattern : Nat) : Option (Option PurgeOpt) :=
  if level = 0 then some none
  else if level ≤ 3 then (toPattern pattern).map (fun p => some ⟨level, .yielding, p⟩)
  else none

/-- The next ticket: nonzero and different from the last (R104; log entry 11). -/
def nextTicket (s : State) : BitVec 16 :=
  let t := Config.freeTicket s.fresh
  if t ≠ 0 && t ≠ s.control.lastTicket then t else if s.control.lastTicket = 1 then 2 else 1

/-- Record the prepared state (R104). -/
def recordPrepared (s : State) (c : CredIx) (set : List RangeIx) (purge : Option PurgeOpt) : State :=
  let t := nextTicket s
  { s with fresh := s.fresh + 1, control := { s.control with prepared := some ⟨t, c, set, purge⟩, lastTicket := t } }

/-- WIPE.PREPARE, after its proof check (R103). -/
def servePrepare (s : State) (c : Option CredIx) (dirty : Bool) (level pattern : Nat) (set : Option (List Nat)) : State :=
  let l := preparedNumbers s set
  if !mayPrepare s c l then refuse s dirty .notPermitted
  else if s.control.frozen then refuse s dirty .frozen
  else
    match toRangeSet s l, toPurgeOption level pattern, c with
    | some set, some purge, some c =>
      if set.any (fun r => s.ranges[r].cond = .draining) then refuse s dirty .rangeBusy
      else
        let set := allRanges.filter set.contains
        let s := recordPrepared s c set purge
        carried s dirty (.prepared s.control.lastTicket set)
    | _, _, _ => refuse s dirty .badRequest

/-- WIPE.PREPARE (R103). -/
def execWipePrepare (s : State) : Host.Outcome State Fault Refusal :=
  match starting s with
  | some (b, .wipePrepare level pattern set) =>
    .next (withProof (endPrepared s) b true (fun s c dirty => servePrepare s c dirty level pattern set))
  | _ => .next s

/-- WIPE.COMMIT, after its proof check: the ticket check (step 2 of R105); its condition and room checks follow the
device record write of R68 (log entry 12). The prepared state ends here. -/
def serveCommit (prepared : Option Prepared) (s : State) (c : Option CredIx) (dirty : Bool) (ticket : Nat) : State :=
  match prepared with
  | some p =>
    if ticket = 0 || p.ticket.toNat ≠ ticket || c ≠ some p.cred then refuse s dirty .noTicket
    else proceed s dirty [] (.commitCheck p.set p.purge)
  | none => refuse s dirty .noTicket

/-- WIPE.COMMIT (R105, R107). -/
def execWipeCommit (s : State) : Host.Outcome State Fault Refusal :=
  match starting s with
  | some (b, .wipeCommit t) =>
    .next (withProof (endPrepared s) b true (fun s' c dirty => serveCommit s.control.prepared s' c dirty t))
  | _ => .next s

end Sys2Proof.Machine
end

