-- ==== Sys2Proof/Machine/SweepRequests.lean ====
section
/-! DEFINITION. The meanings of SWEEP.STATUS, SWEEP.PAUSE, SWEEP.RESUME and SWEEP.CANCEL (R131 to R135), and of THEFT.SET
(R165, R166) and POWER.SET (R173). -/

namespace Sys2Proof.Machine

/-! ## SWEEP.STATUS -/

/-- The remaining count of a job (R132). -/
def remainingOf (s : State) (b : Job) : Nat :=
  match unfinished b with
  | [] => 0
  | r :: rest => (clippedEnd s r - b.lba) + (rest.map (fun (q : RangeIx) => if q = 0 then s.regions.u else s.ranges[q].len)).sum

/-- The range index of a job's cursor; the last of its list once the job has finished it. R132 names no index for a CANCELLED PURGE
whose list RANGE.DELETE has emptied: it is 0 (DESIGN CHOICE, log entry 41). -/
def cursorIndex (b : Job) : RangeIx := ((cursorRange b) <|> b.ranges.getLast?).getD 0

/-- The report of a job (R132). -/
def jobReport (s : State) (b : Job) : JobReport :=
  { kind := b.kind, level := b.level, policy := b.policy, ranges := b.ranges, chunkSize := b.chunkSize
    pattern := b.pattern, state := b.state, pause := b.pause, stall := b.stall, pending := b.pending
    waits := b.state = .queued && waitsOnDrain s b, cursorR := cursorIndex b, cursorLba := b.lba
    remaining := remainingOf s b }

/-- The results of SWEEP.STATUS (R132). -/
def sweepReport (s : State) : Results :=
  .sweep (allJobs.map (fun j => (jobAt s j).map (jobReport s))) s.sweep.stack

/-- Every finished entry becomes FREE (R132). -/
def freeFinished (s : State) (j : JobNo) : State :=
  match jobAt s j with
  | some b => if finished b then setJob s j .free else s
  | none => s

/-- Free the finished entries after the results are taken (R132); jobs of unscheduled ranges may take them (R137). -/
def freeReported (s : State) : State :=
  if allJobs.any (fun j => match jobAt s j with | some b => finished b | none => false) then
    engine (allJobs.foldl freeFinished s)
  else s

/-- SWEEP.STATUS (R132). -/
def execSweepStatus (s : State) : Host.Outcome State Fault Refusal :=
  match starting s with
  | some (b, .sweepStatus) =>
    .next (withProof (endPrepared s) b false (fun s _ dirty =>
      carried (freeReported s) dirty (sweepReport s)))
  | _ => .next s

/-! ## SWEEP.PAUSE, SWEEP.RESUME, SWEEP.CANCEL -/

/-- The live job that a request names (step 3 of R131). -/
def toLiveJob (s : State) (n : Nat) : Option (JobNo × Job) :=
  match toIndex 6 n with
  | some j =>
    match jobAt s j with
    | some b => if finished b then none else some (j, b)
    | none => none
  | none => none

/-- The results of these requests: the job's state, pause cause and pending action (R131). -/
def jobResults (s : State) (j : JobNo) : Results :=
  match jobAt s j with
  | some b => .jobState b.state b.pause b.pending
  | none => .none

/-- SWEEP.PAUSE on a job, by its state (R133). -/
def pauseByRequest (s : State) (j : JobNo) (b : Job) : State :=
  match b.state with
  | .running =>
    if hasChunk s j then
      setJob s j (.job { b with pending := if b.pending = .cancel then .cancel else .pause })
    else engine (pauseJob s j .request)
  | .queued => engine (pauseJob s j .request)
  | .preempted => engine (pauseJob s j .request)
  | .paused => setJob s j (.job { b with pause := some .request })
  | .stalled => s
  | .done => s
  | .cancelled => s
  | .failed => s

/-- SWEEP.PAUSE (R131, R133). -/
def execSweepPause (s : State) : Host.Outcome State Fault Refusal :=
  match starting s with
  | some (b, .sweepPause n) =>
    .next (ownerRequest (endPrepared s) b false (fun s dirty =>
      match toLiveJob s n with
      | none => refuse s dirty .badRequest
      | some x =>
        if x.2.level = 0 then refuse s dirty .notPermitted
        else
          let s := pauseByRequest s x.1 x.2
          carried s dirty (jobResults s x.1)))
  | _ => .next s

/-- SWEEP.RESUME on a job, by its state (R134). -/
def resumeByRequest (s : State) (j : JobNo) (b : Job) : State :=
  match b.state with
  | .paused => if b.pause = some .request then engine (returnJob s j) else s
  | .stalled => engine (returnJob s j)
  | .running =>
    if b.pending = .pause then setJob s j (.job { b with pending := .noAction }) else s
  | .queued => s
  | .preempted => s
  | .done => s
  | .cancelled => s
  | .failed => s

/-- SWEEP.RESUME (R131, R134). -/
def execSweepResume (s : State) : Host.Outcome State Fault Refusal :=
  match starting s with
  | some (b, .sweepResume n) =>
    .next (ownerRequest (endPrepared s) b false (fun s dirty =>
      match toLiveJob s n with
      | none => refuse s dirty .badRequest
      | some x =>
        if x.2.level = 0 && x.2.state ≠ .stalled then refuse s dirty .notPermitted
        else
          let s := resumeByRequest s x.1 x.2
          carried s dirty (jobResults s x.1)))
  | _ => .next s

/-- SWEEP.CANCEL on a PURGE job, by its state (R135): the state, the writes its response waits for, and its results. -/
def cancelByRequest (s : State) (j : JobNo) (b : Job) : State × List StoreOp × Results :=
  if hasChunk s j then (setJob s j (.job { b with pending := .cancel }), [], .jobState b.state b.pause .cancel)
  else
    let x := finishJob s j .cancelled []
    (engine (raiseAll x.1 (cancelEvents b j)), x.2.ops, .jobState .cancelled none .noAction)

/-- SWEEP.CANCEL (R131, R135). -/
def execSweepCancel (s : State) : Host.Outcome State Fault Refusal :=
  match starting s with
  | some (b, .sweepCancel n) =>
    .next (ownerRequest (endPrepared s) b false (fun s dirty =>
      match toLiveJob s n with
      | none => refuse s dirty .badRequest
      | some x =>
        if x.2.kind = .rekey then refuse s dirty .notCancellable
        else if x.2.level = 0 then refuse s dirty .notPermitted
        else
          let y := cancelByRequest s x.1 x.2
          respondAfter y.1 (dueOps dirty ++ y.2.1) ⟨.done, y.2.2⟩))
  | _ => .next s

/-! ## THEFT.SET and POWER.SET -/

/-- THEFT.SET (R165, R166). -/
def serveTheft (s : State) (dirty : Bool) (limit threshold purge : Nat) (lines : List Nat) (minutes ack : Nat) : State :=
  match toTheftPolicy limit threshold purge lines minutes, toYesNo ack with
  | some p, some a =>
    let cs : Bool := p.strikeLimit ≠ s.dev.policy.strikeLimit
    let cl : Bool := p.threshold ≠ s.dev.policy.threshold
    let patch : DevPatch :=
      { policy := some p, strikes := if cs then some 0 else none, lockedStarts := if cl then some 0 else none
        lastCause := if a then some .none else none }
    proceed s dirty [.device patch] (.theft p cs cl a)
  | _, _ => refuse s dirty .badRequest

/-- THEFT.SET (R166). -/
def execTheftSet (s : State) : Host.Outcome State Fault Refusal :=
  match starting s with
  | some (b, .theftSet limit threshold purge lines minutes ack) =>
    .next (ownerRequest (endPrepared s) b true (fun s dirty =>
      serveTheft s dirty limit threshold purge lines minutes ack))
  | _ => .next s

/-- POWER.SET (R173). -/
def servePower (s : State) (dirty : Bool) (idle doze : Nat) : State :=
  if idle ≤ 255 && doze ≤ 255 then proceed s dirty [.device { intervals := some (idle, doze) }] (.power idle doze)
  else refuse s dirty .badRequest

/-- POWER.SET (R173). -/
def execPowerSet (s : State) : Host.Outcome State Fault Refusal :=
  match starting s with
  | some (b, .powerSet idle doze) =>
    .next (ownerRequest (endPrepared s) b true (fun s dirty => servePower s dirty idle doze))
  | _ => .next s

end Sys2Proof.Machine
end

