-- ==== Sys2Proof/Machine/Traffic.lean ====
section
/-! DEFINITION. The meanings of the front port's, the media port's and the lanes' commands (chapter 1). -/

namespace Sys2Proof.Machine

/-! ## FRONT_TRANSACTION -/

/-- The class of a class code (R184). -/
def classOf (n : Byte) : Option FrontClass :=
  match n.toNat with
  | 0 => some .read
  | 1 => some .write
  | 2 => some .trim
  | 3 => some .flush
  | 4 => some .control
  | _ => none

/-- Whether a class has a span (R1). -/
def hasSpan : FrontClass → Bool
  | .read => true
  | .write => true
  | .trim => true
  | .flush => false
  | .control => false

/-- The arrival checks (R2, R185): the class of a descriptor that passes them. -/
def arrivalClass (s : State) (d : Descriptor) : Option FrontClass :=
  match classOf d.cls with
  | some c =>
    if s.front.tags[d.tag].isSome then none
    else if hasSpan c && (d.count.toNat < 1 || 65536 < d.count.toNat || 2 ^ 40 < d.start.toNat + d.count.toNat) then none
    else some c
  | none => none

/-- A transaction joins the waiting transactions (R3). -/
def joinWaiting (s : State) (t : FrontTag) : State :=
  { s with front := { s.front with waiting := s.front.waiting ++ [t] } }

/-- A front arrival that took its tag resets the idle-relock timer and the step timer (R164, R168). -/
def resetTimers (s : State) : State :=
  { s with theft := { s.theft with elapsed := 0, expired := false }, power := { s.power with stepTimer := 0 } }

/-- What becomes of a transaction that has taken its tag, by the power state (R3, R168, R169). R3, R168 and R180 give the
POWER_STEP of an arrival in IDLE and the arrival's admission no order: POWER_STEP is journaled first, so that a completion sent in
the same event carries ATTENTION for it where it is unmasked (DESIGN CHOICE, log entry 46). -/
def passOn (s : State) (t : FrontTag) : State :=
  if s.sleepLine then complete s t .retry [] none
  else if s.startUp.isSome then joinWaiting s t
  else
    match s.power.op, s.power.state with
    | .noOp, .active => admitTxn s t
    | .noOp, .idle => admitTxn (engine (enterPower s .active)) t
    | .noOp, .doze => joinWaiting { s with power := { s.power with op := .wakeDoze, opTimer := 0 } } t
    | .noOp, .sleep => joinWaiting s t
    | .wakeDoze, _ => joinWaiting s t
    | .wakeSleep, _ => joinWaiting s t
    | .sleepEntry, _ => complete s t .retry [] none

/-- FRONT_TRANSACTION (R2, R3). -/
def execFrontTransaction (d : Descriptor) (s : State) : Host.Outcome State Fault Refusal :=
  if !s.powered then .next s
  else
    match arrivalClass s d with
    | none => .next (send s d.tag .malformed [] none)
    | some c =>
      let s := setTxn s d.tag (some ⟨c, d.start.toNat, d.count.toNat, d.block, .waiting⟩)
      .next (passOn (resetTimers s) d.tag)

/-! ## LINK_RESET -/

/-- What a link reset makes of one admitted segment of an aborted transaction (R24). -/
def orphanSeg (s : State) (g : Segment) : State :=
  match g.state with
  | .laneWait => retire { s with arb := { s.arb with wait := s.arb.wait.filter (· ≠ g.id) } } g.id .aborted []
  | .tagWait =>
    retire { s with media := { s.media with waiting := s.media.waiting.filter (fun q => q.who ≠ .seg g.id) } } g.id .aborted []
  | .retired => setSegs s (s.front.segs.filter (fun x => x.id ≠ g.id))
  | .inLane => s
  | .onMedia => s

/-- A media FLUSH request of an aborted FLUSH: issued, it runs to a completion that is discarded (R23). -/
def discardFlush (x : TagState) : TagState :=
  match x with
  | .busy q age =>
    match q.who with
    | .flush _ => .busy { q with who := .discard } age
    | .seg _ => x
    | .sweep _ => x
    | .recovery _ _ _ => x
    | .discard => x
  | .free => x
  | .quarantined => x

/-- Whether a waiting request is the media FLUSH of a FLUSH transaction. -/
def isFlushReq (q : MediaReq) : Bool :=
  match q.who with
  | .flush _ => true
  | .seg _ => false
  | .sweep _ => false
  | .recovery _ _ _ => false
  | .discard => false

/-- The request in service after a link reset: its response is dropped (R24), and a RESERVE.OPEN whose checks have not
begun ends (R94). R24 speaks of the store writes of a request in service and of nothing else it does: any other request whose
checks have not begun stays in service and is served by its row after the reset, so that a WIPE.PREPARE then records a prepared
state (DESIGN CHOICE, log entry 6). -/
def resetService (v : Service) : Option Service :=
  if v.after = .start && parse v.block = some .reserveOpen then none else some { v with tag := none }

/-- LINK_RESET (R24). R23 lets the media FLUSH of an aborted FLUSH run if it was issued; one that still waits for a media
tag leaves the list, as a segment in TAG_WAIT does (DESIGN CHOICE, log entry 46). -/
def linkReset (s : State) : State :=
  let s := abortAll s none
  let segs := s.front.segs.filter (fun g => g.owner.isSome)
  let s := setSegs s (s.front.segs.map (fun g => { g with owner := none }))
  let s := segs.foldl orphanSeg s
  { s with
    media := ⟨vmap discardFlush s.media.tags, s.media.waiting.filter (fun q => !isFlushReq q)⟩
    control := { s.control with service := s.control.service.bind resetService, prepared := none }
    regions := { s.regions with reserveView := false, writeOpen := false } }

/-- LINK_RESET (R24). -/
def execLinkReset (s : State) : Host.Outcome State Fault Refusal :=
  if s.powered then .next (linkReset s) else .next s

/-! ## Media port -/

/-- Act for the request of a tag that is answered (R20, R21). -/
def actFor (s : State) (q : MediaReq) (a : Answer) : State :=
  match q.who with
  | .seg id =>
    match segOf s id, a with
    | some g, .ok data =>
      if g.cls = .read && g.owner.isSome then
        let s := modSeg s id (fun g => { g with state := .laneWait, data := data })
        { s with arb := { s.arb with wait := s.arb.wait ++ [id] } }
      else retire s id .ok []
    | some _, .error => retire s id .mediaError []
    | some _, .timeout => retire s id .linkTimeout []
    | none, _ => s
  | .flush t =>
    match a with
    | .ok _ => complete s t .ok [] none
    | .error => complete s t .mediaError [] none
    | .timeout => complete s t .linkTimeout [] none
  | .sweep x =>
    match s.sweep.chunk with
    | some c => chunkAnswer s c x a
    | none => s
  | .recovery run write again =>
    match s.startUp.bind (·.recovery) with
    | some v => startUpGoesOn (recoveryAnswer s v run write again q.data a)
    | none => s
  | .discard => s

/-- The answer that a media result is. -/
def answerOf : MediaResult → Answer
  | .ok data => .ok data
  | .error => .error

/-- MEDIA_COMPLETION (R20); on a QUARANTINED tag it is late (R21). -/
def execMediaCompletion (t : MediaTag) (res : MediaResult) (s : State) : Host.Outcome State Fault Refusal :=
  match s.media.tags[t] with
  | .free => .fault .completionWithoutRequest
  | .quarantined => .next (setTag s t .free)
  | .busy q _ => .next (actFor (setTag s t .free) q (answerOf res))

/-- LATE_COMPLETION (R21): it frees the QUARANTINED tag and is otherwise discarded. -/
def execLateCompletion (t : MediaTag) (s : State) : Host.Outcome State Fault Refusal :=
  match s.media.tags[t] with
  | .free => .fault .completionWithoutRequest
  | .quarantined => .next (setTag s t .free)
  | .busy _ _ => .next s

/-- The range of a segment of a range, and the job of a sweep request, for MEDIA_TIMEOUT (R21). -/
def timeoutEvent (s : State) (t : MediaTag) (q : MediaReq) : Event :=
  match q.who with
  | .seg id =>
    { kind := .mediaTimeout, detail := .mediaTag t
      range := match segOf s id with
        | some g => match g.place with | .range r => some r | .preboot => none
        | none => none }
  | .sweep _ => { kind := .mediaTimeout, detail := .mediaTag t, job := s.sweep.chunk.map (·.job) }
  | .flush _ => { kind := .mediaTimeout, detail := .mediaTag t }
  | .recovery _ _ _ => { kind := .mediaTimeout, detail := .mediaTag t }
  | .discard => { kind := .mediaTimeout, detail := .mediaTag t }

/-- MEDIA_TIMEOUT (R21): 2000 ms after the issue. R21 gives the effects of the event no order: the entry is journaled
before the request is acted for, so a LINK_TIMEOUT completion carries ATTENTION for it (DESIGN CHOICE, log entry 46). -/
def execMediaTimeout (t : MediaTag) (s : State) : Host.Outcome State Fault Refusal :=
  match s.media.tags[t] with
  | .busy q age =>
    if 2000000 ≤ age then
      .next (actFor (raise (setTag s t .quarantined) (timeoutEvent s t q)) q .timeout)
    else .next s
  | .free => .next s
  | .quarantined => .next s

/-- Whether a media request is the sweep engine's. -/
def isSweep (q : MediaReq) : Bool :=
  match q.who with
  | .sweep _ => true
  | .seg _ => false
  | .flush _ => false
  | .recovery _ _ _ => false
  | .discard => false

/-- How many BUSY tags the sweep engine holds (R19). -/
def sweepBusy (s : State) : Nat :=
  (s.media.tags.toList.filter (fun x => match x with
    | .busy q _ => isSweep q
    | .free => false
    | .quarantined => false)).length

/-- Take the first request that may be issued out of the waiting list (R19). -/
def takeRequest (sweepOk : Bool) : List MediaReq → Option (MediaReq × List MediaReq)
  | [] => none
  | q :: qs =>
    if sweepOk || !isSweep q then some (q, qs)
    else (takeRequest sweepOk qs).map (fun x => (x.1, q :: x.2))

/-- A segment whose request is issued is ON_MEDIA (R12). -/
def markIssued (s : State) (q : MediaReq) : State :=
  match q.who with
  | .seg id => modSeg s id (fun g => { g with state := .onMedia })
  | .sweep _ => s
  | .flush _ => s
  | .recovery _ _ _ => s
  | .discard => s

/-- MEDIA_TAG_GRANT (R19): a FREE tag goes to the oldest waiting request, sweep requests being passed over while the
sweep holds 8 BUSY tags. -/
def execMediaTagGrant (t : MediaTag) (s : State) : Host.Outcome State Fault Refusal :=
  match s.media.tags[t] with
  | .free =>
    match takeRequest (sweepBusy s < 8) s.media.waiting with
    | some x =>
      let s := { s with media := { s.media with waiting := x.2 } }
      .next (markIssued (setTag s t (.busy x.1 0)) x.1)
    | none => .next s
  | .busy _ _ => .next s
  | .quarantined => .next s

/-! ## Lanes -/

/-- The waiting pass is granted a lane (R17). -/
def grantPass (s : State) (l : LaneIx) : State :=
  let s := setLane s l (.granted .pass)
  { s with arb := { s.arb with waitingPass := false, guard := 0 } }

/-- The oldest traffic segment is granted a lane; the guard count adds one while a waiting pass exists, up to 64 (R17,
R18). -/
def grantSeg (s : State) (l : LaneIx) (id : Nat) (rest : List Nat) : State :=
  let s := modSeg (setLane s l (.granted (.seg id))) id (fun g => { g with state := .inLane })
  { s with arb := { s.arb with
    wait := rest, guard := if s.arb.waitingPass then min 64 (s.arb.guard + 1) else s.arb.guard } }

/-- The first claim of R18 that applies takes a FREE lane. -/
def laneClaim (s : State) (l : LaneIx) : State :=
  let room : Bool := sweepLanes s < sweepCap s
  if holdRunning s && s.arb.dedicated.isNone then
    let s := { s with arb := { s.arb with dedicated := some l } }
    setLane s l (if passAsked s && passLanes s = 0 then .granted .pass else .dedicated)
  else if s.arb.waitingPass && s.arb.guard = 64 && room then grantPass s l
  else
    match s.arb.wait with
    | id :: rest => grantSeg s l id rest
    | [] =>
      if s.arb.waitingPass && room then grantPass s l
      else if 0 < passLanes s && room then setLane s l (.granted .pass)
      else s

/-- LANE_GRANT (R18): a FREE lane is handed on. The lanes are off in DOZE (R14). -/
def execLaneGrant (l : LaneIx) (s : State) : Host.Outcome State Fault Refusal :=
  if s.arb.lanes[l] = .free && s.power.state ≠ .doze then .next (laneClaim s l) else .next s

/-- The end of a segment's lane pass (R12, R24): `data` is the WRITE data drawn from the front-end controller. -/
def passEnd (s : State) (g : Segment) (data : List Block) : State :=
  match g.cls, g.owner with
  | .write, some _ =>
    let out := passData Config.encipher (slotKey s g.slot) g.addr data
    askTag (modSeg s g.id (fun g => { g with state := .tagWait, data := out })) ⟨.write, g.addr, g.len, out, .seg g.id⟩
  | .read, some _ => retire s g.id .ok (passData Config.decipher (slotKey s g.slot) g.addr g.data)
  | _, _ => retire s g.id .aborted []

/-- LANE_PASS_END (R12): a traffic segment's pass ends, and its lane falls FREE. -/
def execLanePassEnd (l : LaneIx) (data : List Block) (s : State) : Host.Outcome State Fault Refusal :=
  match s.arb.lanes[l] with
  | .granted (.seg id) =>
    let s := setLane s l .free
    match segOf s id with
    | some g => .next (passEnd s g data)
    | none => .next s
  | .granted .pass => .next s
  | .free => .next s
  | .dedicated => .next s

/-- CHUNK_PASS_END (R147, R128): the pass of the chunk in motion ends, and its lanes are released together. -/
def execChunkPassEnd (s : State) : Host.Outcome State Fault Refusal :=
  match s.sweep.chunk with
  | some c =>
    if c.phase = .pass && 0 < passLanes s then
      let s := releasePass s
      match c.kind with
      | .rekey => .next (rekeyPassEnd s c)
      | .purge => .next (purgePassEnd s c (((jobAt s c.job).bind (·.pattern)).getD .zeros))
    else .next s
  | none => .next s

end Sys2Proof.Machine
end

