-- ==== Sys2Proof/Machine/StoreSteps.lean ====
section
/-! DEFINITION. The meanings of STORE_WRITE_COMPLETION, FENCE_SET and DRAIN_FINISH (R182, R143, R111). -/

namespace Sys2Proof.Machine

/-- The writes that follow a completed write of the same block are issued: the next joins the store's queue. -/
def issueRest (s : State) (w : Write) : State := issue s w.rest

/-- What the completion of a store write does beside changing the record (R182). -/
def storeDone (s : State) (d : Done) : State :=
  match d with
  | .nothing => s
  | .control => finishService s
  | .theftDevice cause control =>
    let s := modDev s (fun d => { d with lastCause := cause })
    if control then finishService s else s
  | .theftIntents _ set => afterTheft (theftStored s set)
  | .theftClear => afterTheft (modDev s (fun d => { d with lockedStarts := 0 }))
  | .drained r gen purging => engine (drained s r gen purging)
  | .chunk => chunkStored s
  | .completing r w => completingStored s r w
  | .purged r j => purgedStored s r j
  | .report e => raise s e

/-- The oldest store write completes (R182): the record holds the new value, the block's next write is issued, and the
change that waited on it takes effect. -/
def completeWrite (s : State) (w : Write) (rest : List Write) : State :=
  let s := { s with store := applyOp s w.op, writes := rest }
  startUpGoesOn (storeDone (issueRest s w) w.done)

/-- STORE_WRITE_COMPLETION (R182). -/
def execStoreWriteCompletion (s : State) : Host.Outcome State Fault Refusal :=
  match s.writes with
  | [] => .next s
  | w :: rest => .next (completeWrite s w rest)

/-- FENCE_SET (R143). -/
def execFenceSet (s : State) : Host.Outcome State Fault Refusal :=
  match readyFence s with
  | some x => .next (setFence s x.1 x.2.1 x.2.2)
  | none => .next s

/-- DRAIN_FINISH (R110, R111): the store writes of the finish begin. -/
def execDrainFinish (r : RangeIx) (s : State) : Host.Outcome State Fault Refusal :=
  if drainDue s r then .next (startDrainFinish s r) else .next s

end Sys2Proof.Machine
end

