-- ==== Sys2Proof/Machine/PowerSteps.lean ====
section
/-! DEFINITION. The meanings of the timers', the power controller's and the tamper lines' commands (chapters 9 and 10). -/

namespace Sys2Proof.Machine

/-! ## Idle relock and power steps -/

/-- Whether the idle-relock timer runs: in ACTIVE, IDLE and DOZE, during SLEEP entry and the wake from DOZE (R164). -/
def relockRuns (s : State) : Bool :=
  s.powered && s.startUp.isNone && s.power.state ≠ .sleep && s.power.op ≠ .wakeSleep

/-- IDLE_RELOCK_EXPIRY (R164, R76). -/
def execIdleRelockExpiry (s : State) : Host.Outcome State Fault Refusal :=
  if relockRuns s && s.dev.policy.relockMinutes ≠ 0 && !s.theft.expired &&
      s.dev.policy.relockMinutes * 60000000 ≤ s.theft.elapsed then
    let s := { s with theft := { s.theft with expired := true } }
    .next (engine (lockProcedure s (allRanges.filter (fun r => s.ranges[r].flags.idleRelock)) .idle))
  else .next s

/-- STEP_TO_IDLE (R168). -/
def execStepToIdle (s : State) : Host.Outcome State Fault Refusal :=
  if s.powered && s.startUp.isNone && s.power.state = .active && s.power.op = .noOp && s.dev.idle ≠ 0 &&
      s.dev.idle * 10000 ≤ s.power.stepTimer then
    .next (enterPower s .idle)
  else .next s

/-- DOZE_STEP_DUE (R168). -/
def execDozeStepDue (s : State) : Host.Outcome State Fault Refusal :=
  if s.powered && s.startUp.isNone && s.power.state = .idle && s.power.op = .noOp && s.dev.doze ≠ 0 &&
      s.dev.doze * 1000000 ≤ s.power.stepTimer then
    .next { s with power := { s.power with dozeDue := true } }
  else .next s

/-- Whether the part is quiet enough for the step to DOZE (R168). -/
def dozeQuiet (s : State) : Bool :=
  noTransaction s && s.front.held.isEmpty && !laneGranted s && s.sweep.chunk.isNone && s.control.service.isNone && s.control.queue.isEmpty && !level0Demand s

/-- The step to DOZE reaches a job of level 1–3 (R136). -/
def pauseForDoze (s : State) (j : JobNo) : State :=
  match jobAt s j with
  | some b =>
    if b.level ≠ 0 && (b.state = .queued || b.state = .running || b.state = .preempted) then pauseJob s j .power else s
  | none => s

/-- STEP_TO_DOZE (R168, R136). -/
def execStepToDoze (s : State) : Host.Outcome State Fault Refusal :=
  if s.powered && s.startUp.isNone && s.power.state = .idle && s.power.op = .noOp && s.power.dozeDue && dozeQuiet s then
    .next (enterPower (allJobs.foldl pauseForDoze s) .doze)
  else .next s

/-- The part is ACTIVE again: POWER jobs return and the engine chooses (R136). -/
def backToActive (s : State) : State := engine (returnPower (enterPower s .active))

/-- WAKE_FROM_DOZE_COMPLETE (R169): 150 µs after the wake began. -/
def execWakeFromDozeComplete (s : State) : Host.Outcome State Fault Refusal :=
  if s.powered && s.power.op = .wakeDoze && 150 ≤ s.power.opTimer then .next (admitWaiting (backToActive s))
  else .next s

/-! ## The sleep handshake -/

/-- Whether nothing that SLEEP entry waits for is left (R170). A drain that can finish is waited for (log entry 37). -/
def sleepQuiet (s : State) : Bool :=
  noTransaction s && s.front.segs.isEmpty && s.sweep.chunk.isNone && s.writes.isEmpty &&
    s.control.service.isNone && s.control.queue.isEmpty && !allRanges.any (drainDue s)

/-- The ready event of SLEEP entry: the relock, then SLEEP (R170). -/
def becomeReady (s : State) : State :=
  { enterPower (lockProcedure s (allRanges.filter (fun r => s.ranges[r].flags.lockOnSleep)) .sleep) .sleep with
    sleepReady := true }

/-- SLEEP_REQUEST_RISE (R170, R171). During start-up, and while the power is off, the line is only noted: SLEEP entry
begins at the admission phase (R183). A rise in the wake from SLEEP that finds nothing in flight is the ready event too
(R171). R171 says that nothing is in flight in that wake; where a theft wipe's writes or a drain are, SLEEP entry stays open in
power state SLEEP, with the idle-relock timer stopped, until SLEEP_READY, and a fall before that returns the part to ACTIVE at
once (DESIGN CHOICE, log entry 46). -/
def execSleepRequestRise (s : State) : Host.Outcome State Fault Refusal :=
  if s.sleepLine then .next s
  else
    let t := { s with sleepLine := true }
    if !s.powered || s.startUp.isSome then .next t
    else
      let t := beginSleepEntry (retryWaiting t)
      if s.power.op = .wakeSleep && sleepQuiet t then .next (becomeReady t) else .next t

/-- SLEEP_READY (R170). -/
def execSleepReady (s : State) : Host.Outcome State Fault Refusal :=
  if s.powered && s.sleepLine && s.power.op = .sleepEntry && sleepQuiet s then .next (becomeReady s) else .next s

/-- SLEEP_REQUEST_FALL (R170, R171). -/
def execSleepRequestFall (s : State) : Host.Outcome State Fault Refusal :=
  if !s.sleepLine then .next s
  else
    let s := { s with sleepLine := false }
    if !s.powered || s.startUp.isSome then .next s
    else
      match s.power.op, s.power.state with
      | .sleepEntry, _ => .next (backToActive s)
      | .noOp, .sleep =>
        .next { s with sleepReady := false, power := { s.power with op := .wakeSleep, opTimer := 0 } }
      | _, _ => .next s

/-- WAKE_FROM_SLEEP_COMPLETE (R171): 2 ms after the wake began. -/
def execWakeFromSleepComplete (s : State) : Host.Outcome State Fault Refusal :=
  if s.powered && s.power.op = .wakeSleep && 2000 ≤ s.power.opTimer then .next (admitWaiting (backToActive s))
  else .next s

/-! ## Power-good -/

/-- POWER_GOOD_RISE (R183): power-on start-up runs. -/
def execPowerGoodRise (p : StartInputs) (s : State) : Host.Outcome State Fault Refusal :=
  if s.powered then .next s else .next (beginStartUp { s with powered := true } .powerOn p .load)

/-- POWER_GOOD_FALL (R172): everything volatile is lost, with no completion sent, and a store write in flight leaves its
record as it was. -/
def execPowerGoodFall (s : State) : Host.Outcome State Fault Refusal :=
  if s.powered then
    .next { clearVolatile s false with powered := false, front := emptyFront s.front.nextSeg s.front.sent, writes := [] }
  else .next s

/-! ## Tamper lines -/

/-- The edge that brings a level about (R157). -/
def edgeTo : Level → Edge
  | .asserted => .assert
  | .released => .release

/-- Put a filter back. -/
def setFilter (t : Theft) (line : TamperLine) (f : Filter) : Theft :=
  match line with
  | .caseLine => { t with caseLine := f }
  | .bayLine => { t with bayLine := f }
  | .serviceLine => { t with serviceLine := f }

/-- The other level. -/
def otherLevel : Level → Level
  | .asserted => .released
  | .released => .asserted

/-- A trigger edge whose action is taken (R159). -/
def takeAction (s : State) (line : TamperLine) (edge : Edge) (a : Action) : State :=
  let s := raise s { kind := .tamper, detail := .tamper line edge }
  match a with
  | .ignore => s
  | .log => s
  | .lock => engine (lockProcedure s allRanges .tamper)
  | .wipe => engine (theftTamper s)

/-- Judge an accepted edge (R158, R159). -/
def judgeEdge (s : State) (line : TamperLine) (edge : Edge) : State :=
  let cfg := lineConfig s.dev.policy line
  if !triggers cfg.trigger edge || cfg.action = .ignore then s
  else
    match cfg.blocking with
    | some b =>
      if (filterOf s.theft b).level = .asserted then raise s { kind := .tamperBlocked, detail := .blocked line edge b }
      else takeAction s line edge cfg.action
    | none => takeAction s line edge cfg.action

/-- The filter of a line accepts an edge to a level, which is judged (R157, R159). -/
def acceptEdge (s : State) (line : TamperLine) (l : Level) : State :=
  judgeEdge { s with theft := setFilter s.theft line ⟨l, 0, 0, samplePeriod s⟩ } line (edgeTo l)

/-- Whether the next sample of a line is due: the period of the interval in progress is that of its last sample (R157,
R168). -/
def sampleDue (s : State) (line : TamperLine) : Bool :=
  s.powered && s.theft.sampling && (filterOf s.theft line).period ≤ (filterOf s.theft line).age

/-- ACCEPTED_EDGE (R157): the third differing sample of a line. -/
def execAcceptedEdge (line : TamperLine) (s : State) : Host.Outcome State Fault Refusal :=
  let f := filterOf s.theft line
  if sampleDue s line && f.run = 2 then .next (acceptEdge s line (otherLevel f.level)) else .next s

/-- TAMPER_SAMPLE (R157): a sample at the filtered level clears the run, a differing one adds 1 to it, and the third is an
accepted edge. -/
def execTamperSample (line : TamperLine) (l : Level) (s : State) : Host.Outcome State Fault Refusal :=
  let f := filterOf s.theft line
  if sampleDue s line then
    if l = f.level then .next { s with theft := setFilter s.theft line ⟨l, 0, 0, samplePeriod s⟩ }
    else if f.run < 2 then
      .next { s with theft := setFilter s.theft line ⟨f.level, f.run + 1, 0, samplePeriod s⟩ }
    else .next (acceptEdge s line l)
  else .next s

end Sys2Proof.Machine
end

