-- ==== Sys2Proof/Machine/Tick.lean ====
section
/-! DEFINITION. The passing of one microsecond, which a step on an empty queue is (log entry 4): the timers count. -/

namespace Sys2Proof.Machine

/-- One microsecond of a media tag: a BUSY tag counts the time since the issue (R21). -/
def tickTag (x : TagState) : TagState :=
  match x with
  | .busy q age => .busy q (age + 1)
  | .free => .free
  | .quarantined => .quarantined

/-- One microsecond of a filter. -/
def tickFilter (f : Filter) : Filter := { f with age := f.age + 1 }

/-- One microsecond of the theft monitor (R157, R164). -/
def tickTheft (s : State) : Theft :=
  let t := s.theft
  let t := if relockRuns s then { t with elapsed := t.elapsed + 1 } else t
  if t.sampling then
    { t with caseLine := tickFilter t.caseLine, bayLine := tickFilter t.bayLine, serviceLine := tickFilter t.serviceLine }
  else t

/-- One microsecond of the power controller: the step timer runs in ACTIVE and IDLE with no operation in progress and
stands at 0 during start-up; the time since a wake began counts (R168, R169, R171, R183). -/
def tickPower (s : State) : Power :=
  let p := s.power
  if s.startUp.isSome then p
  else if p.op = .wakeDoze || p.op = .wakeSleep then { p with opTimer := p.opTimer + 1 }
  else if p.op = .noOp && (p.state = .active || p.state = .idle) then { p with stepTimer := p.stepTimer + 1 }
  else p

/-- One microsecond (log entry 4). -/
def tick (s : State) : State :=
  if s.powered then
    { s with media := { s.media with tags := vmap tickTag s.media.tags }, theft := tickTheft s, power := tickPower s }
  else s

end Sys2Proof.Machine
end

