-- ==== Sys2Proof/Machine/Dispatch.lean ====
section
/-! DEFINITION. One arm per command. -/

namespace Sys2Proof.Machine

/-- The meaning of a command: its effect on everything but the queue. -/
def exec (i : Instr) (s : State) : Host.Outcome State Fault Refusal :=
  match i with
  | .frontTransaction d => Sys2Proof.Machine.execFrontTransaction d s
  | .linkReset => Sys2Proof.Machine.execLinkReset s
  | .mediaCompletion t res => Sys2Proof.Machine.execMediaCompletion t res s
  | .lateCompletion t => Sys2Proof.Machine.execLateCompletion t s
  | .mediaTimeout t => Sys2Proof.Machine.execMediaTimeout t s
  | .mediaTagGrant t => Sys2Proof.Machine.execMediaTagGrant t s
  | .laneGrant l => Sys2Proof.Machine.execLaneGrant l s
  | .lanePassEnd l data => Sys2Proof.Machine.execLanePassEnd l data s
  | .chunkPassEnd => Sys2Proof.Machine.execChunkPassEnd s
  | .storeWriteCompletion => Sys2Proof.Machine.execStoreWriteCompletion s
  | .fenceSet => Sys2Proof.Machine.execFenceSet s
  | .drainFinish r => Sys2Proof.Machine.execDrainFinish r s
  | .idleRelockExpiry => Sys2Proof.Machine.execIdleRelockExpiry s
  | .stepToIdle => Sys2Proof.Machine.execStepToIdle s
  | .dozeStepDue => Sys2Proof.Machine.execDozeStepDue s
  | .stepToDoze => Sys2Proof.Machine.execStepToDoze s
  | .wakeFromDozeComplete => Sys2Proof.Machine.execWakeFromDozeComplete s
  | .sleepRequestRise => Sys2Proof.Machine.execSleepRequestRise s
  | .sleepReady => Sys2Proof.Machine.execSleepReady s
  | .sleepRequestFall => Sys2Proof.Machine.execSleepRequestFall s
  | .wakeFromSleepComplete => Sys2Proof.Machine.execWakeFromSleepComplete s
  | .powerGoodRise p => Sys2Proof.Machine.execPowerGoodRise p s
  | .powerGoodFall => Sys2Proof.Machine.execPowerGoodFall s
  | .acceptedEdge line => Sys2Proof.Machine.execAcceptedEdge line s
  | .query => Sys2Proof.Machine.execQuery s
  | .restart p => Sys2Proof.Machine.execRestart p s
  | .freeze => Sys2Proof.Machine.execFreeze s
  | .journalRead => Sys2Proof.Machine.execJournalRead s
  | .journalMask => Sys2Proof.Machine.execJournalMask s
  | .unlock => Sys2Proof.Machine.execUnlock s
  | .unlockAbsent => Sys2Proof.Machine.execUnlockAbsent s
  | .lock => Sys2Proof.Machine.execLock s
  | .credSet => Sys2Proof.Machine.execCredSet s
  | .credClear => Sys2Proof.Machine.execCredClear s
  | .credDisable => Sys2Proof.Machine.execCredDisable s
  | .credEnable => Sys2Proof.Machine.execCredEnable s
  | .credGrant => Sys2Proof.Machine.execCredGrant s
  | .credRevoke => Sys2Proof.Machine.execCredRevoke s
  | .credBudget => Sys2Proof.Machine.execCredBudget s
  | .rangeDefine => Sys2Proof.Machine.execRangeDefine s
  | .rangeDelete => Sys2Proof.Machine.execRangeDelete s
  | .rangeFlags => Sys2Proof.Machine.execRangeFlags s
  | .rangeRekey => Sys2Proof.Machine.execRangeRekey s
  | .ceilingSet => Sys2Proof.Machine.execCeilingSet s
  | .reserveOpen => Sys2Proof.Machine.execReserveOpen s
  | .reserveClose => Sys2Proof.Machine.execReserveClose s
  | .pbwSet => Sys2Proof.Machine.execPbwSet s
  | .wipePrepare => Sys2Proof.Machine.execWipePrepare s
  | .wipeCommit => Sys2Proof.Machine.execWipeCommit s
  | .sweepStatus => Sys2Proof.Machine.execSweepStatus s
  | .sweepPause => Sys2Proof.Machine.execSweepPause s
  | .sweepResume => Sys2Proof.Machine.execSweepResume s
  | .sweepCancel => Sys2Proof.Machine.execSweepCancel s
  | .theftSet => Sys2Proof.Machine.execTheftSet s
  | .powerSet => Sys2Proof.Machine.execPowerSet s
  | .unknownRequest => Sys2Proof.Machine.execUnknownRequest s
  | .tamperSample line l => Sys2Proof.Machine.execTamperSample line l s

end Sys2Proof.Machine
end

