-- ==== Sys2Proof/Safety.lean ====
section
/-! DEFINITION. What it means for a state to keep the bounds that the spec gives the part's queues, lists and counters, and
for a property to be kept by every step; and the words that the statements share: an arrival in ACTIVE, a transaction that
completes, a request that passes its proof check, and an answer that waits for store writes. -/

namespace Sys2Proof.Machine

/-- The bounded lists and counters: at most 4 queued requests (R174), 8 held transactions (R10), 32 journal entries
(R178), and a guard count of at most 64 (R14). -/
structure Bounded (s : State) : Prop where
  queue : s.control.queue.length ≤ 4
  held  : s.front.held.length ≤ 8
  ring  : s.journal.ring.length ≤ 32
  guard : s.arb.guard ≤ 64

/-- Whether a slot in EMPTY has reference count 0 and holds nothing (R48). -/
def slotClean (x : Slot) : Bool := x.state ≠ .empty || (x.count = 0 && x.key.isNone && x.owner.isNone && x.role.isNone && !x.held)

/-- A slot in EMPTY has reference count 0 and holds no key (R48). -/
def SlotsClean (s : State) : Prop := ∀ i : SlotIx, slotClean s.slots[i] = true

/-- Tries left never exceeds the tries budget (R64). -/
def TriesBounded (s : State) : Prop := ∀ c : CredIx, s.creds[c].tries ≤ s.creds[c].budget

/-- The law of the in-service stack (R122, R125): the RUNNING job is at its top, the PREEMPTED jobs are on it and no other
job is, no job twice, each strictly less urgent, level by level, than the job above it. A RANGE.REKEY in service has its job
table entry held for it, so no job of the stack is put out of it (R140). -/
structure StackOrdered (s : State) : Prop where
  once      : s.sweep.stack.Nodup
  ordered   : s.sweep.stack.Pairwise (fun i j => ∀ a b, jobAt s i = some a → jobAt s j = some b → a.level < b.level)
  running   : ∀ j b, jobAt s j = some b → b.state = .running → s.sweep.stack.head? = some j
  preempted : ∀ j b, jobAt s j = some b → b.state = .preempted → j ∈ s.sweep.stack
  onStack   : ∀ j ∈ s.sweep.stack, ∃ b, jobAt s j = some b ∧ (b.state = .running ∨ b.state = .preempted)
  entryHeld : ∀ v r j l p k, s.control.service = some v → v.after = .rangeRekey r j l p k → s.sweep.jobs[j] = .reserved

/-- How many range entries name a slot, in either role (R51). -/
def namings (s : State) (i : SlotIx) : Nat :=
  allRanges.countP (fun r => s.ranges[r].slot = some i) + allRanges.countP (fun r => nextSlotOf s.ranges[r] = some i)

/-- How many admitted segments that have not retired are bound to a slot (R50). -/
def boundSegments (s : State) (i : SlotIx) : Nat :=
  s.front.segs.countP (fun g => g.state ≠ .retired && g.slot = some i)

/-- How many bindings the chunk in motion has to a slot (R58). -/
def chunkBindings (s : State) (i : SlotIx) : Nat :=
  match s.sweep.chunk with
  | some c => [c.curSlot, c.nextSlot].count (some i)
  | none => 0

/-- The law of the reference counts (R48 to R51): a slot's count is the number of entries that name it, of segments bound to
it that have not retired and of bindings of the chunk in motion; a slot is named by at most one entry, in one role; a named
slot is LOADED and not held, and a media slot that is LOADED and not held is named; a PENDING_ZERO slot has a reference. -/
structure ReferencesCounted (s : State) : Prop where
  counted : ∀ i : SlotIx, s.slots[i].count = namings s i + boundSegments s i + chunkBindings s i
  once    : ∀ i : SlotIx, namings s i ≤ 1
  named   : ∀ i : SlotIx, namings s i = 1 → i ≠ 0 ∧ s.slots[i].state = .loaded ∧ s.slots[i].held = false
  inUse   : ∀ i : SlotIx, i ≠ 0 → s.slots[i].state = .loaded → s.slots[i].held = false → namings s i = 1
  waits   : ∀ i : SlotIx, s.slots[i].state = .pendingZero → 0 < s.slots[i].count

/-- A property that every step keeps. -/
def KeptByStep (P : State → Prop) : Prop := ∀ s s' : State, P s → step s = .next s' → P s'

/-- The states that commands bring about from reset: whoever drives the part may put any commands in the queue at any
time. -/
inductive Reached : State → Prop
  | reset : Reached State.reset
  | step {s t : State} (q : List Instr) : Reached s → step { s with pending := q } = .next t → Reached t

/-! ## Transactions -/

/-- A transaction completes: its completion is sent, with ATTENTION while the ring holds an unread entry of an unmasked kind,
and its tag is free (R4, R180). -/
def closed (s : State) (t : FrontTag) (st : Status) (data : List Block) (resp : Option Response) : State :=
  { s with front := { s.front with
      tags := s.front.tags.set t none
      sent := s.front.sent ++ [⟨t, st, s.journal.ring.any (fun e => !masked s.journal.mask e.event.kind), data, resp⟩] } }

/-- A descriptor that passes the arrival checks takes its tag, and the arrival resets the idle-relock timer and the step
timer (R2, R164, R168). -/
def taken (s : State) (d : Descriptor) (c : FrontClass) (stage : Stage) : State :=
  { s with
    front := { s.front with tags := s.front.tags.set d.tag (some ⟨c, d.start.toNat, d.count.toNat, d.block, stage⟩) }
    theft := { s.theft with elapsed := 0, expired := false }
    power := { s.power with stepTimer := 0 } }

/-- A descriptor fails the arrival checks (R2, R185). -/
def Malformed (s : State) (d : Descriptor) : Prop :=
  s.front.tags[d.tag].isSome = true ∨ 4 < d.cls.toNat ∨
    (d.cls.toNat ≤ 2 ∧ (d.count.toNat < 1 ∨ 65536 < d.count.toNat ∨ 2 ^ 40 < d.start.toNat + d.count.toNat))

/-- A descriptor of a class arrives in ACTIVE, with no operation in progress, and passes the arrival checks. -/
structure ArrivesActive (s : State) (d : Descriptor) (c : FrontClass) : Prop where
  powered : s.powered = true
  awake   : s.sleepLine = false
  started : s.startUp = none
  noOp    : s.power.op = .noOp
  active  : s.power.state = .active
  legal   : ¬ Malformed s d
  cls     : classOf d.cls = some c

/-- A span passes the span check (R5). -/
def SpanPasses (s : State) (d : Descriptor) : Prop :=
  d.start.toNat + d.count.toNat ≤ s.regions.u ∧
    (d.start.toNat + d.count.toNat ≤ s.regions.c ∨ s.regions.reserveView = true)

/-- The segments that the span of a descriptor is cut into (R6). -/
def piecesOf (s : State) (d : Descriptor) (c : FrontClass) : List Piece :=
  pieces s c d.start.toNat (d.start.toNat + d.count.toNat)

/-- The slot that a decided segment is bound to (R9). -/
def slotOf : Decision → Option SlotIx
  | .bound slot => slot
  | .refused _ => none
  | .hold => none
  | .blank => none
  | .damaged => none

/-- The record of a segment bound at its admission (R6, R9, R12). -/
def boundSegment (s : State) (d : Descriptor) (c : FrontClass) (x : Piece × Nat) : Segment :=
  { id := x.2, owner := some d.tag, cls := c, start := x.1.start, len := x.1.len, place := x.1.place, side := x.1.side
    slot := slotOf (decidePiece s c x.1), addr := mediaAddr s x.1
    state := if c = .write then .laneWait else .tagWait, status := .ok, data := [] }

/-- The media request of a READ or TRIM segment at its admission (R12). -/
def boundRequest (s : State) (c : FrontClass) (x : Piece × Nat) : MediaReq :=
  ⟨if c = .read then .read else .trim, mediaAddr s x.1, x.1.len, [], .seg x.2⟩

/-- The transaction of a descriptor holds its tag, whatever it has waited for, and may pass to admission: on its arrival, after
a wake or start-up (R3), or off the fence hold list (R11). -/
def Stands (s : State) (d : Descriptor) (c : FrontClass) : Prop :=
  ∃ stage, s.front.tags[d.tag] = some ⟨c, d.start.toNat, d.count.toNat, d.block, stage⟩

/-- The transaction of a descriptor at a stage. -/
def standing (s : State) (d : Descriptor) (c : FrontClass) (stage : Stage) : State :=
  { s with front := { s.front with
      tags := s.front.tags.set d.tag (some ⟨c, d.start.toNat, d.count.toNat, d.block, stage⟩) } }

/-- Whether a decided segment is bound (R9). -/
def isBound : Decision → Bool
  | .bound _ => true
  | .refused _ => false
  | .hold => false
  | .blank => false
  | .damaged => false

/-- The record of a segment at its admission: a BLANK one has retired OK with zeros, and a DAMAGED one MEDIA_ERROR (R7, R12). -/
def admittedSegment (s : State) (d : Descriptor) (c : FrontClass) (x : Piece × Nat) : Segment :=
  let g := boundSegment s d c x
  match decidePiece s c x.1 with
  | .blank => { g with state := .retired, data := List.replicate x.1.len 0 }
  | .damaged => { g with state := .retired, status := .mediaError }
  | .bound _ => g
  | .refused _ => g
  | .hold => g

/-- Pieces stand in order, are not empty and together cover [lo, hi). -/
def Covers : Nat → Nat → List Piece → Prop
  | lo, hi, [] => lo = hi
  | lo, hi, p :: ps => p.start = lo ∧ 0 < p.len ∧ Covers (lo + p.len) hi ps

/-! ## Chunks -/

/-- The arbiter once the dedicated lane has ceased to be dedicated (R16). -/
def undedicated (a : Arbiter) : Arbiter :=
  match a.dedicated with
  | some l => { a with dedicated := none, lanes := if a.lanes[l] = .dedicated then a.lanes.set l .free else a.lanes }
  | none => a

/-- The lanes of a pass are released together, and the dedicated lane returns to DEDICATED; `a` before, `b` after (R14). -/
def PassReleased (a b : Arbiter) : Prop :=
  b = { a with lanes := b.lanes, waitingPass := false } ∧
    ∀ l : LaneIx, b.lanes[l] =
      if a.lanes[l] = .granted .pass then if a.dedicated = some l then .dedicated else .free else a.lanes[l]

/-- The new blocks of a chunk that lie in a run. -/
def runData (c : Chunk) (x : Run) : List Block :=
  (c.fresh.filter (fun y => x.start ≤ y.1 && y.1 < x.start + x.len)).map (·.2)

/-- The state with a chunk in motion, media requests made ready and store writes issued. -/
def chunkState (s : State) (c : Chunk) (reqs : List MediaReq) (ops : List StoreOp) : State :=
  { s with
    sweep := { s.sweep with chunk := some c }
    media := { s.media with waiting := s.media.waiting ++ reqs }
    writes := s.writes ++ ops.map (fun op => ⟨op, .chunk, []⟩) }

/-- The failures of a media request of a re-key chunk, with the stall cause of each (R144, R147, R149). -/
inductive RekeyFails : SweepReq → Answer → StallCause → Prop
  | read (x : Run) : RekeyFails (.read x) .timeout .linkTimeout
  | readBlock (n : Nat) : RekeyFails (.readBlock n) .timeout .linkTimeout
  | staging (x : Run) : RekeyFails (.staging x) .error .mediaError
  | stagingLate (x : Run) : RekeyFails (.staging x) .timeout .linkTimeout
  | home (x : Run) : RekeyFails (.home x true) .error .mediaError
  | homeLate (x : Run) (again : Bool) : RekeyFails (.home x again) .timeout .linkTimeout

/-- A migration has ended, `s` before and `u` after (R151, R57): its range has the next generation, is STEADY and names its
next-key slot alone, which is its CURRENT slot at that generation, and it has ceased to name its old slot. -/
structure MigrationEnded (s u : State) (r : RangeIx) (m : MigRec) : Prop where
  ranges : u.ranges = s.ranges.set r
    { s.ranges[r] with gen := s.ranges[r].gen + 1, cond := .steady, mig := none, slot := m.nextSlot }
  next   : ∀ i : SlotIx, m.nextSlot = some i → s.ranges[r].slot ≠ some i → s.slots[i].state = .loaded →
    s.slots[i].held = false →
      u.slots[i] = { s.slots[i] with role := some .current, owner := some (r, s.ranges[r].gen + 1) }
  old    : ∀ i : SlotIx, i ≠ 0 → s.ranges[r].slot = some i → m.nextSlot ≠ some i → s.slots[i].held = false →
    u.slots[i] = if s.slots[i].count ≤ 1 then ⟨.empty, none, none, none, false, 0⟩
      else { s.slots[i] with state := .pendingZero, count := s.slots[i].count - 1 }

/-! ## Keys -/

/-- The keys that a set of ranges needs when it leaves LOCKED, in index order, current before next (R52). -/
def wantedKeys (s : State) (set : List RangeIx) : List (RangeIx × Role) :=
  (allRanges.filter set.contains).flatMap (fun r =>
    (r, .current) :: if s.ranges[r].cond = .migrating then [(r, .next)] else [])

/-- A slot LOADED with a key of a range as the range's record holds it: held, with count 0, or named, with count 1 (R52,
R53). -/
def keyedSlot (s : State) (x : RangeIx × Role) (held : Bool) : Slot :=
  { state := .loaded
    key := match x.2 with | .current => s.store.ranges[x.1].key | .next => s.store.ranges[x.1].mig.map (·.nextKey)
    owner := some (x.1, s.ranges[x.1].gen), role := some x.2, held := held, count := if held then 0 else 1 }

/-- The keys that a set needs are LOADED, held or named: the k-th of them in the k-th lowest EMPTY media slot. -/
structure KeysLoaded (s t : State) (set : List RangeIx) (held : Bool) : Prop where
  loaded : ∀ (k : Nat) (x : RangeIx × Role) (i : SlotIx), (wantedKeys s set)[k]? = some x →
    (emptyMediaSlots s)[k]? = some i → t.slots[i] = keyedSlot s x held
  others : ∀ i : SlotIx, i ∉ (emptyMediaSlots s).take (wantedKeys s set).length → t.slots[i] = s.slots[i]

/-- `t` is `s` with the keys that a set of ranges needs held for the request in service (R53). -/
structure KeysHeld (s t : State) (set : List RangeIx) : Prop where
  frame : t = { s with slots := t.slots }
  slots : KeysLoaded s t set true

/-- `t` is `s` with the keys that a set of ranges needs taken up: each range names its slots (R54). -/
structure KeysNamed (s t : State) (set : List RangeIx) : Prop where
  frame  : t = { s with ranges := t.ranges, slots := t.slots }
  slots  : KeysLoaded s t set false
  named  : ∀ (k : Nat) (x : RangeIx × Role) (i : SlotIx), (wantedKeys s set)[k]? = some x →
    (emptyMediaSlots s)[k]? = some i →
      match x.2 with
      | .current => t.ranges[x.1].slot = some i
      | .next => nextSlotOf t.ranges[x.1] = some i
  inSet  : ∀ r ∈ set, t.ranges[r] = { s.ranges[r] with
    slot := t.ranges[r].slot, mig := s.ranges[r].mig.map (fun m => { m with nextSlot := nextSlotOf t.ranges[r] }) }
  others : ∀ r, r ∉ set → t.ranges[r] = s.ranges[r]

/-- The ranges of a set can take up their keys: none of them names a slot, and a MIGRATING one has its migration record. -/
structure Keyless (s : State) (set : List RangeIx) : Prop where
  current   : ∀ r ∈ set, s.ranges[r].active = true ∧ s.ranges[r].slot = none
  next      : ∀ r ∈ set, nextSlotOf s.ranges[r] = none
  condition : ∀ r ∈ set, s.ranges[r].cond = .steady ∨ (s.ranges[r].cond = .migrating ∧ s.ranges[r].mig.isSome = true)

/-! ## Jobs -/

/-- A job is at rest as a new PURGE job of an option, over a group of ranges, QUEUED (R112, R121). -/
structure NewPurge (s : State) (o : PurgeOpt) (group : List RangeIx) (b : Job) : Prop where
  kind    : b.kind = .purge
  option  : b.level = o.level ∧ b.policy = o.policy ∧ b.pattern = some o.pattern
  ranges  : b.ranges = group
  begins  : b.pos = 0 ∧ b.lba = (group.head?.map (rangeStart s)).getD 0
  chunks  : b.chunkSize = 64
  queued  : b.state = .queued ∧ b.pause = none ∧ b.stall = none ∧ b.pending = .noAction

/-! ## Requests -/

/-- The tables after a proof check that passed: a matching proof clears the strike count and refills the credential's tries,
and nothing else changes (R65, R68). -/
def passedState (s : State) (c : Option CredIx) (matched : Bool) : State :=
  match c, matched with
  | some c, true =>
    { s with dev := { s.dev with strikes := 0 }
             creds := s.creds.set c { s.creds[c] with tries := s.creds[c].budget } }
  | some _, false => s
  | none, _ => s

/-- Whether the device record write of R68 is due after a proof check that passed. -/
def passedDirty (s : State) (matched : Bool) : Bool := matched && s.dev.strikes ≠ 0

/-- The request in service is `r`, its checks have not begun, and its proof check passes for the credential `c`: `u` is the
state that leaves, the prepared wipe having ended, and `dirty` tells whether a device record write is due (R66, R68, R104). -/
structure Serves (s : State) (b : RequestBlock) (r : Request) (owner : Bool) (c : Option CredIx) (u : State)
    (dirty : Bool) : Prop where
  starts : starting s = some (b, r)
  passes : ∃ m, checkProof (endPrepared s) b owner = .passed c m ∧ u = passedState (endPrepared s) c m ∧
    dirty = passedDirty s m

/-- Store writes made one after another, the last of which the request in service waits for. -/
def waited : List StoreOp → List (StoreOp × Done)
  | [] => []
  | [x] => [(x, .control)]
  | x :: y :: rest => (x, .nothing) :: waited (y :: rest)

/-- The request in service issues its store writes, the device record write of R68 first, and goes on as `a` when the last
has completed (R68, R174, R182). -/
def stored (s : State) (dirty : Bool) (ops : List StoreOp) (a : After) : State :=
  match waited ((if dirty then [.device { strikes := some 0 }] else []) ++ ops) with
  | [] => s
  | x :: rest =>
    { s with
      writes := s.writes ++ [⟨x.1, x.2, rest⟩]
      control := { s.control with service := s.control.service.map (fun v => { v with after := a }) } }

/-- Store writes issued together, in order, with a handler at the last. -/
def together (last : Done) : List StoreOp → List Write
  | [] => []
  | [x] => [⟨x, last, []⟩]
  | x :: y :: rest => ⟨x, .nothing, []⟩ :: together last (y :: rest)

/-- The request in service is answered once store writes that are issued together have completed; at once where there are
none (R38, R175). -/
def answerWith (s : State) (ops : List StoreOp) (r : Response) : State :=
  match ops with
  | [] => respond s r
  | x :: rest =>
    { s with
      writes := s.writes ++ together .control (x :: rest)
      control := { s.control with service := s.control.service.map (fun v => { v with after := .respond r }) } }

/-- The request in service is answered, after the device record write of R68 where one is due. -/
def answerAfter (s : State) (dirty : Bool) (r : Response) : State :=
  if dirty then stored s true [] (.respond r) else respond s r

/-- The request in service is refused with a status. -/
def refusedWith (s : State) (dirty : Bool) (st : RespStatus) : State := answerAfter s dirty ⟨st, .none⟩

/-- The store write at the head of the queue is the last that the request `v` in service waits for, which then goes on as
`a`; `t` is the state with the record written (R182). -/
structure LastWrite (s : State) (v : Service) (a : After) (t : State) : Prop where
  started : s.startUp = none
  service : s.control.service = some v
  goes    : v.after = a
  write   : ∃ op rest, s.writes = ⟨op, .control, []⟩ :: rest ∧ t = { s with store := applyOp s op, writes := rest }

/-- CONFIG_CHANGED of a request, with its code (R184). -/
def configEvent (range : Option RangeIx) (cred : Option CredIx) (v : Service) : Event :=
  { kind := .configChanged, range := range, cred := cred, detail := .code v.block.code }

/-- A configuration change has taken effect: CONFIG_CHANGED is journaled, and the request in service is answered DONE. -/
def settled (t : State) (range : Option RangeIx) (cred : Option CredIx) (v : Service) (r : Results) : State :=
  respond (raise t (configEvent range cred v)) ⟨.done, r⟩

/-- RESTART has answered, which left `a`, and leaves start-up to begin in `y`: every unfinished transaction has completed
ABORTED, in tag order, the store writes already issued are left to complete, without those that were to follow them, and all
that RESTART clears is clear: the lanes, the media port, the slots, the jobs, the filters, the timers and the journal are as at
power-on, and the tables as the store holds them (R177, R59; the values that the spec does not give are the model's, log
entries 1 and 2). That a completing store left in flight on a DRAINING range stays the plain checkpoint of R153 is the model's
reading (log entry 15). -/
structure RestartBegun (a : State) (p : StartInputs) (y : State) : Prop where
  phase   : y.startUp = some ⟨.restart, p, .waitStore, none, []⟩
  sent    : y.front.sent = a.front.sent ++ (allTags.filter (fun x => a.front.tags[x].isSome)).map (fun x =>
    ⟨x, .aborted, a.journal.ring.any (fun e => !masked a.journal.mask e.event.kind), [], none⟩)
  tags    : ∀ x : FrontTag, y.front.tags[x] = none
  lists   : y.front.held = [] ∧ y.front.waiting = [] ∧ y.front.segs = []
  store   : y.store = a.store ∧ y.writes = a.writes.map (fun w =>
    ⟨match w.op with
      | .rangeComplete r n => if a.ranges[r].cond = .draining then .rangeCheckpoint r n else w.op
      | _ => w.op, .nothing, []⟩)
  slots   : ∀ i : SlotIx, y.slots[i] = ⟨.empty, none, none, none, false, 0⟩
  media   : (∀ i : MediaTag, y.media.tags[i] = .free) ∧ y.media.waiting = []
  control : y.control = ⟨[], none, none, a.control.lastTicket, false⟩
  regions : y.regions.persistentWritten = a.regions.persistentWritten ∧ y.regions.reserveView = false ∧
    y.regions.writeOpen = false
  sweep   : y.sweep = ⟨Vector.replicate 6 .free, [], 0, none, []⟩
  locked  : ∀ r : RangeIx, y.ranges[r].lock = .locked ∧ y.ranges[r].slot = none
  ranges  : y.ranges = vmap loadedEntry a.store.ranges
  creds   : y.creds = vmap loadedCred a.store.creds
  arb     : y.arb = ⟨Vector.replicate 4 .free, none, [], false, 0⟩
  theft   : y.theft = ⟨⟨.released, 0, 0, 1000⟩, ⟨.released, 0, 0, 1000⟩, ⟨.released, 0, 0, 1000⟩, false, 0, false⟩
  power   : y.power = ⟨.active, .noOp, 0, 0, false⟩
  journal : y.journal = ⟨[], false, 0, 1 <<< 19⟩
  rest    : y = { a with
    sleepReady := false, front := y.front, arb := y.arb, media := y.media, ranges := y.ranges, slots := y.slots
    creds := y.creds, dev := a.store.device, intents := a.store.intents, damaged := a.store.damaged, regions := y.regions
    control := y.control, sweep := y.sweep, theft := y.theft, power := y.power, journal := y.journal
    startUp := y.startUp, writes := y.writes }
  waits   : a.writes ≠ [] → startUpGoesOn y = y

/-- The command that serves a request; `p` is what a RESTART reads. -/
def commandOf (p : StartInputs) (b : RequestBlock) : Request → Instr
  | .query => .query
  | .restart => .restart p
  | .freeze => .freeze
  | .journalRead => .journalRead
  | .journalMask _ => .journalMask
  | .unlock _ => if (namedCred b).isSome then .unlock else .unlockAbsent
  | .lock _ => .lock
  | .credSet _ _ => .credSet
  | .credClear _ => .credClear
  | .credDisable _ => .credDisable
  | .credEnable _ => .credEnable
  | .credGrant _ _ _ => .credGrant
  | .credRevoke _ _ => .credRevoke
  | .credBudget _ _ => .credBudget
  | .rangeDefine _ _ _ _ => .rangeDefine
  | .rangeDelete _ => .rangeDelete
  | .rangeFlags _ _ => .rangeFlags
  | .rangeRekey _ _ _ _ => .rangeRekey
  | .ceilingSet _ _ => .ceilingSet
  | .reserveOpen => .reserveOpen
  | .reserveClose => .reserveClose
  | .pbwSet _ _ _ => .pbwSet
  | .wipePrepare _ _ _ => .wipePrepare
  | .wipeCommit _ => .wipeCommit
  | .sweepStatus => .sweepStatus
  | .sweepPause _ => .sweepPause
  | .sweepResume _ => .sweepResume
  | .sweepCancel _ => .sweepCancel
  | .theftSet _ _ _ _ _ _ => .theftSet
  | .powerSet _ _ => .powerSet

/-- Whether a request is taken without a proof when it names an EMPTY credential 0 (R65): the requests that take OWNER
authority, among others or alone. -/
def takesOwner : Request → Bool
  | .query => false
  | .restart => true
  | .freeze => false
  | .journalRead => false
  | .journalMask _ => false
  | .unlock _ => false
  | .lock _ => false
  | .credSet _ _ => true
  | .credClear _ => true
  | .credDisable _ => true
  | .credEnable _ => true
  | .credGrant _ _ _ => true
  | .credRevoke _ _ => true
  | .credBudget _ _ => true
  | .rangeDefine _ _ _ _ => true
  | .rangeDelete _ => true
  | .rangeFlags _ _ => true
  | .rangeRekey _ _ _ _ => true
  | .ceilingSet _ _ => true
  | .reserveOpen => true
  | .reserveClose => true
  | .pbwSet _ _ _ => true
  | .wipePrepare _ _ _ => true
  | .wipeCommit _ => true
  | .sweepStatus => false
  | .sweepPause _ => true
  | .sweepResume _ => true
  | .sweepCancel _ => true
  | .theftSet _ _ _ _ _ _ => true
  | .powerSet _ _ => true

/-- The requests that need OWNER authority and nothing else: whether the frozen state refuses them (R84). -/
def needsOwner : Request → Option Bool
  | .query => none
  | .restart => some false
  | .freeze => none
  | .journalRead => none
  | .journalMask _ => none
  | .unlock _ => none
  | .lock _ => none
  | .credSet _ _ => none
  | .credClear _ => some true
  | .credDisable _ => some true
  | .credEnable _ => some true
  | .credGrant _ _ _ => some true
  | .credRevoke _ _ => some true
  | .credBudget _ _ => some true
  | .rangeDefine _ _ _ _ => some true
  | .rangeDelete _ => some true
  | .rangeFlags _ _ => some true
  | .rangeRekey _ _ _ _ => none
  | .ceilingSet _ _ => some true
  | .reserveOpen => none
  | .reserveClose => some false
  | .pbwSet _ _ _ => some true
  | .wipePrepare _ _ _ => none
  | .wipeCommit _ => none
  | .sweepStatus => none
  | .sweepPause _ => some false
  | .sweepResume _ => some false
  | .sweepCancel _ => some false
  | .theftSet _ _ _ _ _ _ => some true
  | .powerSet _ _ => some true

end Sys2Proof.Machine
end

