-- ==== Sys2Proof/Certificates/Slice0/Obligations.lean ====
section
/-! DEFINITION. The statements for the provers. Each is one obligation of OBLIGATIONS.json. -/

open Sys2Proof Sys2Proof.Machine

/-! ## Steps, reset and invariants -/

/-- A step runs the command at the front of the queue, on the state with the rest of the queue. On an empty queue it is one
microsecond (the model's choice, log entry 4): a BUSY media tag counts the time since its issue, the step timer runs in
ACTIVE and IDLE with no operation in progress, a wake counts its time, the idle-relock timer runs outside SLEEP, the wake
from SLEEP and start-up, and the filters that sample count theirs. Nothing else changes. -/
def Obligations.StepRunsTheFrontCommand : Prop :=
  (∀ (c : Instr) (q : List Instr) (s : State), step { s with pending := c :: q } = exec c { s with pending := q }) ∧
  (∀ s : State, s.pending = [] → s.powered = false → step s = .next s) ∧
  (∀ s : State, s.pending = [] → s.powered = true →
    let aged := fun (f : Filter) => if s.theft.sampling then { f with age := f.age + 1 } else f
    ∃ tags, step s = .next { s with
        media := { s.media with tags := tags }
        theft := { s.theft with
          caseLine := aged s.theft.caseLine, bayLine := aged s.theft.bayLine, serviceLine := aged s.theft.serviceLine
          elapsed := s.theft.elapsed +
            if s.startUp = none ∧ s.power.state ≠ .sleep ∧ s.power.op ≠ .wakeSleep then 1 else 0 }
        power :=
          if s.startUp.isSome then s.power
          else if s.power.op = .wakeDoze ∨ s.power.op = .wakeSleep then { s.power with opTimer := s.power.opTimer + 1 }
          else if s.power.op = .noOp ∧ (s.power.state = .active ∨ s.power.state = .idle) then
            { s.power with stepTimer := s.power.stepTimer + 1 }
          else s.power } ∧
      ∀ i : MediaTag, tags[i] =
        match s.media.tags[i] with
        | .busy q age => .busy q (age + 1)
        | .free => .free
        | .quarantined => .quarantined)

/-- Reset is the factory state with power-good low (the model's choice, log entries 1 and 2): the values that the rules of
each chapter give for the factory state and for the volatile state after power loss, and the store of R182 in factory state,
with a key of range 0 (log entry 9), which is all that the next start-up reads. The invariants of the five statements that
follow hold there. -/
def Obligations.InvariantsHoldAtReset : Prop :=
  let s := State.reset
  s.powered = false ∧ s.sleepReady = false ∧ s.startUp = none ∧ s.writes = [] ∧ s.pending = [] ∧
  (∀ t : FrontTag, s.front.tags[t] = none) ∧ s.front.held = [] ∧ s.front.segs = [] ∧
  (∀ l : LaneIx, s.arb.lanes[l] = .free) ∧ s.arb.dedicated = none ∧ s.arb.wait = [] ∧ s.arb.waitingPass = false ∧
    s.arb.guard = 0 ∧
  (∀ i : MediaTag, s.media.tags[i] = .free) ∧ s.media.waiting = [] ∧
  (∀ i : SlotIx, s.slots[i] = ⟨.empty, none, none, none, false, 0⟩) ∧
  (∀ c : CredIx, s.creds[c] = ⟨.empty, none, 5, 5, []⟩) ∧
  (s.ranges[(0 : RangeIx)].active = true ∧ s.ranges[(0 : RangeIx)].cond = .steady ∧ s.ranges[(0 : RangeIx)].gen = 1 ∧
    s.ranges[(0 : RangeIx)].flags = ⟨.refuse, false, false, true, false⟩) ∧
  (∀ r : RangeIx, r ≠ 0 → s.ranges[r].active = false ∧ s.ranges[r].gen = 0) ∧
  s.dev = { systemKey := none, ceiling := 0, pbwLen := 0, pbwEnabled := false, idle := 50, doze := 30, strikes := 0
            lockedStarts := 0, lastCause := .none
            policy := ⟨0, 0, none, ⟨.onAssert, .ignore, none⟩, ⟨.onAssert, .ignore, none⟩,
              ⟨.onAssert, .ignore, none⟩, 0⟩ } ∧
  s.intents = [] ∧ s.damaged = [] ∧
  s.regions.persistentWritten = false ∧ s.regions.reserveView = false ∧ s.regions.writeOpen = false ∧
  s.control.queue = [] ∧ s.control.service = none ∧ s.control.prepared = none ∧ s.control.frozen = false ∧
  (∀ j : JobNo, s.sweep.jobs[j] = .free) ∧ s.sweep.stack = [] ∧ s.sweep.chunk = none ∧
  s.power.state = .active ∧ s.power.op = .noOp ∧ s.power.stepTimer = 0 ∧ s.theft.elapsed = 0 ∧ s.theft.expired = false ∧
  s.journal.ring = [] ∧ s.journal.gapPending = false ∧ s.journal.nextSeq = 0 ∧
  (∀ k : Kind, masked s.journal.mask k = true ↔ k = .powerStep) ∧
  (s.store.device = s.dev ∧ s.store.intents = [] ∧ s.store.damaged = [] ∧
    (∀ c : CredIx, s.store.creds[c] = ⟨.empty, none, 5, []⟩) ∧
    (∃ k, s.store.ranges[(0 : RangeIx)] =
      ⟨true, 0, 0, ⟨.refuse, false, false, true, false⟩, 1, some k, .steady, none, none⟩) ∧
    ∀ r : RangeIx, r ≠ 0 → s.store.ranges[r] =
      ⟨false, 0, 0, ⟨.refuse, false, false, false, false⟩, 0, none, .steady, none, none⟩) ∧
  TriesBounded s ∧ SlotsClean s ∧ Bounded s ∧ StackOrdered s ∧ ReferencesCounted s

/-- Tries left never exceeds the tries budget (R64): every step keeps it. -/
def Obligations.EveryStepKeepsTriesWithinBudget : Prop := KeptByStep TriesBounded

/-- A slot in EMPTY has reference count 0 and holds no key, no owner and no role (R48): every step keeps it. -/
def Obligations.EveryStepKeepsEmptySlotsClean : Prop := KeptByStep SlotsClean

/-- At most 4 requests wait (R174), 8 transactions are held (R10), the ring holds 32 entries (R178) and the guard count is at
most 64 (R14): every step keeps it. -/
def Obligations.EveryStepKeepsTheBounds : Prop := KeptByStep Bounded

/-- The in-service stack holds the RUNNING job at its top and the PREEMPTED jobs below it, each strictly less urgent, level
by level, than the job above it; a RUNNING or PREEMPTED job is on the stack, so at most one job is RUNNING (R122, R125):
every step keeps it. With the levels 0 to 3 that jobs have, the stack then holds at most 4 jobs (R120, R125). -/
def Obligations.EveryStepKeepsTheStack : Prop :=
  KeptByStep StackOrdered ∧
  (∀ s : State, StackOrdered s → ∀ i j : JobNo, ∀ a b : Job, jobAt s i = some a → jobAt s j = some b →
    a.state = .running → b.state = .running → i = j) ∧
  (∀ s : State, StackOrdered s → (∀ (j : JobNo) (b : Job), jobAt s j = some b → b.level ≤ 3) → s.sweep.stack.length ≤ 4)

/-- The reference count of every media slot is the number of range entries that name it, of admitted segments that have not
retired and are bound to it, and of re-key chunks in motion bound to it; a slot is named by at most one entry, in one role,
and the four conditions of a media slot have their fixed readings (R48, R50, R51). Every step keeps it, in every state that
commands bring about from reset: in other states a segment may stand in two places at once, and retire twice. -/
def Obligations.EveryStepKeepsTheReferenceCounts : Prop :=
  (∀ s : State, Reached s → ReferencesCounted s) ∧
  (∀ (s t : State) (q : List Instr), Reached s → step { s with pending := q } = .next t → ReferencesCounted t)

/-! ## Arrival and admission -/

/-- A descriptor that fails the arrival checks completes MALFORMED at once, in every power state, during start-up and while
the sleep request line is high, and changes nothing else (R2, R180, R185). One that passes takes its tag; with the line high
it completes RETRY; during start-up, in a wake and in DOZE, where it begins the wake, it waits; in IDLE the part becomes
ACTIVE and the transaction passes to admission (R3), in that order (the model's choice, log entry 46). -/
def Obligations.ArrivalIsJudgedBeforeAdmission : Prop :=
  (∀ (s : State) (d : Descriptor), s.powered = true → Malformed s d →
     exec (.frontTransaction d) s = .next { s with front := { s.front with
       sent := s.front.sent ++
         [⟨d.tag, .malformed, s.journal.ring.any (fun e => !masked s.journal.mask e.event.kind), [], none⟩] } }) ∧
  (∀ (s : State) (d : Descriptor) (c : FrontClass), s.powered = true → ¬ Malformed s d → classOf d.cls = some c →
     let u := taken s d c .waiting
     let waits := { u with front := { u.front with waiting := u.front.waiting ++ [d.tag] } }
     (s.sleepLine = true → exec (.frontTransaction d) s = .next (closed u d.tag .retry [] none)) ∧
     (s.sleepLine = false → s.startUp.isSome = true → exec (.frontTransaction d) s = .next waits) ∧
     (s.sleepLine = false → s.startUp = none → (s.power.op = .wakeDoze ∨ s.power.op = .wakeSleep) →
       exec (.frontTransaction d) s = .next waits) ∧
     (s.sleepLine = false → s.startUp = none → s.power.op = .noOp → s.power.state = .doze →
       exec (.frontTransaction d) s =
         .next { waits with power := { waits.power with op := .wakeDoze, opTimer := 0 } }) ∧
     (s.sleepLine = false → s.startUp = none → s.power.op = .noOp → s.power.state = .idle →
       exec (.frontTransaction d) s = .next (admitTxn (engine (enterPower u .active)) d.tag)))

/-- Admission refuses a span beyond U, or beyond C while the reserve view is closed, with OUT_OF_RANGE; and a transaction
with a refused segment with the status of the lowest-LBA refused one. Neither leaves a trace in any table (R5, R8). It is so
for an arrival in ACTIVE, and for a transaction that passes to admission later, in whatever state (R3, R11). -/
def Obligations.RefusedTransactionCompletes : Prop :=
  (∀ (s : State) (d : Descriptor) (c : FrontClass), ArrivesActive s d c → hasSpan c = true →
    (¬ SpanPasses s d →
      exec (.frontTransaction d) s = .next (closed (taken s d c .waiting) d.tag .outOfRange [] none)) ∧
    (SpanPasses s d → ∀ (pre : List Piece) (p : Piece) (post : List Piece) (st : Status),
      piecesOf s d c = pre ++ p :: post → decidePiece s c p = .refused st →
      (∀ q ∈ pre, ∀ st', decidePiece s c q ≠ .refused st') →
      exec (.frontTransaction d) s = .next (closed (taken s d c .waiting) d.tag st [] none))) ∧
  -- a transaction that passes to admission later
  (∀ (s : State) (d : Descriptor) (c : FrontClass), ArrivesActive s d c →
    exec (.frontTransaction d) s = .next (admitTxn (taken s d c .waiting) d.tag)) ∧
  (∀ (s : State) (d : Descriptor) (c : FrontClass), Stands s d c → hasSpan c = true →
    (¬ SpanPasses s d → admitTxn s d.tag = closed s d.tag .outOfRange [] none) ∧
    (SpanPasses s d → ∀ (pre : List Piece) (p : Piece) (post : List Piece) (st : Status),
      piecesOf s d c = pre ++ p :: post → decidePiece s c p = .refused st →
      (∀ q ∈ pre, ∀ st', decidePiece s c q ≠ .refused st') → admitTxn s d.tag = closed s d.tag st [] none))

/-- A transaction with no refused segment and a segment that touches a fence goes whole on the fence hold list while it holds
fewer than 8, and else completes RETRY; nothing is bound (R8, R10). It is so for an arrival in ACTIVE, and for a transaction
that passes to admission later, in whatever state (R3, R11). -/
def Obligations.FencedTransactionIsHeld : Prop :=
  (∀ (s : State) (d : Descriptor) (c : FrontClass), ArrivesActive s d c → hasSpan c = true → SpanPasses s d →
    (∀ p ∈ piecesOf s d c, ∀ st, decidePiece s c p ≠ .refused st) → (∃ p ∈ piecesOf s d c, decidePiece s c p = .hold) →
    let u := taken s d c .held
    (s.front.held.length < 8 →
      exec (.frontTransaction d) s = .next { u with front := { u.front with held := u.front.held ++ [d.tag] } }) ∧
    (8 ≤ s.front.held.length → exec (.frontTransaction d) s = .next (closed u d.tag .retry [] none))) ∧
  (∀ (s : State) (d : Descriptor) (c : FrontClass), Stands s d c → hasSpan c = true → SpanPasses s d →
    (∀ p ∈ piecesOf s d c, ∀ st, decidePiece s c p ≠ .refused st) → (∃ p ∈ piecesOf s d c, decidePiece s c p = .hold) →
    let u := standing s d c .held
    (s.front.held.length < 8 →
      admitTxn s d.tag = { u with front := { u.front with held := u.front.held ++ [d.tag] } }) ∧
    (8 ≤ s.front.held.length → admitTxn s d.tag = closed s d.tag .retry [] none))

/-- A transaction whose every segment is bound is admitted whole: one record for each segment, in LBA order; a WRITE segment
joins the traffic wait list, a READ or TRIM segment asks for a media tag; and each binding adds one to its slot's reference
count. Nothing else changes (R8, R9, R12, R15, R19, R50). A BLANK or DAMAGED segment beside bound ones has its record too,
retired, and asks for nothing (R7). It is so for an arrival in ACTIVE, and for a transaction that passes to admission later, in
whatever state (R3, R11). That the segments of one transaction join these lists in LBA order
is the model's choice (log entry 48). -/
def Obligations.BoundTransactionIsAdmitted : Prop :=
  (∀ (s : State) (d : Descriptor) (c : FrontClass), ArrivesActive s d c → hasSpan c = true → SpanPasses s d →
    (∀ p ∈ piecesOf s d c, ∃ slot, decidePiece s c p = .bound slot) →
    let ps := (piecesOf s d c).zipIdx s.front.nextSeg
    ∃ t, exec (.frontTransaction d) s = .next t ∧
      t = { taken s d c .admitted with front := t.front, arb := t.arb, media := t.media, slots := t.slots } ∧
      t.front = { (taken s d c .admitted).front with
        segs := s.front.segs ++ ps.map (boundSegment s d c), nextSeg := s.front.nextSeg + ps.length } ∧
      (c = .write → t.media = s.media ∧ t.arb = { s.arb with wait := s.arb.wait ++ ps.map (·.2) }) ∧
      (c ≠ .write → t.arb = s.arb ∧
        t.media = { s.media with waiting := s.media.waiting ++ ps.map (boundRequest s c) }) ∧
      (∀ i : SlotIx, t.slots[i] =
        if s.slots[i].state = .loaded then
          { s.slots[i] with count := s.slots[i].count +
              (piecesOf s d c).countP (fun p => decidePiece s c p = .bound (some i)) }
        else s.slots[i])) ∧
  -- a transaction with BLANK and DAMAGED segments beside bound ones, and one that passes to admission later
  (∀ (s : State) (d : Descriptor) (c : FrontClass), Stands s d c → hasSpan c = true → SpanPasses s d →
    (∀ p ∈ piecesOf s d c, (∀ st, decidePiece s c p ≠ .refused st) ∧ decidePiece s c p ≠ .hold) →
    (∃ p ∈ piecesOf s d c, isBound (decidePiece s c p) = true) →
    let ps := (piecesOf s d c).zipIdx s.front.nextSeg
    let bound := ps.filter (fun x => isBound (decidePiece s c x.1))
    let a := standing s d c .admitted
    ∃ t, admitTxn s d.tag = t ∧
      t = { a with front := t.front, arb := t.arb, media := t.media, slots := t.slots } ∧
      t.front = { a.front with
        segs := s.front.segs ++ ps.map (admittedSegment s d c), nextSeg := s.front.nextSeg + ps.length } ∧
      (c = .write → t.media = s.media ∧ t.arb = { s.arb with wait := s.arb.wait ++ bound.map (·.2) }) ∧
      (c ≠ .write → t.arb = s.arb ∧
        t.media = { s.media with waiting := s.media.waiting ++ bound.map (boundRequest s c) }) ∧
      (∀ i : SlotIx, t.slots[i] =
        if s.slots[i].state = .loaded then
          { s.slots[i] with count := s.slots[i].count +
              (piecesOf s d c).countP (fun p => decidePiece s c p = .bound (some i)) }
        else s.slots[i]))

/-- A READ that lies wholly in LOCKED ranges of read style BLANK completes OK at once with all blocks zero, and makes no lane
or media request (R12, R36). One that lies wholly in BLANK and DAMAGED segments completes at once too, MEDIA_ERROR where one
is DAMAGED (R4, R7). It is so for an arrival in ACTIVE, and for a transaction that passes to admission later, in whatever
state (R3, R11). -/
def Obligations.BlankReadCompletesWithZeros : Prop :=
  (∀ (s : State) (d : Descriptor), ArrivesActive s d .read → SpanPasses s d →
    (∀ g ∈ s.front.segs, g.owner ≠ some d.tag) → (∀ p ∈ piecesOf s d .read, decidePiece s .read p = .blank) →
    let u := closed (taken s d .read .admitted) d.tag .ok (List.replicate d.count.toNat 0) none
    exec (.frontTransaction d) s =
      .next { u with front := { u.front with nextSeg := s.front.nextSeg + (piecesOf s d .read).length } }) ∧
  (∀ (s : State) (d : Descriptor), Stands s d .read → SpanPasses s d →
    (∀ g ∈ s.front.segs, g.owner ≠ some d.tag) →
    (∀ p ∈ piecesOf s d .read, decidePiece s .read p = .blank ∨ decidePiece s .read p = .damaged) →
    let u := if ∃ p ∈ piecesOf s d .read, decidePiece s .read p = .damaged then closed s d.tag .mediaError [] none
      else closed s d.tag .ok (List.replicate d.count.toNat 0) none
    admitTxn s d.tag = { u with front := { u.front with nextSeg := s.front.nextSeg + (piecesOf s d .read).length } })

/-- A FLUSH is admitted without range checks: it waits for every WRITE and TRIM segment admitted and not retired, and with
none asks at once for its media flush, whose address and count of 0 are the model's (log entry 46). A CONTROL transaction
goes into service when the unit is idle, joins the control queue, or completes RETRY with 4 waiting (R22, R23, R174); an idle
unit that waits for a theft wipe's store writes takes it into the queue (the model's reading, log entry 21). It is so for an
arrival in ACTIVE, and for a transaction that passes to admission later, in whatever state (R3). -/
def Obligations.FlushAndControlAreAdmitted : Prop :=
  (∀ (s : State) (d : Descriptor) (c : FrontClass), ArrivesActive s d c →
    let busy := (s.front.segs.filter (fun g => (g.cls = .write || g.cls = .trim) && g.state ≠ .retired)).map (·.id)
    let u := taken s d c .control
    let waits := s.control.service.isSome = true ∨ s.control.queue ≠ [] ∨ theftOutstanding s = true
    (c = .flush → busy ≠ [] → exec (.frontTransaction d) s = .next (taken s d c (.flushWait busy))) ∧
    (c = .flush → busy = [] → exec (.frontTransaction d) s =
      .next { taken s d c .flushOut with
        media := { s.media with waiting := s.media.waiting ++ [⟨.flush, 0, 0, [], .flush d.tag⟩] } }) ∧
    (c = .control → s.control.service = none → s.control.queue = [] → theftOutstanding s = false →
      exec (.frontTransaction d) s =
        .next { u with control := { s.control with service := some ⟨some d.tag, d.block, .start⟩ } }) ∧
    (c = .control → waits → s.control.queue.length < 4 →
      exec (.frontTransaction d) s =
        .next { u with control := { s.control with queue := s.control.queue ++ [(d.tag, d.block)] } }) ∧
    (c = .control → waits → 4 ≤ s.control.queue.length →
      exec (.frontTransaction d) s = .next (closed u d.tag .retry [] none))) ∧
  (∀ (s : State) (d : Descriptor) (c : FrontClass), Stands s d c →
    let busy := (s.front.segs.filter (fun g => (g.cls = .write || g.cls = .trim) && g.state ≠ .retired)).map (·.id)
    let u := standing s d c .control
    let waits := s.control.service.isSome = true ∨ s.control.queue ≠ [] ∨ theftOutstanding s = true
    (c = .flush → busy ≠ [] → admitTxn s d.tag = standing s d c (.flushWait busy)) ∧
    (c = .flush → busy = [] → admitTxn s d.tag = { standing s d c .flushOut with
      media := { s.media with waiting := s.media.waiting ++ [⟨.flush, 0, 0, [], .flush d.tag⟩] } }) ∧
    (c = .control → ¬ waits → admitTxn s d.tag =
      { u with control := { s.control with service := some ⟨some d.tag, d.block, .start⟩ } }) ∧
    (c = .control → waits → s.control.queue.length < 4 → admitTxn s d.tag =
      { u with control := { s.control with queue := s.control.queue ++ [(d.tag, d.block)] } }) ∧
    (c = .control → waits → 4 ≤ s.control.queue.length → admitTxn s d.tag = closed s d.tag .retry [] none))

/-- The decision of a segment (R7): the first entry of its table that applies; what makes the pre-boot span, which is one
PREBOOT piece exactly then (R6, R96, R98, R99), and where it lies on the media; a DAMAGED or BLANK segment is no refusal, and
is admitted RETIRED with MEDIA_ERROR, or OK with zero-filled blocks, without a lane or a media request; and the law that the
order carries. -/
def Obligations.SegmentDecisionFollowsItsTable : Prop :=
  ∀ (s : State) (cls : FrontClass) (p : Piece), hasSpan cls = true →
    (p.place = .preboot → decidePiece s cls p =
      match cls with
      | .read => .bound (some 0)
      | .write => if s.regions.writeOpen then .bound (some 0) else .refused .locked
      | _ => .refused .locked) ∧
    (∀ r, p.place = .range r → decidePiece s cls p =
      let x := s.ranges[r]
      if cls = .read ∧ (x.lock = .opened ∨ x.lock = .readOnly) ∧ x.cond ≠ .draining ∧ x.cond ≠ .purging ∧
          (∃ e ∈ s.damaged, e.range = r ∧ p.start ≤ e.lba ∧ e.lba < p.start + p.len) then .damaged
      else if x.cond = .draining ∨ x.cond = .purging then .refused .rangeBusy
      else if x.lock = .locked then
        if cls = .read ∧ x.flags.style = .blank then .blank else .refused .locked
      else if x.lock = .readOnly ∧ (cls = .write ∨ cls = .trim) then .refused .locked
      else if x.cond = .migrating ∧
          (∃ f, x.mig.bind (·.fence) = some f ∧ f.start < p.start + p.len ∧ p.start < f.start + f.len) then .hold
      else .bound (match p.side with
        | some .below => x.mig.bind (·.nextSlot)
        | some .above => x.slot
        | none => x.slot)) ∧
    (∀ lo hi, ∀ q ∈ pieces s cls lo hi, q.place = .preboot →
      q.start + q.len ≤ s.dev.pbwLen ∧
        (windowOpen s = true ∨ (s.regions.writeOpen = true ∧ (cls = .write ∨ cls = .trim)))) ∧
    (∀ lo hi, lo < hi → lo < s.dev.pbwLen →
      (windowOpen s = true ∨ (s.regions.writeOpen = true ∧ (cls = .write ∨ cls = .trim))) →
      (pieces s cls lo hi).head? = some ⟨lo, min s.dev.pbwLen hi - lo, .preboot, none⟩ ∧
        ∀ q ∈ (pieces s cls lo hi).tail, q.place ≠ .preboot ∧ s.dev.pbwLen ≤ q.start) ∧
    (∀ r, p.place = .range r → (∀ st, decidePiece s cls p ≠ .refused st) →
      s.ranges[r].cond ≠ .draining ∧ s.ranges[r].cond ≠ .purging ∧
        ((cls = .write ∨ cls = .trim) → s.ranges[r].lock = .opened)) ∧
    (∀ l : List (Piece × Decision), (∀ x ∈ l, x.2 = .damaged ∨ x.2 = .blank ∨ ∃ b, x.2 = .bound b) →
      firstRefusal l = none) ∧
    (p.place = .preboot → mediaAddr s p = s.regions.n - 32832 + p.start) ∧
    (∀ t : FrontTag,
      let gone := fun (st : Status) (data : List Block) =>
        { s with front := { s.front with
          nextSeg := s.front.nextSeg + 1
          segs := s.front.segs ++ [⟨s.front.nextSeg, some t, cls, p.start, p.len, p.place, p.side, none,
            mediaAddr s p, .retired, st, data⟩] } }
      admitSeg t cls s (p, .damaged) = gone .mediaError [] ∧
        admitSeg t cls s (p, .blank) = gone .ok (List.replicate p.len 0))

/-- Resolution (R29): an LBA that some ACTIVE entry 1–15 contains resolves to one of them, the one of greatest start, then
smaller length, then lower index; any other resolves to range 0; and nothing but the ACTIVE entries' spans plays a part. -/
def Obligations.ResolutionFollowsPrecedence : Prop :=
  (∀ (s : State) (lba : Nat),
    ((∀ r : RangeIx, r ≠ 0 → containsLba s r lba = false) → resolve s lba = 0) ∧
    ((∃ r : RangeIx, r ≠ 0 ∧ containsLba s r lba = true) →
      resolve s lba ≠ 0 ∧ containsLba s (resolve s lba) lba = true ∧
      ∀ r : RangeIx, r ≠ 0 → r ≠ resolve s lba → containsLba s r lba = true →
        let x := s.ranges[r]
        let y := s.ranges[resolve s lba]
        x.start < y.start ∨ (x.start = y.start ∧ y.len < x.len) ∨
          (x.start = y.start ∧ x.len = y.len ∧ resolve s lba < r))) ∧
  (∀ (s t : State) (lba : Nat),
    (∀ r : RangeIx, r ≠ 0 → s.ranges[r].active = t.ranges[r].active ∧
      (s.ranges[r].active = true → s.ranges[r].start = t.ranges[r].start ∧ s.ranges[r].len = t.ranges[r].len)) →
    resolve s lba = resolve t lba)

/-- The segments of a transaction are contiguous, not empty, in LBA order and together cover the span; every block of a
range's segment resolves to that range; none straddles the ceiling or its range's watermark; and a segment of a MIGRATING
range is on the side of the watermark on which it lies, with no side for any other range (R6, R31, R142). -/
def Obligations.SegmentsCoverTheSpan : Prop :=
  ∀ (s : State) (cls : FrontClass) (lo hi : Nat), lo < hi →
    Covers lo hi (pieces s cls lo hi) ∧
    ∀ p ∈ pieces s cls lo hi, ∀ r, p.place = .range r →
      (∀ n, p.start ≤ n → n < p.start + p.len → resolve s n = r) ∧
      ¬ (p.start < s.regions.c ∧ s.regions.c < p.start + p.len) ∧
      (∀ m, s.ranges[r].active = true → s.ranges[r].cond = .migrating → s.ranges[r].mig = some m →
        ¬ (p.start < m.w ∧ m.w < p.start + p.len)) ∧
      p.side = (if s.ranges[r].cond = .migrating then
        s.ranges[r].mig.map (fun m => if p.start < m.w then Side.below else .above) else none)

/-- The pre-boot window is open exactly when PBW is enabled, its length is nonzero and range 0 is not OPEN, and depends on
nothing else (R97). -/
def Obligations.PrebootWindowIsOpenExactlyWhen : Prop :=
  (∀ s : State, windowOpen s = true ↔
    s.dev.pbwEnabled = true ∧ s.dev.pbwLen ≠ 0 ∧
      (s.ranges[(0 : RangeIx)].lock = .locked ∨ s.ranges[(0 : RangeIx)].lock = .readOnly)) ∧
  (∀ s t : State, s.dev.pbwEnabled = t.dev.pbwEnabled → s.dev.pbwLen = t.dev.pbwLen →
    s.ranges[(0 : RangeIx)].lock = t.ranges[(0 : RangeIx)].lock → windowOpen s = windowOpen t)

/-! ## Media, lanes and segments -/

/-- A link reset completes every unfinished transaction ABORTED and frees its tag; empties the hold list, the waiting list
and the control queue; drops the response of the request in service; ends the prepared state; closes the reserve view and
clears write-open. A segment of an aborted transaction that waits for a lane or a media tag leaves its list and retires,
dropping its slot reference; one that is in a lane or on the media stays, without a transaction. Every key and every other
reference stands (R24, R50, R56, R94). A RESERVE.OPEN whose checks have not begun ends, and any other request whose checks
have not begun stays in service; the completions go in tag order; a media FLUSH that still waits for a tag leaves the list
(the model's choices, log entries 6, 23 and 46). With power-good low the event is no step (log entry 3). -/
def Obligations.LinkResetEndsTransactions : Prop :=
  (∀ s : State, s.powered = false → exec .linkReset s = .next s) ∧
  ∀ s : State, s.powered = true → (s.front.segs.map (·.id)).Nodup →
    let ends := fun (g : Segment) (st : SegState) => g.owner.isSome && g.state = st
    let drops := fun (i : SlotIx) =>
      s.front.segs.countP (fun g => (ends g .laneWait || ends g .tagWait) && g.slot = some i)
    ∃ t, exec .linkReset s = .next t ∧
    t = { s with front := t.front, control := t.control, arb := t.arb, media := t.media, slots := t.slots
                 regions := t.regions } ∧
    t.front.sent = s.front.sent ++ (allTags.filter (fun x => s.front.tags[x].isSome)).map (fun x =>
      ⟨x, .aborted, s.journal.ring.any (fun e => !masked s.journal.mask e.event.kind), [], none⟩) ∧
    (∀ x : FrontTag, t.front.tags[x] = none) ∧ t.front.waiting = [] ∧ t.front.held = [] ∧
    t.front.nextSeg = s.front.nextSeg ∧
    t.front.segs = (s.front.segs.filter (fun g => !(ends g .laneWait || ends g .tagWait || ends g .retired))).map
      (fun g => { g with owner := none }) ∧
    (∀ i : SlotIx, t.slots[i] =
      if s.slots[i].state = .pendingZero ∧ 0 < drops i ∧ s.slots[i].count ≤ drops i then
        ⟨.empty, none, none, none, false, 0⟩
      else { s.slots[i] with count := s.slots[i].count - drops i }) ∧
    t.control = { s.control with
      queue := [], prepared := none
      service := match s.control.service with
        | some v =>
          if v.after = .start ∧ parse v.block = some .reserveOpen then none else some { v with tag := none }
        | none => none } ∧
    t.regions = { s.regions with reserveView := false, writeOpen := false } ∧
    t.arb = { s.arb with wait := s.arb.wait.filter (fun id => !s.front.segs.any (fun g => ends g .laneWait && g.id = id)) } ∧
    (∀ i : MediaTag, t.media.tags[i] =
      match s.media.tags[i] with
      | .busy q age => .busy (match q.who with | .flush _ => { q with who := .discard } | _ => q) age
      | .free => .free
      | .quarantined => .quarantined) ∧
    t.media.waiting = s.media.waiting.filter (fun q =>
      match q.who with
      | .flush _ => false
      | .seg id => !s.front.segs.any (fun g => ends g .tagWait && g.id = id)
      | _ => true)

/-- A media completion frees its BUSY tag and acts for the request: a READ segment's data goes to the segment, which asks for
a lane; any other segment retires OK, or MEDIA_ERROR on an error; a FLUSH completes (R20, R23). For a chunk in motion the
chunk goes on. A completion for a tag that is FREE stops the model (log entry 5), and one for a QUARANTINED tag frees it. -/
def Obligations.MediaCompletionActsForItsRequest : Prop :=
  ∀ (s : State) (t : MediaTag) (q : MediaReq) (age : Nat),
    let u := { s with media := { s.media with tags := s.media.tags.set t .free } }
    (s.media.tags[t] = .busy q age →
      (∀ id g, q.who = .seg id → segOf s id = some g →
        (exec (.mediaCompletion t .error) s = .next (retire u id .mediaError [])) ∧
        (∀ data, g.cls = .read → g.owner.isSome = true →
          exec (.mediaCompletion t (.ok data)) s = .next { u with
            front := { s.front with
              segs := s.front.segs.map (fun h => if h.id = id then { h with state := .laneWait, data := data } else h) }
            arb := { s.arb with wait := s.arb.wait ++ [id] } }) ∧
        (∀ data, ¬ (g.cls = .read ∧ g.owner.isSome = true) →
          exec (.mediaCompletion t (.ok data)) s = .next (retire u id .ok []))) ∧
      (∀ x, q.who = .flush x →
        (∀ data, exec (.mediaCompletion t (.ok data)) s = .next (closed u x .ok [] none)) ∧
        exec (.mediaCompletion t .error) s = .next (closed u x .mediaError [] none)) ∧
      (∀ x c, q.who = .sweep x → s.sweep.chunk = some c →
        (∀ data, exec (.mediaCompletion t (.ok data)) s = .next (chunkAnswer u c x (.ok data))) ∧
        exec (.mediaCompletion t .error) s = .next (chunkAnswer u c x .error)) ∧
      (q.who = .discard → ∀ res, exec (.mediaCompletion t res) s = .next u)) ∧
    (s.media.tags[t] = .quarantined → ∀ res, exec (.mediaCompletion t res) s = .next u) ∧
    (s.media.tags[t] = .free → ∀ res, exec (.mediaCompletion t res) s = .fault .completionWithoutRequest)

/-- When the one segment of a WRITE or TRIM retires, its transaction completes with the segment's status and frees its tag;
the segment's slot reference is dropped, the slot being zeroed where it was PENDING_ZERO with no other reference; and a
segment that retires OK removes the damaged entries of its range that it covers, the list being stored (R4, R13, R50, R56,
R145). In general a segment that retires leaves the wait sets of the FLUSH transactions, each of which asks for its media
flush once its set is empty (R23); its own transaction completes with the last retire, with the status of the lowest-LBA
segment that is not OK, or OK, and the data of an OK READ joined in LBA order (R4). Where several wait sets empty, they do so
in tag order (the model's choice, log entry 46). -/
def Obligations.LastSegmentCompletesItsTransaction : Prop :=
  (∀ (s : State) (t : MediaTag) (q : MediaReq) (age : Nat) (g : Segment) (x : FrontTag) (y : Txn) (res : MediaResult),
    s.media.tags[t] = .busy q age → q.who = .seg g.id → segOf s g.id = some g → segsOf s x = [g] →
    s.front.tags[x] = some y → y.cls = g.cls → (g.cls = .write ∨ g.cls = .trim) →
    let st := match res with | .ok _ => Status.ok | .error => .mediaError
    let gone := s.damaged.filter (fun d => g.place = .range d.range && g.start ≤ d.lba && d.lba < g.start + g.len)
    ∃ u, exec (.mediaCompletion t res) s = .next u ∧
      u = { s with front := u.front, media := u.media, slots := u.slots, damaged := u.damaged, writes := u.writes } ∧
      u.media.tags = s.media.tags.set t .free ∧
      u.front.tags[x] = none ∧ (∀ h ∈ u.front.segs, h.owner ≠ some x) ∧
      u.front.sent = s.front.sent ++
        [⟨x, st, s.journal.ring.any (fun e => !masked s.journal.mask e.event.kind), [], none⟩] ∧
      (∀ i : SlotIx, u.slots[i] =
        if g.slot = some i then
          if s.slots[i].state = .pendingZero ∧ s.slots[i].count ≤ 1 then ⟨.empty, none, none, none, false, 0⟩
          else { s.slots[i] with count := s.slots[i].count - 1 }
        else s.slots[i]) ∧
      (st = .ok → gone ≠ [] → u.damaged = s.damaged.filter (fun d => !gone.contains d) ∧
        u.writes = s.writes ++ [⟨.damaged gone [], .nothing, []⟩]) ∧
      ((st ≠ .ok ∨ gone = []) → u.damaged = s.damaged ∧ u.writes = s.writes)) ∧
  (∀ (s : State) (id : Nat) (st : Status) (data : List Block) (g : Segment) (x : FrontTag) (y : Txn),
    segOf s id = some g → g.owner = some x → s.front.tags[x] = some y → y.stage = .admitted →
    let gone := s.damaged.filter (fun d => g.place = .range d.range && g.start ≤ d.lba && d.lba < g.start + g.len)
    let clears : Bool := st = .ok && (g.cls = .write || g.cls = .trim) && !gone.isEmpty
    let segs := s.front.segs.map (fun h => if h.id = id then { h with state := .retired, status := st, data := data } else h)
    let mine := segs.filter (fun h => h.owner = some x)
    let final := ((mine.find? (fun h => h.status ≠ .ok)).map (·.status)).getD .ok
    let waits := fun (f : FrontTag) => match s.front.tags[f] with
      | some z => match z.stage with
        | .flushWait ids => if ids.contains id then some (ids.filter (· ≠ id)) else none
        | _ => none
      | none => none
    ∃ t, retire s id st data = t ∧
      t = { s with front := t.front, media := { s.media with waiting := t.media.waiting }, slots := t.slots
                   damaged := if clears then s.damaged.filter (fun d => !gone.contains d) else s.damaged
                   writes := if clears then s.writes ++ [⟨.damaged gone [], .nothing, []⟩] else s.writes } ∧
      (∀ i : SlotIx, t.slots[i] =
        if g.slot = some i then
          if s.slots[i].state = .pendingZero ∧ s.slots[i].count ≤ 1 then ⟨.empty, none, none, none, false, 0⟩
          else { s.slots[i] with count := s.slots[i].count - 1 }
        else s.slots[i]) ∧
      t.media.waiting = s.media.waiting ++
        (allTags.filter (fun f => waits f = some [])).map (fun f => ⟨.flush, 0, 0, [], .flush f⟩) ∧
      (∀ f : FrontTag, f ≠ x → t.front.tags[f] =
        match waits f with
        | some [] => s.front.tags[f].map (fun z => { z with stage := .flushOut })
        | some (i :: ids) => s.front.tags[f].map (fun z => { z with stage := .flushWait (i :: ids) })
        | none => s.front.tags[f]) ∧
      t.front.waiting = s.front.waiting ∧ t.front.held = s.front.held ∧ t.front.nextSeg = s.front.nextSeg ∧
      ((∀ h ∈ mine, h.state = .retired) →
        t.front.tags[x] = none ∧ t.front.segs = segs.filter (fun h => h.owner ≠ some x) ∧
        t.front.sent = s.front.sent ++
          [⟨x, final, s.journal.ring.any (fun e => !masked s.journal.mask e.event.kind),
            if y.cls = .read ∧ final = .ok then mine.flatMap (·.data) else [], none⟩]) ∧
      ((∃ h ∈ mine, h.state ≠ .retired) →
        t.front.tags[x] = some y ∧ t.front.segs = segs ∧ t.front.sent = s.front.sent))

/-- 2000 ms after the issue a media request times out: the tag is QUARANTINED, MEDIA_TIMEOUT is journaled, and the segment
retires LINK_TIMEOUT, the FLUSH completes LINK_TIMEOUT, or the chunk is told. Before that, and for a tag that is not BUSY,
the event is no step (log entry 3). The late completion frees the QUARANTINED tag and is otherwise discarded (R21); for a tag
that is FREE it stops the model (the model's choice, log entry 5). That the entry is journaled before the request is acted
for is the model's choice too (log entry 46). -/
def Obligations.TimedOutRequestIsQuarantined : Prop :=
  ∀ (s : State) (t : MediaTag),
    (∀ q age, s.media.tags[t] = .busy q age →
      let u := { s with media := { s.media with tags := s.media.tags.set t .quarantined } }
      let e : Event := { kind := .mediaTimeout, detail := .mediaTag t }
      (age < 2000000 → exec (.mediaTimeout t) s = .next s) ∧
      (2000000 ≤ age →
        (∀ id g, q.who = .seg id → segOf s id = some g →
          exec (.mediaTimeout t) s = .next (retire
            (raise u { e with range := match g.place with | .range r => some r | .preboot => none })
            id .linkTimeout [])) ∧
        (∀ x, q.who = .flush x → exec (.mediaTimeout t) s = .next (closed (raise u e) x .linkTimeout [] none)) ∧
        (∀ x c, q.who = .sweep x → s.sweep.chunk = some c → s.startUp = none →
          exec (.mediaTimeout t) s = .next (chunkAnswer (raise u { e with job := some c.job }) c x .timeout)))) ∧
    ((∀ q age, s.media.tags[t] ≠ .busy q age) → exec (.mediaTimeout t) s = .next s) ∧
    (s.media.tags[t] = .quarantined →
      exec (.lateCompletion t) s =
        .next { s with media := { s.media with tags := s.media.tags.set t .free } }) ∧
    (s.media.tags[t] = .free → exec (.lateCompletion t) s = .fault .completionWithoutRequest)

/-- A FREE media tag goes to the oldest waiting request, sweep requests being passed over while the sweep holds 8 BUSY tags;
the tag counts the time since the issue from 0, and a segment whose request is issued is ON_MEDIA (R12, R19). A FREE lane is
handed on by the first claim that applies: a RUNNING HOLD job with no dedicated lane; a waiting pass whose guard count is 64,
within the sweep cap; the oldest traffic segment; a waiting pass; a pass that takes one more lane; else it stays FREE. In
DOZE the lanes are off (R14, R16, R17, R18). That a pass that has asked starts on the lane as it becomes dedicated is the
model's reading (log entry 17). -/
def Obligations.FreeTagsAndLanesGoToTheFirstClaim : Prop :=
  (∀ (s : State) (t : MediaTag) (pre : List MediaReq) (q : MediaReq) (post : List MediaReq),
     s.media.tags[t] = .free → s.media.waiting = pre ++ q :: post →
     (∀ p ∈ pre, isSweep p = true ∧ 8 ≤ sweepBusy s) → (sweepBusy s < 8 ∨ isSweep q = false) →
     exec (.mediaTagGrant t) s = .next { s with
       media := ⟨s.media.tags.set t (.busy q 0), pre ++ post⟩
       front := { s.front with segs := match q.who with
         | .seg id => s.front.segs.map (fun g => if g.id = id then { g with state := .onMedia } else g)
         | _ => s.front.segs } }) ∧
  (∀ (s : State) (l : LaneIx), s.arb.lanes[l] = .free →
     let room := sweepLanes s < sweepCap s
     let holds := holdRunning s = true ∧ s.arb.dedicated = none
     let pass := s.arb.lanes.set l (.granted .pass)
     let toPass := { s with arb := { s.arb with lanes := pass, waitingPass := false, guard := 0 } }
     (s.power.state = .doze → exec (.laneGrant l) s = .next s) ∧
     (s.power.state ≠ .doze → holds →
       exec (.laneGrant l) s = .next { s with arb := { s.arb with
         dedicated := some l
         lanes := if passAsked s = true ∧ passLanes s = 0 then pass else s.arb.lanes.set l .dedicated } }) ∧
     (s.power.state ≠ .doze → ¬ holds → s.arb.waitingPass = true → s.arb.guard = 64 → room →
       exec (.laneGrant l) s = .next toPass) ∧
     (s.power.state ≠ .doze → ¬ holds → ¬ (s.arb.waitingPass = true ∧ s.arb.guard = 64 ∧ room) →
       ∀ id rest, s.arb.wait = id :: rest →
         exec (.laneGrant l) s = .next { s with
           arb := { s.arb with
             lanes := s.arb.lanes.set l (.granted (.seg id)), wait := rest
             guard := if s.arb.waitingPass then min 64 (s.arb.guard + 1) else s.arb.guard }
           front := { s.front with
             segs := s.front.segs.map (fun g => if g.id = id then { g with state := .inLane } else g) } }) ∧
     (s.power.state ≠ .doze → ¬ holds → s.arb.wait = [] → s.arb.waitingPass = true → room →
       exec (.laneGrant l) s = .next toPass) ∧
     (s.power.state ≠ .doze → ¬ holds → s.arb.wait = [] → s.arb.waitingPass = false → 0 < passLanes s → room →
       exec (.laneGrant l) s = .next { s with arb := { s.arb with lanes := pass } }) ∧
     (s.power.state ≠ .doze → ¬ holds → s.arb.wait = [] →
       (¬ room ∨ (s.arb.waitingPass = false ∧ passLanes s = 0)) → exec (.laneGrant l) s = .next s))

/-- The end of a traffic segment's pass frees its lane: a WRITE's data, enciphered under the bound key, asks for a media tag;
a READ's data is deciphered and the segment retires OK; a segment whose transaction a link reset has ended retires without a
media request (R12, R24), with the status ABORTED (the model's choice, log entry 39). -/
def Obligations.LanePassEndFreesTheLane : Prop :=
  ∀ (s : State) (l : LaneIx) (g : Segment) (data : List Block),
    s.arb.lanes[l] = .granted (.seg g.id) → segOf s g.id = some g →
    let u := { s with arb := { s.arb with lanes := s.arb.lanes.set l .free } }
    let key := g.slot.bind (fun i => s.slots[i].key)
    let out := passData Config.encipher key g.addr data
    (g.cls = .write → g.owner.isSome = true →
      exec (.lanePassEnd l data) s = .next { u with
        front := { s.front with
          segs := s.front.segs.map (fun h => if h.id = g.id then { h with state := .tagWait, data := out } else h) }
        media := { s.media with waiting := s.media.waiting ++ [⟨.write, g.addr, g.len, out, .seg g.id⟩] } }) ∧
    (g.cls = .read → g.owner.isSome = true →
      exec (.lanePassEnd l data) s = .next (retire u g.id .ok (passData Config.decipher key g.addr g.data))) ∧
    (g.owner = none → exec (.lanePassEnd l data) s = .next (retire u g.id .aborted []))

/-- A re-key chunk runs from its reads to its end (R144, R145, R146, R147, R148, R149, R151). Each answered request is one
fewer outstanding; a READ that fails is read again block by block, a home WRITE that fails is issued once more, and any other
failure marks the chunk with its cause, the first that came. With the last read answered the unreadable blocks are checked
against the damaged list, in rising LBA (the model's order, log entry 46), and the pass asks for lanes; its end releases them
and writes the runs, deciphered and enciphered again, to the staging area; then the damaged entries, the staged record, the
runs at home and the checkpoint follow one another, each on the completion of the last. An answered chunk stands in motion
while requests are outstanding, and then goes on as the chunk in motion does; a READ that delivers fewer blocks than it
counts leaves the rest unreadable (the model's choice, log entry 25). The end of the chunk clears the fence, releases the
hold list, drops both references and leaves the job at a boundary (R11, R58), in this order (the model's reading, log entry
32). A failed chunk undoes its home writes and ends with W unchanged. That the requests of one event join the waiting list in
rising LBA is the model's choice (log entry 48), and that a home WRITE issued once more joins its tail is the model's reading
(log entry 18). -/
def Obligations.RekeyChunkRunsToItsEnd : Prop :=
  ∀ (s : State) (c : Chunk) (b : Job), s.sweep.chunk = some c → c.kind = .rekey → jobAt s c.job = some b →
    let less := fun (d : Chunk) => { d with outstanding := c.outstanding - 1 }
    let w := c.start + c.len
    let checkpoint := if clippedEnd s c.range ≤ w then StoreOp.rangeComplete c.range w else .rangeCheckpoint c.range w
    let stagedOp := StoreOp.rangeStaged c.range ⟨c.range, c.start, c.len, c.runs⟩
    let unfenced := { s with
      ranges := s.ranges.set c.range { s.ranges[c.range] with
        mig := s.ranges[c.range].mig.map (fun m => { m with fence := none }) }
      sweep := { s.sweep with chunk := none } }
    -- the answers
    ((∀ x data, chunkAnswer s c (.read x) (.ok data) = chunkGoOn s (less { c with
        blocks := c.blocks ++ (List.range x.len).map (fun i => (x.start + i, data[i]?)) })) ∧
      (∀ n y ys, chunkAnswer s c (.readBlock n) (.ok (y :: ys)) =
        chunkGoOn s (less { c with blocks := c.blocks ++ [(n, some y)] })) ∧
      (∀ n, chunkAnswer s c (.readBlock n) (.ok []) = chunkGoOn s (less { c with blocks := c.blocks ++ [(n, none)] })) ∧
      (∀ n, chunkAnswer s c (.readBlock n) .error = chunkGoOn s (less { c with blocks := c.blocks ++ [(n, none)] })) ∧
      (∀ x, chunkAnswer s c (.read x) .error =
        chunkState s { c with outstanding := c.outstanding - 1 + x.len }
          ((blocksOf x).map (fun n => ⟨.read, n, 1, [], .sweep (.readBlock n)⟩)) []) ∧
      (∀ x data, chunkAnswer s c (.staging x) (.ok data) = chunkGoOn s (less c)) ∧
      (∀ x again data, chunkAnswer s c (.home x again) (.ok data) =
        chunkGoOn s (less { c with homeOk := c.homeOk ++ [x] })) ∧
      (∀ x, chunkAnswer s c (.home x false) .error =
        chunkState s c [⟨.write, x.start, x.len, runData c x, .sweep (.home x true)⟩] []) ∧
      (∀ x a, chunkAnswer s c (.undo x) a = chunkGoOn s (less c)) ∧
      (∀ q a cause, RekeyFails q a cause →
        chunkAnswer s c q a = chunkGoOn s (less { c with fail := some (c.fail.getD cause) }))) ∧
    (∀ d : Chunk, chunkGoOn s d = chunkGoOn { s with sweep := { s.sweep with chunk := some d } } d) ∧
    (∀ d : Chunk, d.outstanding ≠ 0 → chunkGoOn s d = { s with sweep := { s.sweep with chunk := some d } }) ∧
    (c.outstanding ≠ 0 → chunkGoOn s c = s) ∧
    -- the damaged check and the pass
    (c.outstanding = 0 → c.phase = .reading →
      let need := (neededDamage s c)
      (∀ n, n ∈ need ↔ (n, none) ∈ c.blocks ∧ (⟨c.range, n⟩ : Damage) ∉ s.damaged) ∧ need.Pairwise (· < ·) ∧
      (∀ k, c.fail = some k → chunkGoOn s c = endRekey s c (.stalled k)) ∧
      (c.fail = none → 16 < s.damaged.length + need.length →
        chunkGoOn s c = endRekey s { c with fail := some .damageFull } (.stalled .damageFull)) ∧
      (c.fail = none → s.damaged.length + need.length ≤ 16 →
        chunkGoOn s c = askLanes (chunkState s { c with phase := .pass, newDamage := need } [] []) b.policy)) ∧
    (c.phase = .pass → 0 < passLanes s →
      let key := fun (i : Option SlotIx) => i.bind (fun i => s.slots[i].key)
      let d := { c with
        phase := .staging, outstanding := c.runs.length
        fresh := ((c.runs.flatMap blocksOf).filterMap (fun n => c.blocks.find? (fun y => y.1 = n))).map
          (rekeyBlock (key c.curSlot) (key c.nextSlot)) }
      (∀ n x k k', rekeyBlock (some k) (some k') (n, some x) =
          (n, Config.encipher k' n (Config.decipher k n x)) ∧
        rekeyBlock (some k) (some k') (n, none) = (n, Config.encipher k' n 0)) ∧
      ∃ t, exec .chunkPassEnd s = .next t ∧ PassReleased s.arb t.arb ∧
        t = { chunkState s d (c.runs.map (fun x =>
          ⟨.write, s.regions.n - 64 + (x.start - c.start), x.len, runData d x, .sweep (.staging x)⟩)) [] with
          arb := t.arb }) ∧
    -- staging, home and undo
    (c.outstanding = 0 → c.phase = .staging →
      (∀ k, c.fail = some k → chunkGoOn s c = endRekey s c (.stalled k)) ∧
      (c.fail = none → c.newDamage = [] → chunkGoOn s c = chunkState s { c with phase := .stagedStore } [] [stagedOp]) ∧
      (c.fail = none → c.newDamage ≠ [] →
        let add : List Damage := c.newDamage.map (fun n => ⟨c.range, n⟩)
        chunkGoOn s c = { chunkState s { c with phase := .damageStore } [] [.damaged [] add] with
          damaged := s.damaged ++ add })) ∧
    (c.outstanding = 0 → c.phase = .home →
      let spans := (c.runs.filter c.homeOk.contains).flatMap (readSpans c)
      (c.fail = none → chunkGoOn s c = chunkState s { c with phase := .checkpoint } [] [checkpoint]) ∧
      (c.fail ≠ none → spans = [] →
        chunkGoOn s c = chunkState s { c with phase := .undoStore } [] [.rangeUnstage c.range]) ∧
      (c.fail ≠ none → spans ≠ [] →
        chunkGoOn s c = chunkState s { c with phase := .undo, outstanding := spans.length }
          (spans.map (fun x => ⟨.write, x.start, x.len, originalData c x, .sweep (.undo x)⟩)) [])) ∧
    (c.outstanding = 0 → c.phase = .undo →
      chunkGoOn s c = chunkState s { c with phase := .undoStore } [] [.rangeUnstage c.range]) ∧
    -- the stores
    (c.phase = .damageStore → chunkStored s = chunkState
      (raiseAll s (c.newDamage.map (fun n =>
        { kind := .damageRecorded, range := some c.range, job := some c.job, detail := .lba n })))
      { c with phase := .stagedStore } [] [stagedOp]) ∧
    (c.phase = .stagedStore → chunkStored s = chunkState s { c with phase := .home, outstanding := c.runs.length }
      (c.runs.map (fun x => ⟨.write, x.start, x.len, runData c x, .sweep (.home x false)⟩)) []) ∧
    (∀ m, c.phase = .checkpoint → s.ranges[c.range].mig = some m →
      (w < clippedEnd s c.range ∨ s.ranges[c.range].cond ≠ .migrating → chunkStored s = endRekey { s with
        ranges := s.ranges.set c.range { s.ranges[c.range] with mig := some { m with w := w } }
        sweep := { s.sweep with jobs := s.sweep.jobs.set c.job (.job { b with lba := w }) } } c .went) ∧
      (clippedEnd s c.range ≤ w → s.ranges[c.range].cond = .migrating → ∃ u, chunkStored s = endRekey u c .went ∧
        u = { s with ranges := u.ranges, slots := u.slots, sweep := { s.sweep with
          jobs := s.sweep.jobs.set c.job (.job { b with pos := b.pos + 1, lba := w }) } } ∧
        MigrationEnded s u c.range m)) ∧
    (∀ k, c.phase = .undoStore → c.fail = some k → chunkStored s = endRekey s c (.stalled k)) ∧
    -- the end
    (∀ e, endRekey s c e =
      engine (settleTurn (dropOpt (dropOpt (releaseHeld unfenced) c.curSlot) c.nextSlot) c.job e)) ∧
    releaseHeld unfenced = s.front.held.foldl admitTxn { unfenced with front := { s.front with held := [] } }

/-- A PURGE chunk runs from its taking to its end (R16, R127, R128, R129, R130). The chunk is the next of the range under the
cursor, clipped at its end, with the runs that resolve to the range; its pass asks for lanes under the job's policy: a HOLD
job's starts on the dedicated lane, a YIELD job's waits for one. A chunk with no runs goes straight to its checkpoint. Its
pass ends with one WRITE of fill for each run: zeros, ones, or fresh random blocks (free values, log entry 10). A WRITE that
fails is issued once more; a second failure marks the chunk failed, and a timeout stalls it. With every WRITE answered OK the
checkpoint is stored, or, at the end of a range that no other live PURGE job names, the STEADY record; the cursor moves at
its completion. Whether another job names the range is judged at the issue of the checkpoint and, where one did, again at its
completion: where none does any more, the STEADY record follows it, and the chunk ends with that (R39; the moments are the
model's choice, log entry 36). A chunk that failed or stalled stores nothing: its job becomes FAILED, whatever else failed,
or STALLED (R129). The end of the chunk leaves the job at a boundary; a job whose cursor an event has taken off the range
keeps it (log entry 41). That the WRITEs of several runs join the waiting list in rising LBA is the model's choice (log entry
48), and that one issued once more joins its tail is the model's reading (log entry 18). -/
def Obligations.PurgeChunkRunsToItsEnd : Prop :=
  (∀ (s : State) (j : JobNo) (b : Job) (r : RangeIx),
    let len := min b.chunkSize (clippedEnd s r - b.lba)
    let runs := runsOf s r b.lba (b.lba + len)
    let c : Chunk :=
      { job := j, kind := .purge, range := r, start := b.lba, len := len, runs := runs, phase := .pass, outstanding := 0
        blocks := [], fresh := [], fail := none, failedTwice := false, homeOk := [], newDamage := []
        curSlot := none, nextSlot := none }
    let final := clippedEnd s r ≤ b.lba + len ∧ purgeNames s (some j) r = false
    (runs ≠ [] → takePurge s j b r = askLanes (chunkState s c [] []) b.policy) ∧
    (runs = [] → final → takePurge s j b r = chunkState s { c with phase := .fillStore true } [] [.rangeSteady r]) ∧
    (∀ p, runs = [] → ¬ final → b.pattern = some p → takePurge s j b r =
      chunkState s { c with phase := .fillStore false } [] [.rangePurge r ⟨b.lba + len, ⟨b.level, b.policy, p⟩⟩]) ∧
    askLanes s .yielding = { s with arb := { s.arb with waitingPass := true } } ∧
    (∀ l, s.arb.dedicated = some l → s.arb.lanes[l] = .dedicated →
      askLanes s .holding = { s with arb := { s.arb with lanes := s.arb.lanes.set l (.granted .pass) } }) ∧
    ((∀ l, s.arb.dedicated = some l → s.arb.lanes[l] ≠ .dedicated) → askLanes s .holding = s)) ∧
  ∀ (s : State) (c : Chunk) (b : Job), s.sweep.chunk = some c → c.kind = .purge → jobAt s c.job = some b →
    let less := fun (d : Chunk) => { d with outstanding := c.outstanding - 1 }
    let ended := { s with sweep := { s.sweep with chunk := none } }
    let lba := c.start + c.len
    let final := clippedEnd s c.range ≤ lba ∧ purgeNames s (some c.job) c.range = false
    let owed := s.ranges[c.range].cond = .purging ∧ cursorRange b = some c.range ∧ final
    (c.phase = .pass → 0 < passLanes s → ∃ t d, exec .chunkPassEnd s = .next t ∧ PassReleased s.arb t.arb ∧
      t = { chunkState s d (c.runs.map (fun x =>
        ⟨.write, x.start, x.len, runData d x, .sweep (.fill x false)⟩)) [] with arb := t.arb, fresh := t.fresh } ∧
      d = { c with phase := .fillWrite, outstanding := c.runs.length, fresh := d.fresh } ∧
      d.fresh.map (·.1) = c.runs.flatMap blocksOf ∧
      (b.pattern = some .zeros → ∀ y ∈ d.fresh, y.2 = 0) ∧
      (b.pattern = some .ones → ∀ y ∈ d.fresh, y.2 = BitVec.allOnes 32768) ∧
      (b.pattern = some .random → t.fresh = s.fresh + d.fresh.length ∧
        ∀ n (h : n < d.fresh.length), d.fresh[n].2 = Config.randomBlock (s.fresh + n))) ∧
    (∀ x again data, chunkAnswer s c (.fill x again) (.ok data) = chunkGoOn s (less c)) ∧
    (∀ x, chunkAnswer s c (.fill x false) .error =
      chunkState s c [⟨.write, x.start, x.len, runData c x, .sweep (.fill x true)⟩] []) ∧
    (∀ x, chunkAnswer s c (.fill x true) .error = chunkGoOn s (less { c with failedTwice := true })) ∧
    (∀ x again, chunkAnswer s c (.fill x again) .timeout =
      chunkGoOn s (less { c with fail := some (c.fail.getD .linkTimeout) })) ∧
    (∀ d : Chunk, chunkGoOn s d = chunkGoOn { s with sweep := { s.sweep with chunk := some d } } d) ∧
    (∀ d : Chunk, d.outstanding ≠ 0 → chunkGoOn s d = { s with sweep := { s.sweep with chunk := some d } }) ∧
    (c.outstanding ≠ 0 → chunkGoOn s c = s) ∧
    (c.outstanding = 0 → c.phase = .fillWrite →
      (c.failedTwice = true → chunkGoOn s c = engine (settleTurn ended c.job .failed)) ∧
      (∀ k, c.failedTwice = false → c.fail = some k → chunkGoOn s c = engine (settleTurn ended c.job (.stalled k))) ∧
      (c.failedTwice = false → c.fail = none → final →
        chunkGoOn s c = chunkState s { c with phase := .fillStore true } [] [.rangeSteady c.range]) ∧
      (∀ p, c.failedTwice = false → c.fail = none → ¬ final → b.pattern = some p →
        chunkGoOn s c = chunkState s { c with phase := .fillStore false } []
          [.rangePurge c.range ⟨lba, ⟨b.level, b.policy, p⟩⟩])) ∧
    (c.phase = .fillStore false → owed →
      chunkStored s = chunkState s { c with phase := .fillStore true } [] [.rangeSteady c.range]) ∧
    (∀ done, c.phase = .fillStore done → (done = true ∨ ¬ owed) →
      chunkStored s = engine (settleTurn { s with
        ranges := if done = true ∧ s.ranges[c.range].cond = .purging then
          s.ranges.set c.range { s.ranges[c.range] with cond := .steady } else s.ranges
        sweep := { s.sweep with
          chunk := none
          jobs := s.sweep.jobs.set c.job (.job
            (if cursorRange b ≠ some c.range then b
            else if clippedEnd s c.range ≤ lba then
              { b with
                pos := b.pos + 1
                lba := match b.ranges[b.pos + 1]? with
                  | some r =>
                    if b.recreated then ((s.store.ranges[r].purge).map (·.lba)).getD (rangeStart s r) else rangeStart s r
                  | none => lba }
            else { b with lba := lba })) } } c.job .went))

/-! ## Store, fence and drain -/

/-- A store write in flight completes: the record holds the new value, and the write that follows it is issued; a write of
the request in service lets it go on, and a write of the chunk in motion the chunk. The completing store of a REKEY job made
with no chunk ends the migration, and the job is at a boundary; the STEADY store of a PURGE job made with no chunk makes its
range STEADY and moves the job past it, and settles it where that was its last (R127, R128, R151). That it does so whatever
state the job has come to meanwhile is the model's choice (log entry 15). With no write in flight the event is no step (R182;
log entry 3). The clauses on applyOp say what each write leaves in its record (R41 to R44, R89, R91, R96, R109, R111, R128,
R141, R145, R148, R149, R151, R153): the fields that its rule names, in the record as it stands at the completion (the
model's reading, log entry 7; a completing store on a DRAINING range is R153's checkpoint, log entry 15). But for RANGE.DEFINE's
and RANGE.DELETE's, a write of a range record changes an ACTIVE record and leaves a FREE one as it is, and no intent is
stored for a FREE entry (the model's choice, log entry 41). The stored intent list keeps the order in which the list in force
added its entries, whichever of their writes completes first (R109). -/
def Obligations.StoreWriteCompletionChangesTheRecord : Prop :=
  ∀ s : State,
    let record := fun (r : RangeIx) (f : RangeRecord → RangeRecord) =>
      { s.store with ranges := s.store.ranges.set r (f s.store.ranges[r]) }
    (s.writes = [] → exec .storeWriteCompletion s = .next s) ∧
    (∀ op rest, s.startUp = none → s.writes = ⟨op, .nothing, []⟩ :: rest →
      exec .storeWriteCompletion s = .next { s with store := applyOp s op, writes := rest }) ∧
    (∀ op x more rest, s.startUp = none → s.writes = ⟨op, .nothing, x :: more⟩ :: rest →
      exec .storeWriteCompletion s =
        .next { s with store := applyOp s op, writes := rest ++ [⟨x.1, x.2, more⟩] }) ∧
    (∀ op rest c, s.startUp = none → s.sweep.chunk = some c → s.writes = ⟨op, .chunk, []⟩ :: rest →
      exec .storeWriteCompletion s = .next (chunkStored { s with store := applyOp s op, writes := rest })) ∧
    (∀ op rest e, s.startUp = none → s.writes = ⟨op, .report e, []⟩ :: rest →
      exec .storeWriteCompletion s = .next (raise { s with store := applyOp s op, writes := rest } e)) ∧
    (∀ op rest, s.startUp = none → s.writes = ⟨op, .control, []⟩ :: rest →
      let t := { s with store := applyOp s op, writes := rest }
      exec .storeWriteCompletion s = .next (startUpGoesOn (finishService t)) ∧
      (s.control.service = none → exec .storeWriteCompletion s = .next t)) ∧
    (∀ op r w rest, s.startUp = none → s.writes = ⟨op, .completing r w, []⟩ :: rest →
      let sweep := { s.sweep with completing := s.sweep.completing.filter (· ≠ r) }
      let t := { s with store := applyOp s op, writes := rest, sweep := sweep }
      (rekeyOf s r = none → exec .storeWriteCompletion s = .next t) ∧
      (∀ j b m, rekeyOf s r = some j → jobAt s j = some b → s.ranges[r].mig = some m →
        (s.ranges[r].cond = .migrating →
          ∃ u, exec .storeWriteCompletion s = .next (engine (settleTurn u j .went)) ∧ MigrationEnded s u r m ∧
            u = { t with ranges := u.ranges, slots := u.slots, sweep := { sweep with
              jobs := s.sweep.jobs.set j (.job { b with pos := b.pos + 1, lba := w }) } }) ∧
        (s.ranges[r].cond ≠ .migrating → exec .storeWriteCompletion s = .next (engine (settleTurn { t with
          ranges := s.ranges.set r { s.ranges[r] with mig := some { m with w := w } }
          sweep := { sweep with jobs := s.sweep.jobs.set j (.job { b with lba := w }) } } j .went))))) ∧
    (∀ op r j rest, s.startUp = none → s.writes = ⟨op, .purged r j, []⟩ :: rest →
      let sweep := { s.sweep with completing := s.sweep.completing.filter (· ≠ r) }
      let t := { s with store := applyOp s op, writes := rest, sweep := sweep }
      let u := { t with ranges := s.ranges.set r { s.ranges[r] with cond := .steady } }
      let ends := s.ranges[r].cond = .purging ∧ purgeNames s (some j) r = false
      let under := fun (b : Job) => b.kind = .purge ∧ finished b = false ∧ cursorRange b = some r
      (¬ ends → exec .storeWriteCompletion s = .next t) ∧
      (∀ b, ends → jobAt s j = some b → under b →
        let v := { u with sweep := { sweep with jobs := s.sweep.jobs.set j (.job (pastRange u b)) } }
        exec .storeWriteCompletion s =
          .next (engine (if b.ranges.length ≤ b.pos + 1 then settleTurn v j .went else v))) ∧
      (ends → (∀ b, jobAt s j = some b → ¬ under b) → exec .storeWriteCompletion s = .next (engine u))) ∧
    (∀ b : Job, pastRange s b = { b with
      pos := b.pos + 1
      lba := match b.ranges[b.pos + 1]? with
        | some r => if b.recreated then ((s.store.ranges[r].purge).map (·.lba)).getD (rangeStart s r) else rangeStart s r
        | none => b.lba }) ∧
    (∀ p : DevPatch, applyOp s (.device p) = { s.store with device :=
      { systemKey := p.systemKey <|> s.store.device.systemKey
        ceiling := p.ceiling.getD s.store.device.ceiling
        pbwLen := (p.pbw.map (·.1)).getD s.store.device.pbwLen
        pbwEnabled := (p.pbw.map (·.2)).getD s.store.device.pbwEnabled
        policy := p.policy.getD s.store.device.policy
        idle := (p.intervals.map (·.1)).getD s.store.device.idle
        doze := (p.intervals.map (·.2)).getD s.store.device.doze
        strikes := p.strikes.getD s.store.device.strikes
        lockedStarts := p.lockedStarts.getD s.store.device.lockedStarts
        lastCause := p.lastCause.getD s.store.device.lastCause } }) ∧
    (∀ (c : CredIx) (r : CredRecord), applyOp s (.cred c r) = { s.store with creds := s.store.creds.set c r }) ∧
    (∀ r start len flags gen key, applyOp s (.rangeDefine r start len flags gen key) =
      record r (fun _ => ⟨true, start, len, flags, gen, some key, .steady, none, none⟩)) ∧
    (∀ r, applyOp s (.rangeFree r) = record r (fun x =>
      ⟨false, 0, 0, ⟨.refuse, false, false, false, false⟩, x.gen, none, .steady, none, none⟩)) ∧
    (∀ r : RangeIx, s.store.ranges[r].active = true →
      (∀ flags, applyOp s (.rangeFlags r flags) = record r (fun x => { x with flags := flags })) ∧
      (∀ m, applyOp s (.rangeMigrate r m) = record r (fun x => { x with cond := .migrating, mig := some m })) ∧
      (∀ g, applyOp s (.rangeStaged r g) =
        record r (fun x => { x with mig := x.mig.map (fun m => { m with staged := some g }) })) ∧
      (∀ w, applyOp s (.rangeCheckpoint r w) =
        record r (fun x => { x with mig := x.mig.map (fun m => { m with w := w, staged := none }) })) ∧
      (applyOp s (.rangeUnstage r) =
        record r (fun x => { x with mig := x.mig.map (fun m => { m with staged := none }) })) ∧
      (∀ w m, s.store.ranges[r].mig = some m → s.ranges[r].cond ≠ .draining → applyOp s (.rangeComplete r w) =
        record r (fun x => { x with key := some m.nextKey, gen := x.gen + 1, cond := .steady, mig := none })) ∧
      (∀ w, s.ranges[r].cond = .draining → applyOp s (.rangeComplete r w) = applyOp s (.rangeCheckpoint r w)) ∧
      (∀ gen key, applyOp s (.rangeDrained r gen key none) =
        record r (fun x => { x with gen := gen, key := some key, mig := none, cond := .steady, purge := none })) ∧
      (∀ gen key o, applyOp s (.rangeDrained r gen key (some o)) = record r (fun x =>
        { x with gen := gen, key := some key, mig := none, cond := .purging, purge := some ⟨rangeStart s r, o⟩ })) ∧
      (∀ p, applyOp s (.rangePurge r p) = record r (fun x => { x with purge := some p })) ∧
      (applyOp s (.rangeSteady r) = record r (fun x => { x with cond := .steady, purge := none }))) ∧
    (∀ r : RangeIx, s.store.ranges[r].active = false →
      (∀ flags, applyOp s (.rangeFlags r flags) = s.store) ∧ (∀ m, applyOp s (.rangeMigrate r m) = s.store) ∧
      (∀ g, applyOp s (.rangeStaged r g) = s.store) ∧ (∀ w, applyOp s (.rangeCheckpoint r w) = s.store) ∧
      (applyOp s (.rangeUnstage r) = s.store) ∧ (∀ w, applyOp s (.rangeComplete r w) = s.store) ∧
      (∀ gen key o, applyOp s (.rangeDrained r gen key o) = s.store) ∧ (∀ p, applyOp s (.rangePurge r p) = s.store) ∧
      (applyOp s (.rangeSteady r) = s.store)) ∧
    (∀ remove drop add,
      let left := (s.store.intents.filter (fun e => !remove.contains e.range)).map
        (fun e => if drop.contains e.range then { e with purge := none } else e)
      let brought := (add.filter (fun e => s.ranges[e.range].active)).map (fun e => { e with stored := true })
      let order := s.intents.map (·.range)
      let later := fun (a b : Intent) => [a.range, b.range].Sublist order
      ∃ l, applyOp s (.intents remove drop add) = { s.store with intents := l } ∧ l.Perm (left ++ brought) ∧
        (order.Nodup → (left.map (·.range)).Sublist order → ((left ++ brought).map (·.range)).Nodup →
          (∀ e ∈ brought, e.range ∈ order) → (l.map (·.range)).Sublist order) ∧
        ((∀ e ∈ brought, ∀ x ∈ left, ¬ later e x) → brought.Pairwise (fun a b => ¬ later b a) →
          l = left ++ brought)) ∧
    (∀ remove add, applyOp s (.damaged remove add) =
      { s.store with damaged := s.store.damaged.filter (fun d => !remove.contains d) ++ add }) ∧
    (∀ r, applyOp s (.damagedRange r) =
      { s.store with damaged := s.store.damaged.filter (fun d => d.range ≠ r) })

/-- A RUNNING REKEY job at its boundary sets its fence over the next chunk once no segment of the range overlaps it: the
fence is set, both slots the range names are bound, and one READ is issued for each run, in rising LBA (the model's order,
log entry 48); a chunk with no runs goes straight to its checkpoint store (R143, R58, R148, R151). While a segment of the
range that has not retired overlaps the chunk, the job waits: the command is no step (R143, log entry 3). -/
def Obligations.FenceIsSetOverTheNextChunk : Prop :=
  ∀ (s : State) (j : JobNo) (b : Job) (r : RangeIx) (m : MigRec),
    freeToRun s = true → s.sweep.chunk = none → s.power.dozeDue = false →
    runningJob s = some j → jobAt s j = some b → b.kind = .rekey → cursorRange b = some r →
    s.ranges[r].cond = .migrating → s.ranges[r].lock ≠ .locked → s.ranges[r].mig = some m →
    b.lba < clippedEnd s r →
    let f : Run := ⟨b.lba, min b.chunkSize (clippedEnd s r - b.lba)⟩
    let runs := runsOf s r f.start (f.start + f.len)
    ((∃ g ∈ s.front.segs, g.state ≠ .retired ∧ g.place = .range r ∧
      g.start < f.start + f.len ∧ f.start < g.start + g.len) → exec .fenceSet s = .next s) ∧
    ((∀ g ∈ s.front.segs, g.state ≠ .retired → g.place = .range r →
      ¬ (g.start < f.start + f.len ∧ f.start < g.start + g.len)) →
    ∃ t, exec .fenceSet s = .next t ∧
      t = { s with
        ranges := s.ranges.set r { s.ranges[r] with mig := some { m with fence := some f } }
        slots := t.slots
        sweep := { s.sweep with
          chunk := some
            { job := j, kind := .rekey, range := r, start := f.start, len := f.len, runs := runs
              phase := if runs = [] then .checkpoint else .reading
              outstanding := runs.length, blocks := [], fresh := [], fail := none, failedTwice := false, homeOk := []
              newDamage := [], curSlot := s.ranges[r].slot, nextSlot := m.nextSlot } }
        media := { s.media with
          waiting := s.media.waiting ++ runs.map (fun x => ⟨.read, x.start, x.len, [], .sweep (.read x)⟩) }
        writes := if runs = [] then s.writes ++ [⟨if clippedEnd s r ≤ f.start + f.len then
            .rangeComplete r (f.start + f.len) else .rangeCheckpoint r (f.start + f.len), .chunk, []⟩]
          else s.writes } ∧
      (∀ i : SlotIx, t.slots[i] =
        if s.slots[i].state = .loaded then
          { s.slots[i] with count := s.slots[i].count + [s.ranges[r].slot, m.nextSlot].count (some i) }
        else s.slots[i]))

/-- A committed drain finishes once no media slot of its range holds a key and no chunk is in motion on it: its writes begin
with the record of the next generation and a new key, and the damaged list without the range's entries follows where it holds
any, and then the intent list without its entry; else the command is no step (log entry 3). At the last of the writes the
generation is in force, the range has no migration and is PURGING, if a purge was to follow and still is (log entry 40), or
STEADY; its damaged entries and its intent entry are gone, a guarded range stays LOCKED, an unguarded one is OPEN where a
media slot is EMPTY, and WIPE_DONE is journaled (R110, R111). In SLEEP and in the wake from it no key is loaded and the range
stays LOCKED (R60, R171; the model's choice, log entry 46), and an entry that has been freed meanwhile, or freed and defined
anew, is left alone (R25; the model's choice, log entry 41). -/
def Obligations.DrainFinishDestroysTheOldKey : Prop :=
  ∀ (s : State) (r : RangeIx),
    (∀ e, s.ranges[r].active = true → s.ranges[r].cond = .draining → s.ranges[r].finishing = false →
      ownsSlot s r = false → chunkOn s r = false → intentOf s r = some e → e.stored = true →
      ∃ t w rest, exec (.drainFinish r) s = .next t ∧
        t = { s with writes := s.writes ++ [w], fresh := s.fresh + 1
                     ranges := s.ranges.set r { s.ranges[r] with finishing := true } } ∧
        w.op = .rangeDrained r (e.gen + 1) (Config.newKey s.fresh) (earliestPurge s r <|> e.purge) ∧
        w.done = .nothing ∧
        w.rest = rest ++
          [(.intents [r] [] [], .drained r (e.gen + 1) (earliestPurge s r <|> e.purge).isSome)] ∧
        rest = if ∃ x ∈ s.damaged, x.range = r then [(.damagedRange r, .nothing)] else []) ∧
    (drainDue s r = false → exec (.drainFinish r) s = .next s) ∧
    (∀ gen purging rest, s.startUp = none → s.writes = ⟨.intents [r] [] [], .drained r gen purging, []⟩ :: rest →
      let t := { s with
        store := { s.store with intents := s.store.intents.filter (fun e => e.range ≠ r) }, writes := rest }
      let shut : Bool := guarded s r || s.power.state = .sleep
      ((s.ranges[r].active = false ∨ s.ranges[r].finishing = false) → exec .storeWriteCompletion s = .next (engine t)) ∧
      (s.ranges[r].active = true → s.ranges[r].finishing = true → s.ranges[r].slot = none → ∃ u, exec .storeWriteCompletion s =
          .next (engine (raise u { kind := .wipeDone, range := some r, detail := .gen gen })) ∧
        u = { t with ranges := u.ranges, slots := u.slots
                     damaged := s.damaged.filter (fun d => d.range ≠ r)
                     intents := s.intents.filter (fun e => e.range ≠ r) } ∧
        u.ranges[r] = { s.ranges[r] with
          gen := gen, cond := if purging = true ∧ purgeFollows s r = true then .purging else .steady, mig := none
          finishing := false, slot := if shut then none else (emptyMediaSlots s).head?
          lock := if shut = true ∨ emptyMediaSlots s = [] then s.ranges[r].lock else .opened } ∧
        (∀ q, q ≠ r → u.ranges[q] = s.ranges[q]) ∧
        ((shut = true ∨ emptyMediaSlots s = []) → u.slots = s.slots) ∧
        (shut = false → ∀ i, (emptyMediaSlots s).head? = some i →
          u.slots = s.slots.set i ⟨.loaded, s.store.ranges[r].key, some (r, gen), some .current, false, 1⟩)))

/-! ## Locks, power and tamper -/

/-- The lock procedure: every guarded, ACTIVE range of the set that is not LOCKED becomes LOCKED and ceases to name its
slots, each of which, where nothing else has a reference to it, is EMPTY at once, and is PENDING_ZERO otherwise; the REKEY
job of a MIGRATING one is PAUSED with cause LOCKED and leaves the stack, unless it has a chunk in motion or was paused or
stalled, and a HOLD job that was RUNNING gives up its dedicated lane (R16); one LOCKED entry with the cause is journaled for
each; and no other range, record or transaction changes (R74, R35, R55, R136). That the entries come in index order is the
model's reading (log entry 38). -/
def Obligations.LockProcedureLocksGuardedRanges : Prop :=
  ∀ (s : State) (set : List RangeIx) (cause : LockCause), s.startUp = none →
    let t := lockProcedure s set cause
    let hit := fun (r : RangeIx) => set.contains r && guarded s r && s.ranges[r].active && s.ranges[r].lock ≠ .locked
    let paused := fun (j : JobNo) =>
      allRanges.any (fun r => hit r && s.ranges[r].cond = .migrating && rekeyOf s r = some j) &&
        match jobAt s j with
        | some b => b.state = .queued || b.state = .preempted || (b.state = .running && !hasChunk s j)
        | none => false
    t = { s with ranges := t.ranges, slots := t.slots, sweep := t.sweep, arb := t.arb, journal := t.journal } ∧
    (∀ r : RangeIx, t.ranges[r] =
      if hit r then
        { s.ranges[r] with
          lock := .locked, slot := none, mig := s.ranges[r].mig.map (fun m => { m with nextSlot := none }) }
      else s.ranges[r]) ∧
    (∀ i : SlotIx, (∀ r, hit r = true → s.ranges[r].slot ≠ some i ∧ nextSlotOf s.ranges[r] ≠ some i) →
      t.slots[i] = s.slots[i]) ∧
    (∀ (i : SlotIx) (r : RangeIx), hit r = true → (s.ranges[r].slot = some i ∨ nextSlotOf s.ranges[r] = some i) →
      namings s i = 1 → t.slots[i] =
        if s.slots[i].count ≤ 1 then ⟨.empty, none, none, none, false, 0⟩
        else { s.slots[i] with state := .pendingZero, count := s.slots[i].count - 1 }) ∧
    t.sweep = { s.sweep with jobs := t.sweep.jobs, stack := s.sweep.stack.filter (fun j => !paused j) } ∧
    (∀ j : JobNo, jobAt t j = (jobAt s j).map (fun b =>
      if paused j then { b with state := .paused, pause := some .locked, pending := .noAction } else b)) ∧
    ((∀ j b, jobAt s j = some b → paused j = true → b.state = .running → b.policy = .yielding) → t.arb = s.arb) ∧
    (∀ j b, jobAt s j = some b → paused j = true → b.state = .running → b.policy = .holding →
      t.arb = undedicated s.arb) ∧
    t.journal = ((allRanges.filter hit).map (fun r =>
      ({ kind := .locked, range := some r, detail := .lockCause cause } : Event))).foldl journalRecord s.journal

/-- Idle relock: when the relock timer runs, has not expired and has counted the configured minutes, it expires and the lock
procedure runs with cause IDLE on the ranges whose flags name it. Else the event is no step (R164, R76; log entry 3). -/
def Obligations.IdleRelockLocksFlaggedRanges : Prop :=
  ∀ s : State,
    let runs := s.powered = true ∧ s.startUp = none ∧ s.power.state ≠ .sleep ∧ s.power.op ≠ .wakeSleep
    let due := s.dev.policy.relockMinutes ≠ 0 ∧ s.theft.expired = false ∧
      s.dev.policy.relockMinutes * 60 * 1000000 ≤ s.theft.elapsed
    (runs ∧ due → exec .idleRelockExpiry s = .next (engine (lockProcedure
      { s with theft := { s.theft with expired := true } }
      (allRanges.filter (fun r => s.ranges[r].flags.idleRelock)) .idle))) ∧
    (¬ (runs ∧ due) → exec .idleRelockExpiry s = .next s)

/-- The part steps from ACTIVE to IDLE when the step timer reaches the idle interval, and the step to DOZE falls due when it
reaches the doze interval in IDLE; an interval of 0 disables the step (R168). The due step is taken once no transaction is
unfinished, no lane is granted, no chunk is in motion, the control unit is idle and there is no level-0 demand: the part is
in DOZE, POWER_STEP is journaled, and every live job of level 1–3 that was QUEUED, RUNNING or PREEMPTED is PAUSED with cause
POWER and leaves the stack; the dedicated lane of one that was a RUNNING HOLD job is released (R168, R136, R16). Else each
event is no step (log entry 3). -/
def Obligations.IdleAndDozeStepsFollowTheTimer : Prop :=
  (∀ s : State, s.powered = true → s.startUp = none → s.power.op = .noOp →
     (s.power.state = .active → s.dev.idle ≠ 0 → s.dev.idle * 10 * 1000 ≤ s.power.stepTimer →
       exec .stepToIdle s = .next { s with
         power := ⟨.idle, .noOp, 0, 0, false⟩
         journal := journalRecord s.journal { kind := .powerStep, detail := .power .idle } }) ∧
     ((s.power.state ≠ .active ∨ s.dev.idle = 0 ∨ s.power.stepTimer < s.dev.idle * 10 * 1000) →
       exec .stepToIdle s = .next s) ∧
     (s.power.state = .idle → s.dev.doze ≠ 0 → s.dev.doze * 1000 * 1000 ≤ s.power.stepTimer →
       exec .dozeStepDue s = .next { s with power := { s.power with dozeDue := true } }) ∧
     ((s.power.state ≠ .idle ∨ s.dev.doze = 0 ∨ s.power.stepTimer < s.dev.doze * 1000 * 1000) →
       exec .dozeStepDue s = .next s)) ∧
  (∀ s : State, (s.powered = false ∨ s.startUp.isSome = true ∨ s.power.op ≠ .noOp) →
     exec .stepToIdle s = .next s ∧ exec .dozeStepDue s = .next s) ∧
  (∀ s : State,
     let taken := s.powered = true ∧ s.startUp = none ∧ s.power.op = .noOp ∧ s.power.state = .idle ∧
       s.power.dozeDue = true ∧ (∀ x : FrontTag, s.front.tags[x] = none) ∧ s.front.held = [] ∧ laneGranted s = false ∧
       s.sweep.chunk = none ∧ s.control.service = none ∧ s.control.queue = [] ∧ level0Demand s = false
     let reached := fun (b : Job) => b.level ≠ 0 && (b.state = .queued || b.state = .running || b.state = .preempted)
     let holds := ∃ j b, jobAt s j = some b ∧ reached b = true ∧ b.state = .running ∧ b.policy = .holding
     (¬ taken → exec .stepToDoze s = .next s) ∧
     (taken → ∃ t, exec .stepToDoze s = .next t ∧
       t = { s with
         power := ⟨.doze, .noOp, 0, 0, false⟩
         journal := journalRecord s.journal { kind := .powerStep, detail := .power .doze }
         sweep := { s.sweep with
           jobs := t.sweep.jobs, stack := s.sweep.stack.filter (fun j => !(jobAt s j).any reached) }
         arb := { s.arb with lanes := t.arb.lanes, dedicated := t.arb.dedicated } } ∧
       (∀ j : JobNo, jobAt t j = (jobAt s j).map (fun b =>
         if b.level ≠ 0 ∧ (b.state = .queued ∨ b.state = .running ∨ b.state = .preempted) then
           { b with state := .paused, pause := some .power, pending := .noAction }
         else b)) ∧
       (¬ holds → t.arb = s.arb) ∧
       (holds → t.arb.dedicated = none ∧ ∀ l : LaneIx, t.arb.lanes[l] =
         if s.arb.dedicated = some l ∧ s.arb.lanes[l] = .dedicated then .free else s.arb.lanes[l])))

/-- A wake completes when its time has passed, 150 µs from DOZE and 2 ms from SLEEP: the part is ACTIVE, POWER jobs return,
the engine chooses, and the waiting transactions pass to admission in order of arrival (R169, R171, R3, R136). The POWER jobs
are those PAUSED with that cause; each returns by the return rule and nothing else changes (R134, R136). Before its time a
wake's completion is no step, and POWER_STEP is journaled only where the power state changes (the model's choices, log
entries 3 and 24). -/
def Obligations.WakeBringsThePartToActive : Prop :=
  ∀ s : State, s.powered = true → s.startUp = none →
    let u := returnPower { s with
      power := ⟨.active, .noOp, 0, 0, false⟩
      journal := if s.power.state = .active then s.journal else
        journalRecord s.journal { kind := .powerStep, detail := .power .active } }
    let t := engine u
    (s.power.op = .wakeDoze → 150 ≤ s.power.opTimer → exec .wakeFromDozeComplete s =
      .next (s.front.waiting.foldl admitTxn { t with front := { s.front with waiting := [] } })) ∧
    (s.power.op = .wakeSleep → 2000 ≤ s.power.opTimer → exec .wakeFromSleepComplete s =
      .next (s.front.waiting.foldl admitTxn { t with front := { s.front with waiting := [] } })) ∧
    (s.power.op = .wakeDoze → s.power.opTimer < 150 → exec .wakeFromDozeComplete s = .next s) ∧
    (s.power.op = .wakeSleep → s.power.opTimer < 2000 → exec .wakeFromSleepComplete s = .next s) ∧
    (∀ a : State,
      returnPower a = { a with sweep := { a.sweep with jobs := (returnPower a).sweep.jobs } } ∧
      ∀ j : JobNo,
        (∀ b, jobAt a j = some b → b.state = .paused → b.pause = some .power →
          (returnPower a).sweep.jobs[j] = (returnJob a j).sweep.jobs[j]) ∧
        ((∀ b, jobAt a j = some b → ¬ (b.state = .paused ∧ b.pause = some .power)) →
          (returnPower a).sweep.jobs[j] = a.sweep.jobs[j]))

/-- A rise of the sleep request line begins SLEEP entry: the waiting transactions complete RETRY in their order, the prepared
state ends, the reserve view is closed, write-open is clear, and a RUNNING job at a boundary is PAUSED with cause POWER; its
fall before SLEEP_READY ends SLEEP entry and the part is ACTIVE; its fall in SLEEP begins the wake. A rise in that wake that
finds nothing in flight is the ready event as well. During start-up and with power-good low the line is only noted (R170,
R171, R104, R3). SLEEP_READY rises once nothing is left to wait for: the lock procedure has run with cause SLEEP on the
ranges whose flags name it, and the part is in SLEEP (R170, R76); a drain that can finish is waited for (the model's reading,
log entry 37), and SLEEP_READY before that is no step (log entry 3). POWER_STEP is journaled for a change of the power state
alone (the model's reading, log entry 24). A rise with the line high is no step (log entry 3). A RUNNING HOLD job that is
PAUSED gives up its dedicated lane (R16). The order of the completions is the model's choice (log entry 23), as is what a
rise in the wake from SLEEP begins where something is in flight (log entry 46). -/
def Obligations.SleepHandshakeFollowsTheLine : Prop :=
  (∀ s : State,
     let up := { s with sleepLine := true }
     let down := { s with sleepLine := false }
     let retried := s.front.waiting.foldl (fun u x => closed u x .retry [] none)
       { up with front := { s.front with waiting := [] } }
     let begun := { retried with
       control := { s.control with prepared := none }
       regions := { s.regions with reserveView := false, writeOpen := false }
       power := { s.power with op := .sleepEntry, opTimer := 0, dozeDue := false } }
     let quiet := (∀ x : FrontTag, begun.front.tags[x] = none) ∧ s.front.segs = [] ∧ s.sweep.chunk = none ∧
       s.writes = [] ∧ s.control.service = none ∧ s.control.queue = [] ∧ ∀ r, drainDue s r = false
     (s.sleepLine = false → (s.powered = false ∨ s.startUp.isSome = true) → exec .sleepRequestRise s = .next up) ∧
     (s.sleepLine = false → s.powered = true → s.startUp = none →
       (¬ (s.power.op = .wakeSleep ∧ quiet) →
         (∀ j, runningJob s = some j → hasChunk s j = true) → exec .sleepRequestRise s = .next begun) ∧
       (¬ (s.power.op = .wakeSleep ∧ quiet) →
         ∀ j b, runningJob s = some j → jobAt s j = some b → hasChunk s j = false →
           ∃ t, exec .sleepRequestRise s = .next t ∧
             t = { begun with
               arb := t.arb
               sweep := { s.sweep with
                 jobs := s.sweep.jobs.set j (.job
                   { b with state := .paused, pause := some .power, pending := .noAction })
                 stack := s.sweep.stack.filter (· ≠ j) } } ∧
             (b.policy = .yielding → t.arb = s.arb) ∧ (b.policy = .holding → t.arb = undedicated s.arb)) ∧
       (s.power.op = .wakeSleep → quiet → s.power.state = .sleep → runningJob s = none →
         exec .sleepRequestRise s = .next
           { lockProcedure begun (allRanges.filter (fun r => s.ranges[r].flags.lockOnSleep)) .sleep with
             power := ⟨.sleep, .noOp, 0, 0, false⟩, sleepReady := true })) ∧
     (s.sleepLine = true → exec .sleepRequestRise s = .next s) ∧
     (s.sleepLine = true → (s.powered = false ∨ s.startUp.isSome = true) → exec .sleepRequestFall s = .next down) ∧
     (s.sleepLine = true → s.powered = true → s.startUp = none → s.power.op = .sleepEntry →
       exec .sleepRequestFall s = .next (engine (returnPower (enterPower down .active)))) ∧
     (s.sleepLine = true → s.powered = true → s.startUp = none → s.power.op = .noOp → s.power.state = .sleep →
       exec .sleepRequestFall s = .next { down with
         sleepReady := false, power := { s.power with op := .wakeSleep, opTimer := 0 } })) ∧
  (∀ s : State, s.powered = true → s.startUp = none → s.sleepLine = true → s.power.op = .sleepEntry →
     s.power.state ≠ .sleep → (∀ x : FrontTag, s.front.tags[x] = none) → s.front.segs = [] → s.sweep.chunk = none →
     s.writes = [] → s.control.service = none → s.control.queue = [] → (∀ r, drainDue s r = false) →
     let t := lockProcedure s (allRanges.filter (fun r => s.ranges[r].flags.lockOnSleep)) .sleep
     exec .sleepReady s = .next { t with
       power := ⟨.sleep, .noOp, 0, 0, false⟩, sleepReady := true
       journal := journalRecord t.journal { kind := .powerStep, detail := .power .sleep } }) ∧
  (∀ s : State,
     let ready := s.powered = true ∧ s.sleepLine = true ∧ s.power.op = .sleepEntry ∧
       (∀ x : FrontTag, s.front.tags[x] = none) ∧ s.front.segs = [] ∧ s.sweep.chunk = none ∧ s.writes = [] ∧
       s.control.service = none ∧ s.control.queue = [] ∧ ∀ r, drainDue s r = false
     (¬ ready → exec .sleepReady s = .next s) ∧
     (ready → s.power.state = .sleep → exec .sleepReady s = .next
       { lockProcedure s (allRanges.filter (fun r => s.ranges[r].flags.lockOnSleep)) .sleep with
         power := ⟨.sleep, .noOp, 0, 0, false⟩, sleepReady := true }))

/-- Power loss: every transaction is gone with no completion, a store write in flight leaves its record as it was, and every
volatile table, count and view is as at power-on (R172): the ranges and credentials as their records give them, every range
LOCKED and naming no slot, every slot EMPTY, no job, no chunk, the filters, the timers and the journal as at rest (the
model's values of what the spec does not give there, log entries 1 and 2). The last ticket issued is kept (the model's
choice, log entry 11). With power-good low already the event is no step (log entry 3). -/
def Obligations.PowerLossKeepsOnlyTheStore : Prop :=
  ∀ s : State, (s.powered = false → exec .powerGoodFall s = .next s) ∧
    (s.powered = true → ∃ t, exec .powerGoodFall s = .next t ∧
      t = { s with
        powered := false, sleepReady := false, writes := [], startUp := none
        front := ⟨Vector.replicate 32 none, [], [], [], s.front.nextSeg, s.front.sent⟩
        arb := ⟨Vector.replicate 4 .free, none, [], false, 0⟩
        media := ⟨Vector.replicate 48 .free, []⟩
        slots := Vector.replicate 24 ⟨.empty, none, none, none, false, 0⟩
        ranges := t.ranges, creds := t.creds
        dev := s.store.device, intents := s.store.intents, damaged := s.store.damaged
        control := ⟨[], none, none, s.control.lastTicket, false⟩
        regions := ⟨0, 0, 0, false, 0, false, false, false⟩
        sweep := ⟨Vector.replicate 6 .free, [], 0, none, []⟩
        theft := ⟨⟨.released, 0, 0, 1000⟩, ⟨.released, 0, 0, 1000⟩, ⟨.released, 0, 0, 1000⟩, false, 0, false⟩
        power := ⟨.active, .noOp, 0, 0, false⟩
        journal := ⟨[], false, 0, 1 <<< 19⟩ } ∧
      (∀ r : RangeIx, t.ranges[r] =
        let x := s.store.ranges[r]
        ⟨x.active, x.start, x.len, .locked, x.cond, none,
          x.mig.map (fun m => ⟨m.w, none, none, none, m.level, m.policy, m.chunkSize⟩), x.gen, x.flags, false⟩) ∧
      (∀ c : CredIx, t.creds[c] =
        let x := s.store.creds[c]
        ⟨x.state, x.verifier, x.budget, x.budget, x.grants⟩))

/-- Power-on start-up. The first on a new part takes N and first creates and stores a system key. With nothing to recover it
ends at once: the part is ACTIVE, START_UP is the cleared journal's first entry, slot 0 holds the system key, a guarded range
is LOCKED and range 0, if unguarded and not DRAINING, is OPEN, and each filter takes its first sample (R47, R49, R87, R89,
R157, R178, R183). The phases between: the intent pass finishes each entry of the intent list in its order, or only removes
one its record has outrun (R117); the staging recovery copies the runs of each staged record home, a failed access made once
more, and stores the record, and the lost blocks while the damaged list has room (R154, R155); the locked-start check counts
while some ACTIVE range is guarded, and at its threshold triggers a theft wipe, its drains finished first (R162, R163, R118);
each unguarded range that is not DRAINING, in index order, becomes OPEN and names its keys, two while MIGRATING (R47, R52);
and MIGRATING and PURGING ranges get their jobs (R137). An answer or timeout of its copy lets it go on. A reported N below
2^18 is a capacity fault, with U and C 0; else N is at most 2^40 and a multiple of 8, U N − 32,832, and C is the persistent
ceiling where that is 1 to U, else U (R87, R89). A rise with power good is no step (log entry 3). The model's readings: N and
the first samples are operands, and phases run in one step while none waits (log entry 22); with the sleep line high SLEEP
entry begins, the engine chooses, then waiting transactions are admitted, not completed RETRY (log entry 43). The model's
choices: the recovery's record before its damaged list, the lost blocks' order, no job in its DAMAGE_RECORDED, the order of a
LOCKED_STARTS wipe's drains, behind its clearing write (log entry 46), range ends clipped at U (log entry 35), the READs'
order (log entry 48), the grouping of PURGING ranges (log entry 36), and that a freed range's intent entry is only removed
(log entry 41). -/
def Obligations.PowerOnRunsStartUp : Prop :=
  (∀ (n ceiling : Nat) (written : Bool),
    let x := readRegions n ceiling written
    let taken := (if 2 ^ 40 < n then 2 ^ 40 else n) / 8 * 8
    x.nReported = n ∧ x.persistentWritten = written ∧ x.reserveView = false ∧ x.writeOpen = false ∧
    (n < 2 ^ 18 → x.capFault = true ∧ x.u = 0 ∧ x.c = 0) ∧
    (2 ^ 18 ≤ n → x.capFault = false ∧ x.n = taken ∧ x.u = taken - 32832 ∧
      (1 ≤ ceiling → ceiling ≤ x.u → x.c = ceiling) ∧ ((ceiling = 0 ∨ x.u < ceiling) → x.c = x.u))) ∧
  (∀ (s : State) (p : StartInputs),
    (s.powered = true → exec (.powerGoodRise p) s = .next s) ∧
    (s.powered = false → s.writes = [] → s.store.device.systemKey = none →
      ∃ t, exec (.powerGoodRise p) s = .next t ∧ t.powered = true ∧
        t.startUp = some ⟨.powerOn, p, .intents, none, []⟩ ∧
        t.writes = [⟨.device { systemKey := some (Config.newKey s.fresh) }, .nothing, []⟩] ∧
        t.dev = { s.store.device with systemKey := some (Config.newKey s.fresh) } ∧
        t.regions = readRegions p.capacity s.store.device.ceiling s.regions.persistentWritten) ∧
    (∀ k, s.powered = false → s.writes = [] → s.store.device.systemKey = some k → s.store.device.policy.threshold = 0 →
      s.store.intents = [] →
      (∀ r : RangeIx, ∀ m, s.store.ranges[r].mig = some m → m.staged = none) →
      s.front.waiting = [] → s.sleepLine = false → s.power = ⟨.active, .noOp, 0, 0, false⟩ →
      s.journal = ⟨[], false, 0, 1 <<< 19⟩ → s.control.queue = [] → s.sweep = ⟨Vector.replicate 6 .free, [], 0, none, []⟩ →
      (∀ i : SlotIx, s.slots[i].state = .empty) →
      ∃ t, exec (.powerGoodRise p) s = .next t ∧ t.powered = true ∧ t.startUp = none ∧
        t.regions = readRegions p.capacity s.store.device.ceiling s.regions.persistentWritten ∧
        t.power = s.power ∧ t.slots[(0 : SlotIx)] = ⟨.loaded, some k, none, none, false, 0⟩ ∧
        (∃ rest, t.journal.ring = ⟨0, { kind := .startUp, detail := .startUp .powerOn }⟩ :: rest) ∧
        (∀ r : RangeIx, guarded t r = true → t.ranges[r].lock = .locked) ∧
        (s.store.ranges[(0 : RangeIx)].active = true → s.store.ranges[(0 : RangeIx)].cond ≠ .draining →
          guarded t 0 = false → t.ranges[(0 : RangeIx)].lock = .opened) ∧
        t.theft = { s.theft with caseLine := ⟨p.caseLv, 0, 0, 1000⟩, bayLine := ⟨p.bayLv, 0, 0, 1000⟩
                                 serviceLine := ⟨p.svcLv, 0, 0, 1000⟩, sampling := true })) ∧
  (∀ (s : State) (u : StartUp), s.startUp = some u →
    let go := fun (t : State) (ph : Phase) => { t with startUp := some { u with phase := ph } }
    let loaded := { s with
      ranges := vmap loadedEntry s.store.ranges, intents := s.store.intents, damaged := s.store.damaged }
    let waits := s.writes ≠ [] ∨ ∃ v, u.recovery = some v ∧ v.outstanding ≠ 0
    -- a completed write or copy lets start-up go on
    (∀ op rest, s.writes = ⟨op, .nothing, []⟩ :: rest → exec .storeWriteCompletion s =
      .next (startUpGoesOn { s with store := applyOp s op, writes := rest })) ∧
    (∀ t q age run w again v data, s.media.tags[t] = .busy q age → q.who = .recovery run w again →
      u.recovery = some v → exec (.mediaCompletion t (.ok data)) s = .next (startUpGoesOn (recoveryAnswer
        { s with media := { s.media with tags := s.media.tags.set t .free } } v run w again q.data (.ok data)))) ∧
    (∀ t q age run w again v, s.media.tags[t] = .busy q age → q.who = .recovery run w again → u.recovery = some v →
      exec (.mediaCompletion t .error) s = .next (startUpGoesOn (recoveryAnswer
        { s with media := { s.media with tags := s.media.tags.set t .free } } v run w again q.data .error)) ∧
      (2000000 ≤ age → exec (.mediaTimeout t) s = .next (startUpGoesOn (recoveryAnswer
        { s with
          media := { s.media with tags := s.media.tags.set t .quarantined }
          startUp := some { u with deferred := u.deferred ++ [{ kind := .mediaTimeout, detail := .mediaTag t }] } }
        v run w again q.data .timeout)))) ∧
    (waits → startUpGoesOn s = s) ∧ (¬ waits → startUpGoesOn s = advance 63 (runPhase s u)) ∧
    -- the intent pass
    (u.phase = .intents →
      let x := s.store.intents.foldl passIntent (s, [])
      runPhase s u = go (issue x.1 x.2) .staging) ∧
    (∀ (l : List (StoreOp × Done)) (e : Intent),
      let x := s.store.ranges[e.range]
      let tail := (if s.damaged.any (fun d => d.range = e.range) then [(StoreOp.damagedRange e.range, Done.nothing)]
        else []) ++ [(StoreOp.intents [e.range] [] [], Done.nothing)]
      (x.active = true → x.gen = e.gen → passIntent (s, l) e = ({ s with fresh := s.fresh + 1 },
        l ++ (.rangeDrained e.range (e.gen + 1) (Config.newKey s.fresh) e.purge, .nothing) :: tail)) ∧
      ((x.active = false ∨ x.gen ≠ e.gen) → passIntent (s, l) e = (s, l ++ tail))) ∧
    -- the staging recovery
    (u.phase = .staging →
      let staged := fun (r : RangeIx) (g : Staged) => s.store.ranges[r].active = true ∧
        s.store.ranges[r].cond = .migrating ∧ ∃ m, s.store.ranges[r].mig = some m ∧ m.staged = some g
      ((s.regions.capFault = true ∨ ∀ r g, ¬ staged r g) → runPhase s u = go loaded .lockedStarts) ∧
      (∀ r g, s.regions.capFault = false → staged r g → (∀ q g', q < r → ¬ staged q g') → runPhase s u =
        { loaded with
          startUp := some { u with phase := .stagingStore, recovery := some ⟨r, g, g.runs.length, [], []⟩ }
          media := { s.media with waiting := s.media.waiting ++ g.runs.map (fun x =>
            ⟨.read, s.regions.n - 64 + (x.start - g.start), x.len, [], .recovery x false false⟩) } })) ∧
    (∀ v x sent, u.recovery = some v →
      let put := fun (t : State) (y : Recovery) => { t with startUp := some { u with recovery := some y } }
      let ask := fun (op : MediaOp) (addr : Nat) (data : List Block) (w again : Bool) =>
        { s with media := { s.media with
            waiting := s.media.waiting ++ [⟨op, addr, x.len, data, .recovery x w again⟩] } }
      let less := { v with outstanding := v.outstanding - 1 }
      let lose := put s { less with lost := v.lost ++ [x] }
      (∀ again data, recoveryAnswer s v x false again sent (.ok data) = ask .write x.start data true false) ∧
      (∀ again data, recoveryAnswer s v x true again sent (.ok data) = put s less) ∧
      recoveryAnswer s v x false false sent .error =
        ask .read (s.regions.n - 64 + (x.start - v.staged.start)) [] false true ∧
      recoveryAnswer s v x true false sent .error = ask .write x.start sent true true ∧
      (∀ w, recoveryAnswer s v x w true sent .error = lose) ∧
      (∀ w again, recoveryAnswer s v x w again sent .timeout = lose)) ∧
    (∀ v, u.phase = .stagingStore → u.recovery = some v →
      let w := v.staged.start + v.staged.len
      let op := if clippedEnd s v.range ≤ w then StoreOp.rangeComplete v.range w else .rangeCheckpoint v.range w
      let lost := lostBlocks s.damaged v.range v.lost
      runPhase s u = { s with
        startUp := some { u with phase := .stagingDone, recovery := some { v with newDamage := lost } }
        writes := s.writes ++ [⟨op, .nothing,
          if lost = [] then [] else [(.damaged [] (lost.map (fun n => ⟨v.range, n⟩)), .nothing)]⟩] }) ∧
    (∀ v, u.phase = .stagingDone → u.recovery = some v → runPhase s u = { loaded with
      startUp := some { u with
        phase := .staging, recovery := none
        deferred := u.deferred ++
          ({ kind := .recovered, range := some v.range, detail := .recovered v.staged.start (!v.lost.isEmpty) } :
            Event) ::
          v.newDamage.map (fun n => { kind := .damageRecorded, range := some v.range, detail := .lba n }) } }) ∧
    -- the locked-start check
    (u.phase = .lockedStarts →
      let counts := s.dev.policy.threshold ≠ 0 ∧ ∃ r : RangeIx, s.ranges[r].active = true ∧ guarded s r = true
      let n := min (s.dev.lockedStarts + 1) s.dev.policy.threshold
      (counts → runPhase s u = go { s with
        dev := { s.dev with lockedStarts := n }
        writes := s.writes ++ [⟨.device { lockedStarts := some n }, .nothing, []⟩] } .lockedCheck) ∧
      (¬ counts → runPhase s u = go s .keys)) ∧
    (u.phase = .lockedCheck →
      (s.dev.lockedStarts = s.dev.policy.threshold → ∃ x, x = theftTrigger s .lockedStarts ∧ runPhase s u =
        setPhase (issueTheft x.1 (theftChain .lockedStarts false {} x.2.1 x.2.2)) .lockedDrains) ∧
      (s.dev.lockedStarts ≠ s.dev.policy.threshold → runPhase s u = go s .keys)) ∧
    (u.phase = .lockedDrains →
      ((∀ r, drainDue s r = false) → runPhase s u = go s .keys) ∧
      ((∃ r, drainDue s r = true) → runPhase s u = (allRanges.filter (drainDue s)).foldl startDrainFinish s)) ∧
    -- the keys, the jobs, the journal and the admission phase
    (u.phase = .keys → runPhase s u = admitPhase s u) ∧
    (let a := createUnscheduled (keyPhase s)
     let first := fun (l : Level) => (⟨l, 0, 0, samplePeriod a⟩ : Filter)
     let b := { a with
       startUp := none
       journal := (({ kind := .startUp, detail := .startUp u.cause } : Event) :: u.deferred).foldl journalRecord a.journal
       theft := { a.theft with
         caseLine := first u.inputs.caseLv, bayLine := first u.inputs.bayLv, serviceLine := first u.inputs.svcLv
         sampling := true } }
     let e := engine (if s.sleepLine then beginSleepEntry b else b)
     admitPhase s u =
       takeNext (e.front.waiting.foldl admitTxn { e with front := { e.front with waiting := [] } }))) ∧
  (∀ s : State, keyPhase s = allRanges.foldl openUnguarded
    { s with slots := s.slots.set 0 ⟨.loaded, s.dev.systemKey, none, none, false, 0⟩ }) ∧
  (∀ (s : State) (r : RangeIx),
    let opens := s.ranges[r].active = true ∧ guarded s r = false ∧ s.ranges[r].cond ≠ .draining
    (¬ opens → openUnguarded s r = s) ∧
    (opens → s.ranges[r].slot = none → nextSlotOf s.ranges[r] = none →
      (s.ranges[r].cond = .migrating → s.ranges[r].mig.isSome = true) →
      (wantedKeys s [r]).length ≤ (emptyMediaSlots s).length → ∃ v, KeysNamed s v [r] ∧
        openUnguarded s r = { v with ranges := v.ranges.set r { v.ranges[r] with lock := .opened } })) ∧
  (∀ (s : State) (r : RangeIx) (j : JobNo) (m : MigRec), s.ranges[r].active = true → s.ranges[r].cond = .migrating →
    rekeyOf s r = none → freeEntry s = some j → s.ranges[r].mig = some m → createRekey s r = { s with
      ranges := s.ranges.set r { s.ranges[r] with mig := some { m with job := some j } }
      sweep := { s.sweep with
        nextStamp := s.sweep.nextStamp + 1
        jobs := s.sweep.jobs.set j (.job
          { kind := .rekey, level := m.level, policy := m.policy, ranges := [r], pos := 0, lba := m.w
            chunkSize := m.chunkSize, pattern := none
            state := if s.ranges[r].lock = .locked then .paused else .queued
            pause := if s.ranges[r].lock = .locked then some .locked else none
            pending := .noAction, stamp := s.sweep.nextStamp, stall := none, wipeSet := [], recreated := false }) } }) ∧
  (∀ (s : State) (j : JobNo) (r : RangeIx) (p : PurgeCkpt), freeEntry s = some j →
    (∀ q, q < r → lacksPurge s q = none) → lacksPurge s r = some p →
      ∃ b, createPurge s = { s with sweep := { s.sweep with
          nextStamp := s.sweep.nextStamp + 1, jobs := s.sweep.jobs.set j (.job b) } } ∧
        b = { purgeJob p.opt b.ranges p.lba true with stamp := s.sweep.nextStamp } ∧
        b.ranges.head? = some r ∧ b.ranges.length ≤ 4 ∧
        (∀ q ∈ b.ranges, ∃ k, lacksPurge s q = some k ∧ k.opt = p.opt) ∧
        (b.ranges.length < 4 → ∀ q k, lacksPurge s q = some k → k.opt = p.opt → q ∈ b.ranges))

/-- A sample of a tamper line that is due: at the filtered level it clears the run, a differing one adds 1 to it, and the
third differing one in a row is the accepted edge; the period to the next sample is 1 ms in ACTIVE and IDLE and 8 ms
elsewhere, as the power state is at this sample (R157, R168). A sample that is not due is no step (log entry 3). -/
def Obligations.TamperSampleFiltersTheLine : Prop :=
  ∀ (s : State) (line : TamperLine) (l : Level),
    let f := filterOf s.theft line
    let next := if s.power.op = .noOp ∧ (s.power.state = .active ∨ s.power.state = .idle) then 1000 else 8000
    let due := s.powered = true ∧ s.theft.sampling = true ∧ f.period ≤ f.age
    (¬ due → exec (.tamperSample line l) s = .next s) ∧
    (due → l = f.level → exec (.tamperSample line l) s =
      .next { s with theft := setFilter s.theft line ⟨l, 0, 0, next⟩ }) ∧
    (due → l ≠ f.level → f.run < 2 → exec (.tamperSample line l) s =
      .next { s with theft := setFilter s.theft line ⟨f.level, f.run + 1, 0, next⟩ }) ∧
    (due → l ≠ f.level → f.run = 2 → exec (.tamperSample line l) s = exec (.acceptedEdge line) s)

/-- An accepted edge changes the filtered level and is judged: an edge that is no trigger, and a line set to IGNORE, do
nothing more; while the blocking line is filtered ASSERTED, TAMPER_BLOCKED is journaled and nothing more; else TAMPER is
journaled, LOCK runs the lock procedure on every range with cause TAMPER, and WIPE triggers a theft wipe (R157, R158,
R159). -/
def Obligations.AcceptedEdgeIsJudged : Prop :=
  ∀ (s : State) (line : TamperLine),
    let f := filterOf s.theft line
    let l : Level := if f.level = .asserted then .released else .asserted
    let edge : Edge := if f.level = .asserted then .release else .assert
    let u := { s with theft := setFilter s.theft line ⟨l, 0, 0, samplePeriod s⟩ }
    let cfg := lineConfig s.dev.policy line
    let v := raise u { kind := .tamper, detail := .tamper line edge }
    let free := ∀ b, cfg.blocking = some b → (filterOf u.theft b).level = .released
    sampleDue s line = true → f.run = 2 →
    ((triggers cfg.trigger edge = false ∨ cfg.action = .ignore) → exec (.acceptedEdge line) s = .next u) ∧
    (triggers cfg.trigger edge = true → cfg.action ≠ .ignore →
      (∀ b, cfg.blocking = some b → (filterOf u.theft b).level = .asserted → exec (.acceptedEdge line) s =
        .next (raise u { kind := .tamperBlocked, detail := .blocked line edge b })) ∧
      (free → cfg.action = .log → exec (.acceptedEdge line) s = .next v) ∧
      (free → cfg.action = .lock → exec (.acceptedEdge line) s =
        .next (engine (lockProcedure v allRanges .tamper))) ∧
      (free → cfg.action = .wipe → exec (.acceptedEdge line) s = .next (engine (theftTamper v))))

/-- A theft wipe, as one event: the prepared state ends, THEFT_WIPE is journaled with its cause, every range of its set and
every flagged range with a pending commit is DRAINING and LOCKED and names no slot, each slot with no other reference being
EMPTY at once and else PENDING_ZERO (R55), and a pending intent with the range's generation is added for each range of the
set. A live job that names one of them is CANCELLED and leaves the stack, but for a PURGE job of level 0; one with a chunk in
motion remembers them till its boundary; a HOLD job that was RUNNING gives up its dedicated lane (R108, R16); and the ranges
that a cancelled PURGE job leaves, and no other live one names, become STEADY, or lose their purge option where they drain
(R39). No other range or slot, no credential, transaction or stored record changes (R113). The jobs' order, by job number for
each range, and the range that the entry names are the model's choices (log entry 27), and that the STEADY writes are issued
in the event its reading (log entry 14). Where the policy has a purge option, the set is queued, up to four ranges to a job,
as PURGE jobs of level 0, lane policy HOLD and chunks of 64 blocks, in the lowest entries that are FREE or finished; while
the room is short the oldest QUEUED PURGE job of level 2 or 3 is CANCELLED with detail THEFT and gives up its entry; and a
range is left out with SWEEP_DROPPED where the job table has no room and none such is left (R112, R114). Its writes follow
one another, behind those of an earlier theft wipe that are outstanding: the device record with the cause, the intents, and
for LOCKED_STARTS the cleared count; at the completion of the first the last cause is in force, at that of the second the
entries are stored and WIPE_COMMITTED is journaled for each, and at the last the unit takes its next request, or a RESTART
that waited goes on (R115, R116, R163, R174; the waiting of RESTART is the model's reading, log entry 47). -/
def Obligations.TheftWipeDrainsTheFlaggedRanges : Prop :=
  (∀ (s : State) (cause : TheftCause), s.startUp = none →
    let x := theftTrigger s cause
    let t := x.1
    let all := x.2.1 ++ theftPending s
    let begun := raise { s with control := { s.control with prepared := none } }
      { kind := .theftWipe, detail := .theft cause }
    let m := all.foldl (makeDraining all) (begun, ⟨[], []⟩)
    let y := theftPurge m.1 cause x.2.1
    let steady := m.2.steady ++ y.2.1.steady
    let drop := m.2.drop ++ y.2.1.drop
    let add := x.2.1.map (fun r => (⟨r, s.ranges[r].gen,
      if y.2.2.contains r then s.dev.policy.purge.map (fun p => ⟨0, .holding, p⟩) else none, false⟩ : Intent))
    let hit := fun (b : Job) => !finished b && (b.kind = .rekey || b.level ≠ 0) && b.ranges.any all.contains
    let cut := fun (j : JobNo) => !hasChunk s j && (jobAt s j).any hit
    x.2.1 = allRanges.filter (fun r => s.ranges[r].active && s.ranges[r].flags.wipeOnTheft &&
      s.ranges[r].cond ≠ .draining && (intentOf s r).isNone) ∧
    theftPending s = allRanges.filter (fun r => s.ranges[r].active && s.ranges[r].flags.wipeOnTheft &&
      s.ranges[r].cond ≠ .draining && (intentOf s r).any (fun e => !e.stored)) ∧
    t = { y.1 with intents := y.1.intents ++ add
                   writes := s.writes ++ steady.map (fun r => ⟨.rangeSteady r, .nothing, []⟩) } ∧
    x.2.2 = .intents [] drop add ∧
    t = { s with
      control := { s.control with prepared := none }
      ranges := t.ranges, slots := t.slots, arb := t.arb, sweep := t.sweep, intents := t.intents, journal := t.journal
      writes := t.writes } ∧
    t.intents = s.intents.map (fun e => if drop.contains e.range then { e with purge := none } else e) ++ add ∧
    t.sweep = { s.sweep with jobs := t.sweep.jobs, stack := t.sweep.stack, nextStamp := t.sweep.nextStamp } ∧
    m.1.sweep = { s.sweep with jobs := m.1.sweep.jobs, stack := s.sweep.stack.filter (fun j => !cut j) } ∧
    (∀ j : JobNo, jobAt m.1 j = (jobAt s j).map (fun b =>
      if cut j then { b with state := .cancelled, pause := none, stall := none, pending := .noAction }
      else if hit b then { b with wipeSet := b.wipeSet ++ all.filter (fun q => !b.wipeSet.contains q) }
      else b)) ∧
    ((∃ j b, cut j = true ∧ jobAt s j = some b ∧ b.state = .running ∧ b.policy = .holding) →
      t.arb = undedicated s.arb) ∧
    ((∀ j b, cut j = true → jobAt s j = some b → b.state = .running → b.policy = .yielding) → t.arb = s.arb) ∧
    (∀ r ∈ all, t.ranges[r] = { s.ranges[r] with
      lock := .locked, cond := .draining, slot := none
      mig := s.ranges[r].mig.map (fun m => { m with nextSlot := none }) }) ∧
    (∀ r, r ∉ all → t.ranges[r] =
      if s.ranges[r].cond = .purging ∧ r ∈ steady then { s.ranges[r] with cond := .steady } else s.ranges[r]) ∧
    (∀ i : SlotIx, (∀ r ∈ all, s.ranges[r].slot ≠ some i ∧ nextSlotOf s.ranges[r] ≠ some i) →
      t.slots[i] = s.slots[i]) ∧
    (∀ (i : SlotIx) (r : RangeIx), r ∈ all → (s.ranges[r].slot = some i ∨ nextSlotOf s.ranges[r] = some i) →
      namings s i = 1 → t.slots[i] =
        if s.slots[i].count ≤ 1 then ⟨.empty, none, none, none, false, 0⟩
        else { s.slots[i] with state := .pendingZero, count := s.slots[i].count - 1 }) ∧
    (∀ r, r ∈ x.2.1 ∨ r ∈ theftPending s → t.ranges[r].lock = .locked ∧ t.ranges[r].cond = .draining ∧
      t.ranges[r].slot = none ∧ nextSlotOf t.ranges[r] = none) ∧
    (∀ r, r ∉ x.2.1 → r ∉ theftPending s → t.ranges[r].lock = s.ranges[r].lock ∧ t.ranges[r].slot = s.ranges[r].slot ∧
      (t.ranges[r].cond = s.ranges[r].cond ∨ (s.ranges[r].cond = .purging ∧ t.ranges[r].cond = .steady))) ∧
    (∃ more : List Event,
      t.journal = (({ kind := .theftWipe, detail := .theft cause } : Event) :: more).foldl journalRecord s.journal ∧
      (∀ e ∈ more, e.kind = .sweepCancelled ∨ ∃ r ∈ x.2.1, e =
        { kind := .sweepDropped, range := some r, detail := .theft cause }) ∧
      (s.dev.policy.purge = none → ∀ r ∈ x.2.1, ⟨r, s.ranges[r].gen, none, false⟩ ∈ t.intents) ∧
      (∀ p, s.dev.policy.purge = some p → ∀ r ∈ x.2.1,
        (⟨r, s.ranges[r].gen, some ⟨0, .holding, p⟩, false⟩ ∈ t.intents ∧
          ∃ j b, jobAt t j = some b ∧ r ∈ b.ranges ∧ b.ranges.length ≤ 4 ∧ NewPurge s ⟨0, .holding, p⟩ b.ranges b) ∨
        (⟨r, s.ranges[r].gen, none, false⟩ ∈ t.intents ∧
          ({ kind := .sweepDropped, range := some r, detail := .theft cause } : Event) ∈ more ∧ freeEntry t = none ∧
          ∀ j b, jobAt t j = some b → b.kind = .purge → b.state = .queued → b.level ≠ 2 ∧ b.level ≠ 3)))) ∧
  -- one range becomes DRAINING, and one job of it is dealt with
  (∀ (set : List RangeIx) (x : State × Release) (r : RangeIx),
    let z := x.1
    let n := releaseNames z r
    let e := { z.ranges[r] with slot := none, mig := z.ranges[r].mig.map (fun m => { m with nextSlot := none }) }
    makeDraining set x r = allJobs.foldl (wipeJob set r)
      ({ n with ranges := z.ranges.set r { e with lock := .locked, cond := .draining } }, x.2) ∧
    n = { z with ranges := z.ranges.set r e, slots := n.slots } ∧
    (∀ i : SlotIx, z.ranges[r].slot ≠ some i → nextSlotOf z.ranges[r] ≠ some i → n.slots[i] = z.slots[i]) ∧
    (∀ i : SlotIx, (z.ranges[r].slot = some i ∨ nextSlotOf z.ranges[r] = some i) →
      z.ranges[r].slot ≠ nextSlotOf z.ranges[r] → n.slots[i] =
        if z.slots[i].count ≤ 1 then ⟨.empty, none, none, none, false, 0⟩
        else { z.slots[i] with state := .pendingZero, count := z.slots[i].count - 1 })) ∧
  (∀ (set : List RangeIx) (r : RangeIx) (x : State × Release) (j : JobNo),
    let hit := fun (b : Job) => finished b = false ∧ r ∈ b.ranges ∧ (b.kind = .rekey ∨ b.level ≠ 0)
    ((∀ b, jobAt x.1 j = some b → ¬ hit b) → wipeJob set r x j = x) ∧
    (∀ b, jobAt x.1 j = some b → hit b → hasChunk x.1 j = true → wipeJob set r x j =
      let c := { b with wipeSet := b.wipeSet ++ set.filter (fun q => !b.wipeSet.contains q) }
      ({ x.1 with sweep := { x.1.sweep with jobs := x.1.sweep.jobs.set j (.job c) } }, x.2)) ∧
    (∀ b, jobAt x.1 j = some b → hit b → hasChunk x.1 j = false → wipeJob set r x j =
      let y := finishJob x.1 j .cancelled set
      (raise y.1 { kind := .sweepCancelled, range := some r, job := some j, detail := .cancelled .wipe },
        ⟨x.2.steady ++ y.2.steady, x.2.drop ++ y.2.drop⟩))) ∧
  -- the PURGE jobs of a theft wipe, and the entries they displace
  (∀ (s : State) (cause : TheftCause) (set : List RangeIx),
    (s.dev.policy.purge = none → theftPurge s cause set = (s, ⟨[], []⟩, [])) ∧
    (∀ p, s.dev.policy.purge = some p →
      let groups := groupsOf4 set
      let x := displace groups.length 6 (s, ⟨[], []⟩)
      let y := placeGroups ⟨0, .holding, p⟩ x.1 groups
      let placed := y.2.1.flatten
      let dropped := (set.filter (fun r => !placed.contains r)).map (fun r =>
        ({ kind := .sweepDropped, range := some r, detail := .theft cause } : Event))
      theftPurge s cause set = (dropped.foldl raise y.1, x.2, placed))) ∧
  (∀ (need n : Nat) (x : State × Release),
    let room := allJobs.countP (fun j => x.1.sweep.jobs[j] = .free || (jobAt x.1 j).any finished)
    displace need 0 x = x ∧
    (need ≤ room → displace need n x = x) ∧
    (room < need → oldestDisplaceable x.1 = none → displace need n x = x) ∧
    (∀ j, room < need → oldestDisplaceable x.1 = some j → displace need (n + 1) x =
      let y := finishJob x.1 j .cancelled []
      displace need n (raise y.1 { kind := .sweepCancelled, job := some j, detail := .cancelled .theft },
        ⟨x.2.steady ++ y.2.steady, x.2.drop ++ y.2.drop⟩))) ∧
  (∀ s : State,
    let may := fun (j : JobNo) (b : Job) => jobAt s j = some b ∧ b.kind = .purge ∧ b.state = .queued ∧
      (b.level = 2 ∨ b.level = 3)
    (oldestDisplaceable s = none ↔ ∀ j b, ¬ may j b) ∧
    (∀ j, oldestDisplaceable s = some j → ∃ b, may j b ∧ ∀ i y, may i y → b.stamp ≤ y.stamp)) ∧
  (∀ (o : PurgeOpt) (s : State) (g : List RangeIx) (gs : List (List RangeIx)),
    placeGroups o s [] = (s, [], []) ∧
    (freeEntry s = none → placeGroups o s (g :: gs) = (s, [], [])) ∧
    (∀ j, freeEntry s = some j → placeGroups o s (g :: gs) =
      let b : Job := {
        kind := .purge, level := o.level, policy := o.policy, ranges := g, pos := 0
        lba := (g.head?.map (rangeStart s)).getD 0, chunkSize := 64, pattern := some o.pattern, state := .queued
        pause := none, pending := .noAction, stamp := s.sweep.nextStamp, stall := none, wipeSet := [], recreated := false }
      let x := placeGroups o
        { s with sweep := { s.sweep with jobs := s.sweep.jobs.set j (.job b), nextStamp := s.sweep.nextStamp + 1 } } gs
      (x.1, g :: x.2.1, j :: x.2.2))) ∧
  (∀ s : State, freeEntry s = allJobs.find? (fun j => s.sweep.jobs[j] = .free || (jobAt s j).any finished)) ∧
  (∀ l : List RangeIx, groupsOf4 l = if l = [] then [] else l.take 4 :: groupsOf4 (l.drop 4)) ∧
  -- the writes of a theft wipe
  (∀ s : State,
    let x := theftTrigger s .tamper
    theftTamper s = issueTheft x.1
      [(.device { lastCause := some .tamper }, .theftDevice .tamper false), (x.2.2, .theftIntents .tamper x.2.1)]) ∧
  (∀ (cause : TheftCause) (control : Bool) (p : DevPatch) (set : List RangeIx) (op : StoreOp),
    theftChain cause control p set op =
      (.device { p with lastCause := some cause }, .theftDevice cause control) :: (op, .theftIntents cause set) ::
        if cause = .lockedStarts then [(.device { lockedStarts := some 0 }, .theftClear)] else []) ∧
  (∀ (s : State) (op : StoreOp) (d : Done) (rest : List (StoreOp × Done)),
    (theftOutstanding s = false →
      issueTheft s ((op, d) :: rest) = { s with writes := s.writes ++ [⟨op, d, rest⟩] }) ∧
    (∀ pre w post, s.writes = pre ++ w :: post → theftWrite w = true → (∀ y ∈ post, theftWrite y = false) →
      issueTheft s ((op, d) :: rest) =
        { s with writes := pre ++ { w with rest := w.rest ++ (op, d) :: rest } :: post })) ∧
  (∀ (s : State) (op : StoreOp) (more : List (StoreOp × Done)) (rest : List Write), s.startUp = none →
    let follows : List Write := match more with
      | [] => []
      | y :: ys => [⟨y.1, y.2, ys⟩]
    let u := { s with store := applyOp s op, writes := rest ++ follows }
    let next := fun (t : State) => exec .storeWriteCompletion s = .next t
    let goesOn := fun (t : State) =>
      (s.control.service = none → next (takeNext t)) ∧
      (∀ v, s.control.service = some v →
        ((∀ p, v.after ≠ .restart p) → next t) ∧
        (∀ p, v.after = .restart p → next (startUpGoesOn (finishService t))))
    (∀ cause, s.writes = ⟨op, .theftDevice cause false, more⟩ :: rest →
      next { u with dev := { s.dev with lastCause := cause } }) ∧
    (∀ cause v r, s.writes = ⟨op, .theftDevice cause true, more⟩ :: rest → s.control.service = some v →
      v.after = .respond r → next (respond { u with dev := { s.dev with lastCause := cause } } r)) ∧
    (∀ cause set, s.writes = ⟨op, .theftIntents cause set, more⟩ :: rest →
      goesOn (set.foldl
        (fun t r => match intentOf t r with
          | some e => raise t { kind := .wipeCommitted, range := some r, detail := .gen e.gen }
          | none => t)
        { u with intents := s.intents.map (fun e => if set.contains e.range then { e with stored := true } else e) })) ∧
    (s.writes = ⟨op, .theftClear, more⟩ :: rest → goesOn { u with dev := { s.dev with lockedStarts := 0 } }))

/-! ## The control unit -/

/-- Proof checking (R66): ABSENT passes; an index beyond 7 is BAD_REQUEST; an EMPTY credential is DENIED, but for credential
0 named by a request that takes OWNER authority; DISABLED and EXHAUSTED are refused by name; a SET credential passes exactly
when the proof matches, its tries and the strike count being as R68 gives, and else is accounted as a mismatch. A refused
request is answered with the refusal and not carried out, one that passes goes on to its own checks, and the prepared state
ends. -/
def Obligations.ProofCheckDecidesTheRequest : Prop :=
  ∀ (s : State) (p : StartInputs) (b : RequestBlock) (r : Request), starting s = some (b, r) →
    let owner := takesOwner r
    let u := { s with control := { s.control with prepared := none } }
    let go := fun (f : State → Option CredIx → Bool → State) => withProof u b owner f
    let refused := fun (st : RespStatus) =>
      checkProof s b owner = .refused st ∧ exec (commandOf p b r) s = .next (respond u ⟨st, .none⟩)
    (b.cred = 255 → checkProof s b owner = .passed none false ∧ ∀ f, go f = f u none false) ∧
    (b.cred ≠ 255 → 8 ≤ b.cred.toNat → refused .badRequest) ∧
    (∀ c : CredIx, b.cred.toNat = c.val →
      (s.creds[c].state = .empty → owner = true → c = 0 →
        checkProof s b owner = .passed (some c) false ∧ ∀ f, go f = f u (some c) false) ∧
      (s.creds[c].state = .empty → (owner = false ∨ c ≠ 0) → refused .denied) ∧
      (s.creds[c].state = .disabled → refused .disabled) ∧
      (s.creds[c].state = .exhausted → refused .exhausted) ∧
      (∀ v, s.creds[c].state = .set → s.creds[c].verifier = some v → Config.proofMatches b.proof v = false →
        checkProof s b owner = .mismatch c ∧ exec (commandOf p b r) s = .next (mismatch u b c)) ∧
      (∀ v, s.creds[c].state = .set → s.creds[c].verifier = some v → Config.proofMatches b.proof v = true →
        checkProof s b owner = .passed (some c) true ∧
        ∀ f, go f = f { u with dev := { s.dev with strikes := 0 }
                               creds := s.creds.set c { s.creds[c] with tries := s.creds[c].budget } }
          (some c) (decide (s.dev.strikes ≠ 0))))

/-- A mismatch costs the credential a try and the part a strike: UNLOCK_DENIED is journaled; at no tries left the credential
is EXHAUSTED and CRED_EXHAUSTED is journaled; the strike count stays at 250; the device record is stored, and DENIED follows
it. At the strike limit the count is 0 and a theft wipe with cause STRIKES runs instead, whose device record write DENIED
follows (R67). -/
def Obligations.MismatchIsAccounted : Prop :=
  ∀ (s : State) (v : Service) (b : RequestBlock) (c : CredIx), s.startUp = none → s.control.service = some v →
    s.creds[c].state = .set →
    let left := s.creds[c].tries - 1
    let strikes := if s.dev.strikes < 250 then s.dev.strikes + 1 else s.dev.strikes
    let denied : Event := { kind := .unlockDenied, cred := some c, detail := .code b.code }
    let u := { s with
      creds := s.creds.set c { s.creds[c] with tries := left, state := if left = 0 then .exhausted else .set }
      dev := { s.dev with strikes := strikes }
      journal := if left = 0 then
          journalRecord (journalRecord s.journal denied) { kind := .credExhausted, cred := some c }
        else journalRecord s.journal denied
      control := { s.control with service := some { v with after := .respond ⟨.denied, .none⟩ } } }
    let limit := s.dev.policy.strikeLimit
    (limit = 0 ∨ strikes ≠ limit →
      mismatch s b c = { u with writes := s.writes ++ [⟨.device { strikes := some strikes }, .control, []⟩] }) ∧
    (limit ≠ 0 → strikes = limit →
      let x := theftTrigger { u with dev := { s.dev with strikes := 0 } } .strikes
      mismatch s b c = engine (issueTheft x.1 (theftChain .strikes true { strikes := some 0 } x.2.1 x.2.2)))

/-- A request that needs OWNER authority, from another credential than OWNER, is refused NOT_PERMITTED; a configuration
request of OWNER is refused FROZEN while the part is frozen; each after the accounting of its proof (R65, R84). -/
def Obligations.OwnerRequestsNeedOwner : Prop :=
  ∀ (s : State) (p : StartInputs) (b : RequestBlock) (r : Request) (c : Option CredIx) (u : State) (d config : Bool),
    Serves s b r true c u d → needsOwner r = some config →
    (c ≠ some 0 → exec (commandOf p b r) s = .next (refusedWith u d .notPermitted)) ∧
    (c = some 0 → config = true → s.control.frozen = true →
      exec (commandOf p b r) s = .next (refusedWith u d .frozen))

/-- The answer of the request in service: its transaction completes OK with the response, unless a link reset has dropped it,
and the unit takes the oldest waiting request, if no theft wipe's store write is outstanding (R22, R174). -/
def Obligations.AnswerCompletesTheTransaction : Prop :=
  ∀ (s : State) (v : Service) (r : Response), s.control.service = some v →
    let a := match v.tag with
      | some x => closed s x .ok [] (some r)
      | none => s
    ((theftOutstanding s = true ∨ s.control.queue = []) →
      respond s r = { a with control := { s.control with service := none } }) ∧
    (theftOutstanding s = false → ∀ x q, s.control.queue = x :: q →
      respond s r = { a with control :=
        { s.control with service := some ⟨some x.1, x.2, .start⟩, queue := q } })

/-- An event whose kind is masked is not recorded; any other joins the ring with the next sequence number, and where the ring
holds 32 the oldest entry goes and gap pending is set (R178, R179). JOURNAL.READ returns and removes up to 16 of the oldest
entries, the first with the gap indication while gap pending is set, which it clears; it tells whether entries remain (R178,
R181). JOURNAL.MASK puts a mask in force, with START_UP and THEFT_WIPE left unmasked, and returns it (R179); bits that name
no kind, bit 0 among them, are not kept (the model's choice, log entry 20). Where a device record write is due, whether
entries remain is told as it stood when the entries were taken, before that write, and gap pending is cleared then, though a
link reset may drop the response (the model's choices, log entry 46). -/
def Obligations.JournalKeepsReadsAndMasks : Prop :=
  (∀ (j : Journal) (e : Event),
     (masked j.mask e.kind = true → journalRecord j e = j) ∧
     (masked j.mask e.kind = false → j.ring.length < 32 →
       journalRecord j e = { j with ring := j.ring ++ [⟨j.nextSeq, e⟩], nextSeq := j.nextSeq + 1 }) ∧
     (masked j.mask e.kind = false → ∀ x rest, j.ring = x :: rest → j.ring.length = 32 →
       journalRecord j e = { j with ring := rest ++ [⟨j.nextSeq, e⟩], nextSeq := j.nextSeq + 1, gapPending := true })) ∧
  ((∀ (s : State) (b : RequestBlock) (c : Option CredIx) (u : State) (d : Bool), Serves s b .journalRead false c u d →
      exec .journalRead s = .next (answerAfter
        { u with journal := { s.journal with
          ring := s.journal.ring.drop 16
          gapPending := if s.journal.ring = [] then s.journal.gapPending else false } } d
        ⟨.done, .journal
          ((s.journal.ring.take 16).zipIdx.map (fun x => (x.1, x.2 = 0 && s.journal.gapPending)))
          (decide (16 < s.journal.ring.length))⟩)) ∧
   (∀ (s : State) (b : RequestBlock) (m : Nat) (c : Option CredIx) (u : State) (d : Bool),
      Serves s b (.journalMask m) false c u d →
      ∃ k : BitVec 32,
        exec .journalMask s =
          .next (answerAfter { u with journal := { s.journal with mask := k } } d ⟨.done, .mask k⟩) ∧
        (∀ x : Kind, masked k x = true ↔ m.testBit (kindCode x) = true ∧ x ≠ .startUp ∧ x ≠ .theftWipe) ∧
        (∀ i, (∀ x : Kind, kindCode x ≠ i) → k.getLsbD i = false) ∧ (∀ i, (i = 0 ∨ 20 ≤ i) → k.getLsbD i = false)))

/-- FREEZE needs no authority and sets the part frozen (R84). QUERY needs none either: it returns its report, taken whole,
part by part, and ends the prepared state once the report is taken; where a device record write is due it is taken at its
completion (R176, R46, R61, R85, R104). The elapsed minutes are rounded down (the model's choice, log entry 46), and the
theft policy is reported without an acknowledge (its choice, log entry 19). A request block of an unknown code, or with
parameters too short, is answered BAD_REQUEST with no proof check and no accounting (R174, R185). -/
def Obligations.FreezeAndUnknownRequestsAreAnswered : Prop :=
  (∀ (s : State) (b : RequestBlock) (c : Option CredIx) (u : State) (d : Bool), Serves s b .freeze false c u d →
     exec .freeze s = .next (answerAfter { u with control := { u.control with frozen := true } } d ⟨.done, .none⟩)) ∧
  (∀ (s : State) (v : Service), s.control.service = some v → v.after = .start → theftOutstanding s = false →
     parse v.block = none → exec .unknownRequest s =
       .next (respond { s with control := { s.control with prepared := none } } ⟨.badRequest, .none⟩)) ∧
  (∀ (s : State) (b : RequestBlock) (c : Option CredIx) (m : Bool), starting s = some (b, .query) →
    checkProof s b false = .passed c m →
    let u := passedState s c m
    (passedDirty s m = true → exec .query s = .next (stored u true [] .query)) ∧
    (passedDirty s m = false → exec .query s =
      .next (respond { u with control := { s.control with prepared := none } } ⟨.done, .query (queryReport u)⟩))) ∧
  (∀ (s : State) (v : Service) (t : State), LastWrite s v .query t → exec .storeWriteCompletion s =
    .next (respond { t with control := { t.control with prepared := none } } ⟨.done, .query (queryReport t)⟩)) ∧
  (∀ s : State,
    let slots := fun (st : SlotState) => mediaSlots.countP (fun i => s.slots[i].state = st)
    queryReport s =
      { ranges := allRanges.map (fun r =>
          let x := s.ranges[r]
          { active := x.active, span := if r ≠ 0 ∧ x.active = true then some (x.start, x.len) else none
            lock := x.lock, cond := x.cond, guarded := guarded s r, gen := x.gen, flags := x.flags
            mig := if x.cond = .migrating then x.mig.map (fun m => (m.w, m.job)) else none })
        slotsEmpty := slots .empty, slotsLoaded := slots .loaded, slotsPending := slots .pendingZero
        slot0Loaded := decide (s.slots[(0 : SlotIx)].state = .loaded)
        creds := allCreds.map (fun c => ⟨s.creds[c].state, s.creds[c].budget, s.creds[c].tries, s.creds[c].grants⟩)
        strikes := s.dev.strikes, frozen := s.control.frozen, nReported := s.regions.nReported
        capFault := s.regions.capFault, u := s.regions.u, c := s.regions.c, persistentCeiling := s.dev.ceiling
        persistentWritten := s.regions.persistentWritten, reserveView := s.regions.reserveView
        pbwLen := s.dev.pbwLen, pbwEnabled := s.dev.pbwEnabled, writeOpen := s.regions.writeOpen
        windowOpen := windowOpen s, prepared := s.control.prepared.map (fun p => (p.cred, p.set))
        intents := s.intents, lastCause := s.dev.lastCause, damaged := s.damaged, policy := s.dev.policy
        lockedStarts := s.dev.lockedStarts
        levels := [s.theft.caseLine.level, s.theft.bayLine.level, s.theft.serviceLine.level]
        elapsedMinutes := s.theft.elapsed / (60 * 1000 * 1000), expired := s.theft.expired
        power := s.power.state, op := s.power.op, idle := s.dev.idle, doze := s.dev.doze
        quarantined := s.media.tags.toList.countP (fun t => t = .quarantined)
        unread := s.journal.ring.length, mask := s.journal.mask })

/-- RESTART of OWNER answers DONE first, after the device record write of R68 where one is due; then every other unfinished
transaction completes ABORTED, and start-up runs once the store writes already issued have completed, with persistent-written
kept and the frozen state cleared (R177, R183, R59); those writes are made alone, without the ones that were to follow them,
and every volatile table, list, timer and filter is as at power-on (the values that the spec does not give are the model's,
log entries 1 and 2, and its reading of what RESTART leaves to complete is log entry 22; that a completing store left in
flight on a DRAINING range stays the plain checkpoint of R153 is its reading too, log entry 15). The tag order of the completions
and the last ticket's being kept are the model's choices (log entries 23 and 11), as is that a RESTART whose device record
write completes while a theft wipe's store writes are outstanding waits for those (R115; log entry 47). -/
def Obligations.RestartAnswersThenStartsUp : Prop :=
  (∀ (s : State) (b : RequestBlock) (p : StartInputs) (u : State) (d : Bool), Serves s b .restart true (some 0) u d →
    (d = true → exec (.restart p) s = .next (stored u true [] (.restart p))) ∧
    (d = false → ∃ y, exec (.restart p) s = .next (startUpGoesOn y) ∧ y.store = s.store ∧
      RestartBegun (respond u ⟨.done, .none⟩) p y)) ∧
  (∀ (s : State) (v : Service) (p : StartInputs) (t : State), LastWrite s v (.restart p) t →
    (theftOutstanding t = true → exec .storeWriteCompletion s = .next t) ∧
    (theftOutstanding t = false → ∃ y, exec .storeWriteCompletion s = .next (startUpGoesOn (startUpGoesOn y)) ∧
      RestartBegun (respond t ⟨.done, .none⟩) p y))

/-! ## Unlocking and credentials -/

/-- UNLOCK with a credential refuses, in order, an illegal set, a range without a grant, a DRAINING or PURGING range, and a
load for which too few slots are EMPTY. For one STEADY LOCKED range it loads the range's key in the lowest EMPTY media slot,
and, once the cleared counts are stored where either was not 0, the range names the slot and is OPEN or READ_ONLY as its
grant says, UNLOCKED is journaled, and the lock states are returned. For a set of ranges the keys of those that are LOCKED,
two for a MIGRATING one, are loaded in index order in the lowest EMPTY slots, all or none, and held while the request waits
for its store write; they are then taken up: a range names its held slot, or the slot is zeroed where the range can no longer
take it. Each range of the set is OPEN or READ_ONLY as its grant says, a READ_ONLY one OPEN under a READ_WRITE grant, and a
REKEY job that the lock had paused returns (R70, R71, R52, R53, R54). That several ranges are opened, and their UNLOCKED
entries journaled, in the order the request names them is the model's reading (log entry 38). A legal set names 1 to 16
ranges, each by an index 0 to 15, no range twice, and every one an ACTIVE entry (R70). -/
def Obligations.UnlockOpensALockedRange : Prop :=
  ∀ (s : State) (b : RequestBlock) (l : List Nat) (c : CredIx),
    (∀ u d, Serves s b (.unlock l) false (some c) u d →
      (toRangeSet u l = none → exec .unlock s = .next (refusedWith u d .badRequest)) ∧
      (∀ set, toRangeSet u l = some set →
        let ungranted := ∃ r ∈ set, grantOf u.creds[c] r = none
        let busy := ∃ r ∈ set, u.ranges[r].cond = .draining ∨ u.ranges[r].cond = .purging
        (ungranted → exec .unlock s = .next (refusedWith u d .notPermitted)) ∧
        (¬ ungranted → busy → exec .unlock s = .next (refusedWith u d .rangeBusy)) ∧
        (¬ ungranted → ¬ busy →
          (emptyMediaSlots u).length < keyNeed u (set.filter (fun r => u.ranges[r].lock = .locked)) →
          exec .unlock s = .next (refusedWith u d .slotsExhausted))) ∧
      (∀ r a i rest, toRangeSet u l = some [r] → grantOf u.creds[c] r = some a → u.ranges[r].cond = .steady →
        u.ranges[r].lock = .locked → u.ranges[r].slot = none → emptyMediaSlots u = i :: rest →
        (∀ k : SlotIx, u.slots[k].held = false) → rekeyOf u r = none →
        let key := fun (held : Bool) => u.slots.set i
          ⟨.loaded, u.store.ranges[r].key, some (r, u.ranges[r].gen), some .current, held, if held then 0 else 1⟩
        let lock : LockState := match a with | .readWrite => .opened | .read => .readOnly
        let write : StoreOp := .device { strikes := some 0, lockedStarts := some 0 }
        ((d = true ∨ u.dev.lockedStarts ≠ 0) →
          exec .unlock s = .next (stored { u with slots := key true } false [write] (.unlock c [r]))) ∧
        (d = false → u.dev.lockedStarts = 0 →
          let t := { u with slots := key false
                            ranges := u.ranges.set r { u.ranges[r] with lock := lock, slot := some i } }
          exec .unlock s = .next (respond
            (engine (raise t { kind := .unlocked, range := some r, cred := some c, detail := .lock lock }))
            ⟨.done, .lockStates [lock]⟩))) ∧
      (∀ set, toRangeSet u l = some set →
        (∀ r ∈ set, (grantOf u.creds[c] r).isSome = true ∧ u.ranges[r].cond ≠ .draining ∧ u.ranges[r].cond ≠ .purging) →
        let need := set.filter (fun r => u.ranges[r].lock = .locked)
        (wantedKeys u need).length ≤ (emptyMediaSlots u).length →
        ((d = true ∨ u.dev.lockedStarts ≠ 0) → ∃ v, KeysHeld u v need ∧ exec .unlock s = .next (stored v false
          [.device { strikes := some 0, lockedStarts := some 0 }] (.unlock c set))) ∧
        (d = false → u.dev.lockedStarts = 0 → (∀ k : SlotIx, u.slots[k].held = false) → Keyless u need →
          ∃ v, KeysNamed u v need ∧
            let w := engine (set.foldl (unlockRange (some c) (fun r => (grantOf u.creds[c] r).getD .read)) v)
            exec .unlock s = .next (respond w ⟨.done, .lockStates (set.map (fun r => w.ranges[r].lock))⟩)))) ∧
    (∀ v set t, LastWrite s v (.unlock c set) t →
      let w := unlockAll { t with dev := { t.dev with lockedStarts := 0 } } (some c) set
        (fun r => (grantOf t.creds[c] r).getD .read)
      exec .storeWriteCompletion s =
        .next (respond w ⟨.done, .lockStates (set.map (fun r => w.ranges[r].lock))⟩)) ∧
    -- the legal sets
    (∀ set, toRangeSet s l = some set ↔ set.map (·.val) = l ∧ 1 ≤ l.length ∧ l.length ≤ 16 ∧ l.Nodup ∧
      ∀ r ∈ set, s.ranges[r].active = true) ∧
    -- holding and taking up keys, and one range of the set
    (∀ set : List RangeIx, set.Nodup → keyNeed s set = (wantedKeys s set).length ∧
      ((wantedKeys s set).length ≤ (emptyMediaSlots s).length → KeysHeld s (holdKeys s set) set)) ∧
    (∀ t set, KeysHeld s t set → (wantedKeys s set).length ≤ (emptyMediaSlots s).length →
      (∀ k : SlotIx, s.slots[k].held = false) → Keyless s set → KeysNamed s (takeUp t (fun _ => true)) set) ∧
    (∀ want, takeUp s want = mediaSlots.foldl (takeUpSlot want) s) ∧
    (∀ want (i : SlotIx),
      let zeroed := { s with slots := s.slots.set i ⟨.empty, none, none, none, false, 0⟩ }
      let up := s.slots.set i { s.slots[i] with held := false, count := s.slots[i].count + 1 }
      (s.slots[i].held = false → takeUpSlot want s i = s) ∧
      (s.slots[i].held = true → (s.slots[i].owner = none ∨ s.slots[i].role = none) → takeUpSlot want s i = zeroed) ∧
      (∀ r g, s.slots[i].held = true → s.slots[i].owner = some (r, g) →
        let live := s.ranges[r].active = true ∧ s.ranges[r].cond ≠ .draining ∧ want r = true
        (s.slots[i].role = some .current → live ∧ s.ranges[r].slot = none → takeUpSlot want s i =
          { s with slots := up, ranges := s.ranges.set r { s.ranges[r] with slot := some i } }) ∧
        (s.slots[i].role = some .current → ¬ (live ∧ s.ranges[r].slot = none) → takeUpSlot want s i = zeroed) ∧
        (∀ m, s.slots[i].role = some .next → s.ranges[r].mig = some m → live ∧ m.nextSlot = none →
          takeUpSlot want s i =
            { s with slots := up, ranges := s.ranges.set r { s.ranges[r] with mig := some { m with nextSlot := some i } } }) ∧
        (s.slots[i].role = some .next → ¬ (live ∧ ∃ m, s.ranges[r].mig = some m ∧ m.nextSlot = none) →
          takeUpSlot want s i = zeroed))) ∧
    (∀ t set cred access,
      unlockAll t cred set access = engine (set.foldl (unlockRange cred access) (takeUp t (fun _ => true)))) ∧
    (∀ cred access (r : RangeIx),
      let opens := fun (k : LockState) => raise (returnUnlocked
          { s with ranges := s.ranges.set r { s.ranges[r] with lock := k } } r)
        { kind := .unlocked, range := some r, cred := cred, detail := .lock k }
      (s.ranges[r].lock = .locked → s.ranges[r].slot.isSome = true →
        (access r = .readWrite → unlockRange cred access s r = opens .opened) ∧
        (access r = .read → unlockRange cred access s r = opens .readOnly)) ∧
      (s.ranges[r].lock = .readOnly → access r = .readWrite → unlockRange cred access s r = opens .opened) ∧
      ((s.ranges[r].lock = .opened ∨ (s.ranges[r].lock = .readOnly ∧ access r = .read) ∨
        (s.ranges[r].lock = .locked ∧ s.ranges[r].slot = none)) → unlockRange cred access s r = s)) ∧
    (∀ r : RangeIx,
      (∀ j k, rekeyOf s r = some j → jobAt s j = some k → k.state = .paused → k.pause = some .locked →
        returnUnlocked s r = returnJob s j) ∧
      ((∀ j k, rekeyOf s r = some j → jobAt s j = some k → ¬ (k.state = .paused ∧ k.pause = some .locked)) →
        returnUnlocked s r = s))

/-- UNLOCK with credential ABSENT makes no proof check and no accounting: it refuses an illegal set, a guarded range, a
DRAINING or PURGING range, and a load for which too few slots are EMPTY; with nothing left to open it answers DONE with the
lock states; it opens an unguarded STEADY range that is LOCKED; and of a set of ranges it loads the keys of those that are
LOCKED, two for a MIGRATING one, which name them at once, and opens every range, a READ_ONLY one too (R73, R52 to R54). LOCK
refuses an illegal set and an unguarded range; else the lock procedure runs on the set with cause REQUEST, and every range of
the set is returned as LOCKED (R75, R74). That UNLOCKED of several ranges is journaled in the order named, and LOCKED in
index order, is the model's reading (log entry 38). -/
def Obligations.UnlockAbsentAndLockFollowTheGuard : Prop :=
  ∀ (s : State) (b : RequestBlock) (l : List Nat),
    (starting s = some (b, .unlock l) → b.cred = 255 →
      let u := { s with control := { s.control with prepared := none } }
      (toRangeSet s l = none → exec .unlockAbsent s = .next (respond u ⟨.badRequest, .none⟩)) ∧
      (∀ set, toRangeSet s l = some set →
        let kept := ∃ r ∈ set, guarded s r = true
        let busy := ∃ r ∈ set, s.ranges[r].cond = .draining ∨ s.ranges[r].cond = .purging
        (kept → exec .unlockAbsent s = .next (respond u ⟨.notPermitted, .none⟩)) ∧
        (¬ kept → busy → exec .unlockAbsent s = .next (respond u ⟨.rangeBusy, .none⟩)) ∧
        (¬ kept → ¬ busy →
          (emptyMediaSlots s).length < keyNeed s (set.filter (fun r => s.ranges[r].lock = .locked)) →
          exec .unlockAbsent s = .next (respond u ⟨.slotsExhausted, .none⟩)) ∧
        (¬ kept → ¬ busy → (∀ r ∈ set, s.ranges[r].lock = .opened) → (∀ k : SlotIx, s.slots[k].held = false) →
          exec .unlockAbsent s =
            .next (respond (engine u) ⟨.done, .lockStates (set.map (fun _ => LockState.opened))⟩))) ∧
      (∀ r i rest, toRangeSet s l = some [r] → guarded s r = false → s.ranges[r].cond = .steady →
        s.ranges[r].lock = .locked → s.ranges[r].slot = none → emptyMediaSlots s = i :: rest →
        (∀ k : SlotIx, s.slots[k].held = false) → rekeyOf s r = none →
        let t := { u with
          ranges := s.ranges.set r { s.ranges[r] with lock := .opened, slot := some i }
          slots := s.slots.set i
            ⟨.loaded, s.store.ranges[r].key, some (r, s.ranges[r].gen), some .current, false, 1⟩ }
        exec .unlockAbsent s = .next (respond
          (engine (raise t { kind := .unlocked, range := some r, detail := .lock .opened }))
          ⟨.done, .lockStates [.opened]⟩)) ∧
      (∀ set, toRangeSet s l = some set → (∀ r ∈ set, guarded s r = false ∧ s.ranges[r].cond ≠ .draining ∧
          s.ranges[r].cond ≠ .purging) →
        let need := set.filter (fun r => s.ranges[r].lock = .locked)
        (wantedKeys s need).length ≤ (emptyMediaSlots s).length → (∀ k : SlotIx, s.slots[k].held = false) →
        Keyless s need → ∃ v, KeysNamed u v need ∧
          let w := engine (set.foldl (unlockRange none (fun _ => .readWrite)) v)
          exec .unlockAbsent s = .next (respond w ⟨.done, .lockStates (set.map (fun r => w.ranges[r].lock))⟩))) ∧
    (∀ c u d, Serves s b (.lock l) false c u d →
      (toRangeSet u l = none → exec .lock s = .next (refusedWith u d .badRequest)) ∧
      (∀ set, toRangeSet u l = some set →
        ((∃ r ∈ set, guarded u r = false) → exec .lock s = .next (refusedWith u d .notPermitted)) ∧
        ((∀ r ∈ set, guarded u r = true) → exec .lock s =
          .next (answerAfter (engine (lockProcedure u set .request)) d
            ⟨.done, .lockStates (set.map (fun _ => LockState.locked))⟩))))

/-- CRED.SET stores the target's record with the new verifier: from OWNER for any record, from a SET target for itself, and
from RECOVERY for record 0; any other combination is refused NOT_PERMITTED, a target beyond 7 named by another credential
than OWNER among them, and FROZEN follows that check for each of the three. At the completion the target is SET, or DISABLED
as before, with its tries full, and CONFIG_CHANGED is journaled (R77, R78). -/
def Obligations.CredSetStoresTheVerifier : Prop :=
  ∀ (s : State) (b : RequestBlock) (u : State) (d : Bool) (n : Nat),
    (∀ (k : CredIx) c v, n = k.val → u.control.frozen = false → Serves s b (.credSet n v) true (some c) u d →
      (c = 0 ∨ (c = k ∧ u.creds[k].state = .set) ∨ (c = 1 ∧ k = 0)) → exec .credSet s = .next (stored u d
        [.cred k ⟨if u.creds[k].state = .disabled then .disabled else .set, some (BitVec.ofNat 256 v),
          u.creds[k].budget, u.creds[k].grants⟩] (.credSet k (BitVec.ofNat 256 v)))) ∧
    (∀ c v, Serves s b (.credSet n v) true c u d →
      (c = none → exec .credSet s = .next (refusedWith u d .notPermitted)) ∧
      (∀ (e k : CredIx), c = some e → n = k.val → e ≠ 0 → e ≠ k → ¬ (e = 1 ∧ k = 0) →
        exec .credSet s = .next (refusedWith u d .notPermitted)) ∧
      (∀ e : CredIx, c = some e → e ≠ 0 → 8 ≤ n → exec .credSet s = .next (refusedWith u d .notPermitted)) ∧
      (c = some 0 → u.control.frozen = true → exec .credSet s = .next (refusedWith u d .frozen)) ∧
      (∀ e k : CredIx, c = some e → n = k.val → (e = 0 ∨ (e = k ∧ u.creds[k].state = .set) ∨ (e = 1 ∧ k = 0)) →
        u.control.frozen = true → exec .credSet s = .next (refusedWith u d .frozen)) ∧
      (c = some 0 → u.control.frozen = false → 8 ≤ n → exec .credSet s = .next (refusedWith u d .badRequest))) ∧
    (∀ (k : CredIx) v w t, LastWrite s v (.credSet k w) t →
      let x := t.creds[k]
      let y := { x with
        state := if x.state = .disabled then .disabled else .set, verifier := some w, tries := x.budget }
      exec .storeWriteCompletion s = .next (settled { t with creds := t.creds.set k y } none (some k) v .none))

/-- CRED.DISABLE and CRED.ENABLE need OWNER authority; a target of 0, an EMPTY one or one beyond 7 gives BAD_REQUEST. Else
the record is stored, and at the completion the target is DISABLED, with its tries kept or, where it was EXHAUSTED, full; or
SET with its tries full. Its verifier and grants are kept, and guard, lock states and slots do not change (R80). -/
def Obligations.CredDisableAndEnableChangeTheState : Prop :=
  ∀ (s : State) (b : RequestBlock) (c : Option CredIx) (u : State) (d : Bool) (n : Nat),
    (Serves s b (.credDisable n) true c u d →
      (c ≠ some 0 → exec .credDisable s = .next (refusedWith u d .notPermitted)) ∧
      (c = some 0 → u.control.frozen = false → 8 ≤ n → exec .credDisable s = .next (refusedWith u d .badRequest)) ∧
      (∀ k : CredIx, n = k.val → c = some 0 → u.control.frozen = false → exec .credDisable s = .next
        (if k = 0 ∨ u.creds[k].state = .empty then refusedWith u d .badRequest
        else stored u d [.cred k ⟨.disabled, u.creds[k].verifier, u.creds[k].budget, u.creds[k].grants⟩]
          (.credDisable k)))) ∧
    (Serves s b (.credEnable n) true c u d →
      (c ≠ some 0 → exec .credEnable s = .next (refusedWith u d .notPermitted)) ∧
      (c = some 0 → u.control.frozen = false → 8 ≤ n → exec .credEnable s = .next (refusedWith u d .badRequest)) ∧
      (∀ k : CredIx, n = k.val → c = some 0 → u.control.frozen = false → exec .credEnable s = .next
        (if k = 0 ∨ u.creds[k].state = .empty then refusedWith u d .badRequest
        else stored u d [.cred k ⟨.set, u.creds[k].verifier, u.creds[k].budget, u.creds[k].grants⟩]
          (.credEnable k)))) ∧
    (∀ (k : CredIx) v t,
      let x := t.creds[k]
      let changed := fun (y : Cred) => { t with creds := t.creds.set k y }
      let disabled := changed { x with state := .disabled, tries := if x.state = .exhausted then x.budget else x.tries }
      let enabled := changed { x with state := .set, tries := x.budget }
      (LastWrite s v (.credDisable k) t → exec .storeWriteCompletion s = .next (settled disabled none (some k) v .none)) ∧
      (LastWrite s v (.credEnable k) t → exec .storeWriteCompletion s = .next (settled enabled none (some k) v .none)) ∧
      (x.state ≠ .empty → ∀ r, guarded disabled r = guarded t r ∧ guarded enabled r = guarded t r))

/-- CRED.BUDGET needs OWNER authority; a budget outside 1–15 or a target beyond 7 gives BAD_REQUEST. A target in any state is
taken, with any legal budget: the record is stored with it, and at the completion the budget is in force and tries left is
set to it; an EXHAUSTED target is SET and any other stays in its state. The strike count does not change (R83). -/
def Obligations.CredBudgetSetsBudgetAndTries : Prop :=
  ∀ (s : State) (b : RequestBlock) (c : Option CredIx) (u : State) (d : Bool) (n m : Nat),
    (Serves s b (.credBudget n m) true c u d →
      (c ≠ some 0 → exec .credBudget s = .next (refusedWith u d .notPermitted)) ∧
      (c = some 0 → u.control.frozen = false → (8 ≤ n ∨ m < 1 ∨ 15 < m) →
        exec .credBudget s = .next (refusedWith u d .badRequest)) ∧
      (∀ k : CredIx, n = k.val → c = some 0 → u.control.frozen = false → 1 ≤ m → m ≤ 15 →
        exec .credBudget s = .next (stored u d
          [.cred k ⟨if u.creds[k].state = .exhausted then .set else u.creds[k].state, u.creds[k].verifier, m,
            u.creds[k].grants⟩] (.credBudget k m)))) ∧
    (∀ (k : CredIx) v t, LastWrite s v (.credBudget k m) t →
      let x := t.creds[k]
      let y := { x with budget := m, tries := m, state := if x.state = .exhausted then .set else x.state }
      exec .storeWriteCompletion s = .next (settled { t with creds := t.creds.set k y } none (some k) v .none))

/-- CRED.GRANT, CRED.REVOKE and CRED.CLEAR store the target's record with its new grants; a removal that leaves a LOCKED
range unguarded loads and holds its keys, and is refused SLOTS_EXHAUSTED where the slots are too few. These are the ACTIVE
ranges that are LOCKED and not DRAINING, and that no other credential guards. At the completion the grants change: a grant
already held has its access changed in place, and a removed one goes. A range left unguarded and not DRAINING is then OPEN if
it names its keys, and its REKEY job returns if the lock had paused it; any other stays as it is (R79, R81, R82, R33). -/
def Obligations.GrantsFollowTheirRequests : Prop :=
  ∀ (s : State) (b : RequestBlock) (u : State) (d : Bool),
    (∀ (k : CredIx) (r : RangeIx) n m, n = k.val → m = r.val → u.control.frozen = false →
      let x := u.creds[k]
      let record := fun (st : CredState) (g : List Grant) => StoreOp.cred k ⟨st, x.verifier, x.budget, g⟩
      let kept := if x.state = .exhausted then CredState.set else x.state
      (∀ a, Serves s b (.credGrant n m a) true (some 0) u d →
        (a = 0 ∨ a = 1) → x.state ≠ .empty → u.ranges[r].active = true →
        ¬ (k = 1 ∧ u.ranges[r].flags.recoveryBarred = true) →
        let access : Access := if a = 0 then .read else .readWrite
        ((∀ g ∈ x.grants, g.range ≠ r) → exec .credGrant s = .next
          (stored u d [record kept (x.grants ++ [⟨r, access⟩])] (.credGrant k r access))) ∧
        ((∃ g ∈ x.grants, g.range = r) → exec .credGrant s = .next
          (stored u d [record kept (x.grants.map (fun g => if g.range = r then ⟨r, access⟩ else g))]
            (.credGrant k r access)))) ∧
      (∀ a, Serves s b (.credGrant n m a) true (some 0) u d →
        ((1 < a ∨ x.state = .empty ∨ u.ranges[r].active = false) →
          exec .credGrant s = .next (refusedWith u d .badRequest)) ∧
        (a ≤ 1 → x.state ≠ .empty → u.ranges[r].active = true → k = 1 → u.ranges[r].flags.recoveryBarred = true →
          exec .credGrant s = .next (refusedWith u d .notPermitted))) ∧
      (Serves s b (.credRevoke n m) true (some 0) u d →
        let need := openedByLoss u k [r]
        let cut := record kept (x.grants.filter (fun g => g.range ≠ r))
        ((∀ g ∈ x.grants, g.range ≠ r) → exec .credRevoke s = .next (refusedWith u d .badRequest)) ∧
        ((∃ g ∈ x.grants, g.range = r) → (emptyMediaSlots u).length < keyNeed u need →
          exec .credRevoke s = .next (refusedWith u d .slotsExhausted)) ∧
        ((∃ g ∈ x.grants, g.range = r) → keyNeed u need ≤ (emptyMediaSlots u).length →
          exec .credRevoke s = .next (stored (holdKeys u need) d [cut] (.credRevoke k r)))) ∧
      (Serves s b (.credClear n) true (some 0) u d →
        let need := openedByLoss u k (x.grants.map (·.range))
        ((emptyMediaSlots u).length < keyNeed u need →
          exec .credClear s = .next (refusedWith u d .slotsExhausted)) ∧
        (keyNeed u need ≤ (emptyMediaSlots u).length → exec .credClear s = .next
          (stored (holdKeys u need) d [.cred k ⟨.empty, none, x.budget, []⟩] (.credClear k))))) ∧
    (∀ n, 8 ≤ n → u.control.frozen = false →
      (Serves s b (.credClear n) true (some 0) u d → exec .credClear s = .next (refusedWith u d .badRequest)) ∧
      (∀ m, Serves s b (.credRevoke n m) true (some 0) u d →
        exec .credRevoke s = .next (refusedWith u d .badRequest)) ∧
      (∀ m a, Serves s b (.credGrant n m a) true (some 0) u d →
        exec .credGrant s = .next (refusedWith u d .badRequest))) ∧
    (∀ n m, 16 ≤ m → u.control.frozen = false →
      (Serves s b (.credRevoke n m) true (some 0) u d → exec .credRevoke s = .next (refusedWith u d .badRequest)) ∧
      (∀ a, Serves s b (.credGrant n m a) true (some 0) u d →
        exec .credGrant s = .next (refusedWith u d .badRequest))) ∧
    (∀ (k : CredIx) (l : List RangeIx),
      let without := { s with creds := s.creds.set k { s.creds[k] with grants := [] } }
      openedByLoss s k l = l.filter (fun r => s.ranges[r].active && s.ranges[r].lock = .locked &&
        s.ranges[r].cond ≠ .draining && guarded s r && !guarded without r)) ∧
    (∀ (k : CredIx) (r : RangeIx) v t,
      let x := t.creds[k]
      let put := fun (y : Cred) => { t with creds := t.creds.set k y }
      (∀ a, LastWrite s v (.credGrant k r a) t → (∀ g ∈ x.grants, g.range ≠ r) → exec .storeWriteCompletion s =
        .next (settled (put { x with grants := x.grants ++ [⟨r, a⟩] }) none (some k) v .none)) ∧
      (∀ a, LastWrite s v (.credGrant k r a) t → (∃ g ∈ x.grants, g.range = r) → exec .storeWriteCompletion s =
        .next (settled (put { x with grants := x.grants.map (fun g => if g.range = r then ⟨r, a⟩ else g) })
          none (some k) v .none)) ∧
      (LastWrite s v (.credRevoke k r) t → exec .storeWriteCompletion s = .next (settled
        (engine (openIfUnguarded (takeUp (put { x with grants := x.grants.filter (fun g => g.range ≠ r) })
          (fun _ => true)) r)) none (some k) v .none)) ∧
      (LastWrite s v (.credClear k) t → x.grants = [] → exec .storeWriteCompletion s = .next (settled
        (put { x with state := .empty, verifier := none, grants := [], tries := x.budget }) none (some k) v .none)) ∧
      (∀ g gs, LastWrite s v (.credClear k) t → x.grants = g :: gs → exec .storeWriteCompletion s = .next (settled
        (engine (((g :: gs).map (·.range)).foldl openIfUnguarded
          (takeUp (put { x with state := .empty, verifier := none, grants := [], tries := x.budget }) (fun _ => true))))
        none (some k) v .none)) ∧
      (let opens := t.ranges[r].active = true ∧ guarded t r = false ∧ t.ranges[r].cond ≠ .draining ∧
        t.ranges[r].lock ≠ .opened ∧ t.ranges[r].slot.isSome = true
      (opens → openIfUnguarded t r =
        returnUnlocked { t with ranges := t.ranges.set r { t.ranges[r] with lock := .opened } } r) ∧
      (¬ opens → openIfUnguarded t r = t)))

/-! ## Ranges and regions -/

/-- RANGE.DEFINE refuses in order: an index that is not 1–15, an unaligned or empty span or one beyond U (BAD_REQUEST); an
entry that is ACTIVE, or a span over a range that is not STEADY (RANGE_BUSY); and no EMPTY media slot. Else it creates a key,
holds it in the lowest EMPTY slot at the stored generation plus 1, and stores the record; at the completion the entry is
ACTIVE, OPEN and STEADY and names the slot (R40, R41, R42, R52, R54). -/
def Obligations.RangeDefineCreatesAnOpenRange : Prop :=
  ∀ (s : State) (b : RequestBlock) (u : State) (d : Bool) (n start len flags : Nat),
    (Serves s b (.rangeDefine n start len flags) true (some 0) u d → u.control.frozen = false →
      let lawful := start % 8 = 0 ∧ len % 8 = 0 ∧ 8 ≤ len ∧ start + len ≤ u.regions.u
      ((n = 0 ∨ 16 ≤ n ∨ ¬ lawful) → exec .rangeDefine s = .next (refusedWith u d .badRequest)) ∧
      (∀ r : RangeIx, n = r.val → r ≠ 0 → lawful →
        let busy := u.ranges[r].active = true ∨ ∃ q ∈ rangesOfSpan u start (start + len), u.ranges[q].cond ≠ .steady
        (busy → exec .rangeDefine s = .next (refusedWith u d .rangeBusy)) ∧
        (¬ busy → emptyMediaSlots u = [] → exec .rangeDefine s = .next (refusedWith u d .slotsExhausted)) ∧
        (¬ busy → ∀ i rest, emptyMediaSlots u = i :: rest →
          let gen := u.store.ranges[r].gen + 1
          let key := Config.newKey u.fresh
          exec .rangeDefine s = .next (stored
            { u with fresh := u.fresh + 1
                     slots := u.slots.set i ⟨.loaded, some key, some (r, gen), some .current, true, 0⟩ } d
            [.rangeDefine r start len (toFlags flags) gen key] (.rangeDefine r start len (toFlags flags) gen))))) ∧
    (∀ v r f gen key i t, LastWrite s v (.rangeDefine r start len f gen) t → i ≠ 0 →
      t.slots[i] = ⟨.loaded, some key, some (r, gen), some .current, true, 0⟩ →
      (∀ k : SlotIx, k ≠ i → t.slots[k].held = false) →
      exec .storeWriteCompletion s = .next (settled
        { t with ranges := t.ranges.set r ⟨true, start, len, .opened, .steady, some i, none, gen, f, false⟩
                 slots := t.slots.set i ⟨.loaded, some key, some (r, gen), some .current, false, 1⟩ }
        (some r) none v .none))

/-- RANGE.DELETE and RANGE.FLAGS refuse an illegal index or a FREE entry with BAD_REQUEST, and RANGE.DELETE one that is not
STEADY with RANGE_BUSY. RANGE.DELETE stores, one after another, the records of the credentials that held a grant to the
range, the damaged list if it held entries of the range, and the FREE record; at the last the entry is FREE with its
generation kept, no grant and no damaged entry names it, and no live PURGE job does; where a theft wipe has given it an
intent entry since the check, that goes too and the intent list is stored before the response, and the generation that the
entry keeps is the one it had in force, whatever a drain has stored (R25; the model's choices, log entry 41); and the slot
that it named is EMPTY if nothing else refers to it, or else PENDING_ZERO with one reference fewer (R55). RANGE.FLAGS stores
the new flags, which are in force at the completion; one that bars RECOVERY from a range to which credential 1 holds a grant
takes that grant away, and the range, if left unguarded, takes up the keys held for it and opens (R40, R43, R44). -/
def Obligations.RangeDeleteAndFlagsChangeTheEntry : Prop :=
  ∀ (s : State) (b : RequestBlock) (u : State) (d : Bool) (n : Nat), u.control.frozen = false →
    (Serves s b (.rangeDelete n) true (some 0) u d →
      ((n = 0 ∨ 16 ≤ n) → exec .rangeDelete s = .next (refusedWith u d .badRequest)) ∧
      (∀ r : RangeIx, n = r.val → r ≠ 0 →
        (u.ranges[r].active = false → exec .rangeDelete s = .next (refusedWith u d .badRequest)) ∧
        (u.ranges[r].active = true → u.ranges[r].cond ≠ .steady →
          exec .rangeDelete s = .next (refusedWith u d .rangeBusy)) ∧
        (u.ranges[r].active = true → u.ranges[r].cond = .steady →
          exec .rangeDelete s = .next (stored u d
            ((allCreds.filter (fun c => (grantOf u.creds[c] r).isSome)).map (fun c => StoreOp.cred c
                ⟨if u.creds[c].state = .exhausted then .set else u.creds[c].state, u.creds[c].verifier,
                  u.creds[c].budget, u.creds[c].grants.filter (fun g => g.range ≠ r)⟩) ++
              (if u.damaged.any (fun e => e.range = r) then [.damagedRange r] else []) ++ [.rangeFree r])
            (.rangeDelete r))))) ∧
    (∀ flags, Serves s b (.rangeFlags n flags) true (some 0) u d →
      (16 ≤ n → exec .rangeFlags s = .next (refusedWith u d .badRequest)) ∧
      (∀ r : RangeIx, n = r.val →
        let f := toFlags flags
        let bars := f.recoveryBarred = true ∧ (grantOf u.creds[(1 : CredIx)] r).isSome = true
        (u.ranges[r].active = false → exec .rangeFlags s = .next (refusedWith u d .badRequest)) ∧
        (u.ranges[r].active = true → ¬ bars →
          exec .rangeFlags s = .next (stored u d [.rangeFlags r f] (.rangeFlags r f false))) ∧
        (u.ranges[r].active = true → bars →
          let need := openedByLoss u 1 [r]
          let x := u.creds[(1 : CredIx)]
          ((emptyMediaSlots u).length < keyNeed u need →
            exec .rangeFlags s = .next (refusedWith u d .slotsExhausted)) ∧
          (keyNeed u need ≤ (emptyMediaSlots u).length → exec .rangeFlags s = .next (stored (holdKeys u need) d
            [.cred 1 ⟨if x.state = .exhausted then .set else x.state, x.verifier, x.budget,
                x.grants.filter (fun g => g.range ≠ r)⟩, .rangeFlags r f] (.rangeFlags r f true)))))) ∧
    (∀ v t (r : RangeIx),
      (∀ f, LastWrite s v (.rangeFlags r f false) t → exec .storeWriteCompletion s = .next (settled
        { t with ranges := t.ranges.set r { t.ranges[r] with flags := f } } (some r) none v .none)) ∧
      (∀ f, LastWrite s v (.rangeFlags r f true) t → exec .storeWriteCompletion s = .next (settled
        (engine (openIfUnguarded (takeUp
          { t with
            ranges := t.ranges.set r { t.ranges[r] with flags := f }
            creds := t.creds.set 1 { t.creds[(1 : CredIx)] with
              grants := t.creds[(1 : CredIx)].grants.filter (fun g => g.range ≠ r) } }
          (fun _ => true)) r)) (some r) none v .none)) ∧
      (LastWrite s v (.rangeDelete r) t → ∃ w,
        w = { t with ranges := w.ranges, slots := w.slots, creds := w.creds, sweep := w.sweep, arb := w.arb
                     journal := w.journal, damaged := t.damaged.filter (fun e => e.range ≠ r)
                     intents := t.intents.filter (fun e => e.range ≠ r) } ∧
        w.ranges[r] = ⟨false, 0, 0, .locked, .steady, none, none, t.ranges[r].gen,
          ⟨.refuse, false, false, false, false⟩, false⟩ ∧
        (∀ q, q ≠ r → w.ranges[q] = t.ranges[q]) ∧
        (nextSlotOf t.ranges[r] = none → ∀ i : SlotIx, w.slots[i] =
          if t.ranges[r].slot = some i then
            if t.slots[i].count ≤ 1 then ⟨.empty, none, none, none, false, 0⟩
            else { t.slots[i] with state := .pendingZero, count := t.slots[i].count - 1 }
          else t.slots[i]) ∧
        (∀ c : CredIx, w.creds[c] =
          { t.creds[c] with grants := t.creds[c].grants.filter (fun g => g.range ≠ r) }) ∧
        (∀ j b, jobAt w j = some b → b.kind = .purge → finished b = false → r ∉ b.ranges) ∧
        ((∀ j b, jobAt t j = some b → b.kind = .purge → finished b = false → r ∉ b.ranges) →
          w.sweep = t.sweep ∧ w.arb = t.arb ∧ w.journal = t.journal) ∧
        (intentOf t r = none → exec .storeWriteCompletion s = .next (settled (engine w) (some r) none v .none)) ∧
        (intentOf t r ≠ none → exec .storeWriteCompletion s = .next (stored
          (raise (engine w) (configEvent (some r) none v)) false [.intents [r] [] []] (.respond ⟨.done, .none⟩)))))

/-- RANGE.REKEY is taken from OWNER or a READ_WRITE grant to the range. It refuses in order NOT_PERMITTED, FROZEN, illegal
parameters or a FREE entry (BAD_REQUEST), a range that is not OPEN and STEADY (RANGE_BUSY), no job entry (TABLE_FULL) and no
EMPTY media slot. Else it holds a new next key and a job entry and stores the migration record; at the completion the range
is MIGRATING with W at its start and its job is QUEUED; a range that has been LOCKED in between is MIGRATING too, but the key
is not taken up and the job is PAUSED with cause LOCKED; one that has become DRAINING gives RANGE_BUSY instead (R140, R141,
R54). That a lane policy byte of no meaning is an illegal parameter is the model's choice (log entry 20). -/
def Obligations.RekeyMakesTheRangeMigrating : Prop :=
  ∀ (s : State) (b : RequestBlock) (c : Option CredIx) (u : State) (d : Bool) (n level policy size : Nat),
    (Serves s b (.rangeRekey n level policy size) true c u d →
      let may := ∃ e : CredIx, c = some e ∧
        (e = 0 ∨ ∃ r : RangeIx, n = r.val ∧ grantOf u.creds[e] r = some .readWrite)
      let lawful := 1 ≤ level ∧ level ≤ 3 ∧ (size = 8 ∨ size = 16 ∨ size = 32 ∨ size = 64) ∧
        (policy = 0 ∨ (policy = 1 ∧ level = 1))
      (¬ may → exec .rangeRekey s = .next (refusedWith u d .notPermitted)) ∧
      (may → u.control.frozen = true → exec .rangeRekey s = .next (refusedWith u d .frozen)) ∧
      (may → u.control.frozen = false →
        ((16 ≤ n ∨ ¬ lawful) → exec .rangeRekey s = .next (refusedWith u d .badRequest)) ∧
        (∀ r : RangeIx, n = r.val → lawful →
          let ready := u.ranges[r].lock = .opened ∧ u.ranges[r].cond = .steady
          let p : LanePolicy := if policy = 0 then .yielding else .holding
          (u.ranges[r].active = false → exec .rangeRekey s = .next (refusedWith u d .badRequest)) ∧
          (u.ranges[r].active = true → ¬ ready → exec .rangeRekey s = .next (refusedWith u d .rangeBusy)) ∧
          (u.ranges[r].active = true → ready → freeEntry u = none →
            exec .rangeRekey s = .next (refusedWith u d .tableFull)) ∧
          (∀ j, u.ranges[r].active = true → ready → freeEntry u = some j → emptyMediaSlots u = [] →
            exec .rangeRekey s = .next (refusedWith
              (engine { u with sweep := { u.sweep with jobs := u.sweep.jobs.set j .free } }) d .slotsExhausted)) ∧
          (∀ j i rest, u.ranges[r].active = true → ready → freeEntry u = some j → emptyMediaSlots u = i :: rest →
            let key := Config.newKey u.fresh
            exec .rangeRekey s = .next (stored
              { u with
                fresh := u.fresh + 1, sweep := { u.sweep with jobs := u.sweep.jobs.set j .reserved }
                slots := u.slots.set i ⟨.loaded, some key, some (r, u.ranges[r].gen), some .next, true, 0⟩ } d
              [.rangeMigrate r ⟨key, if r = 0 then 0 else u.ranges[r].start, level, p, size, none⟩]
              (.rangeRekey r j level p size)))))) ∧
    (∀ v t (r : RangeIx) j p i g key, LastWrite s v (.rangeRekey r j level p size) t → i ≠ 0 →
      t.slots[i] = ⟨.loaded, some key, some (r, g), some .next, true, 0⟩ →
      (∀ k : SlotIx, k ≠ i → t.slots[k].held = false) →
      let w := if r = 0 then 0 else t.ranges[r].start
      (t.ranges[r].active = true → t.ranges[r].lock = .opened → t.ranges[r].cond ≠ .draining →
        exec .storeWriteCompletion s = .next (settled
          (engine { t with
            ranges := t.ranges.set r { t.ranges[r] with
              cond := .migrating, mig := some ⟨w, some i, none, some j, level, p, size⟩ }
            slots := t.slots.set i ⟨.loaded, some key, some (r, g), some .next, false, 1⟩
            sweep := { t.sweep with
              nextStamp := t.sweep.nextStamp + 1
              jobs := t.sweep.jobs.set j (.job
                { kind := .rekey, level := level, policy := p, ranges := [r], pos := 0, lba := w, chunkSize := size
                  pattern := none, state := .queued, pause := none, pending := .noAction
                  stamp := t.sweep.nextStamp, stall := none, wipeSet := [], recreated := false }) } })
          (some r) none v (.job j))) ∧
      (t.ranges[r].lock = .locked → t.ranges[r].cond ≠ .draining →
        exec .storeWriteCompletion s = .next (settled
          (engine { t with
            ranges := t.ranges.set r { t.ranges[r] with
              cond := .migrating, mig := some ⟨w, none, none, some j, level, p, size⟩ }
            slots := t.slots.set i ⟨.empty, none, none, none, false, 0⟩
            sweep := { t.sweep with
              nextStamp := t.sweep.nextStamp + 1
              jobs := t.sweep.jobs.set j (.job
                { kind := .rekey, level := level, policy := p, ranges := [r], pos := 0, lba := w, chunkSize := size
                  pattern := none, state := .paused, pause := some .locked, pending := .noAction
                  stamp := t.sweep.nextStamp, stall := none, wipeSet := [], recreated := false }) } })
          (some r) none v (.job j))) ∧
      (t.ranges[r].cond = .draining →
        exec .storeWriteCompletion s = .next (respond
          (engine { t with
            slots := t.slots.set i ⟨.empty, none, none, none, false, 0⟩
            sweep := { t.sweep with jobs := t.sweep.jobs.set j .free } }) ⟨.rangeBusy, .none⟩)))

/-- CEILING.SET takes a value from 1 to U: a temporary ceiling is in force at once, after the device record write of R68, a
persistent one is stored first and once only in a power-on (ALREADY_SET). RESERVE.OPEN, from OWNER, RECOVERY or a credential
with a grant to a range in the reserve, opens the view unless the sleep request line is high, and reports the view as it
stands when it answers; RESERVE.CLOSE closes it. PBW.SET takes a multiple of 8 up to 32768, with yes-or-no bytes 0 or 1 (the
model's choice for other bytes, log entry 20), and stores it; at the completion the length, the enable and write-open are in
force, write-open staying clear where a link reset has dropped the response or the line is high (R90, R91, R94, R95,
R100). -/
def Obligations.RegionRequestsMoveTheirBounds : Prop :=
  ∀ (s : State) (b : RequestBlock) (c : Option CredIx) (u : State) (d : Bool),
    (∀ n mode, Serves s b (.ceilingSet n mode) true (some 0) u d → u.control.frozen = false →
      let e : Event := { kind := .configChanged, detail := .code b.code }
      ((n < 1 ∨ u.regions.u < n ∨ 1 < mode) → exec .ceilingSet s = .next (refusedWith u d .badRequest)) ∧
      (1 ≤ n → n ≤ u.regions.u →
        (mode = 0 → d = true → exec .ceilingSet s = .next (stored u true [] (.ceiling n false))) ∧
        (mode = 0 → d = false → exec .ceilingSet s =
          .next (respond (raise { u with regions := { u.regions with c := n } } e) ⟨.done, .ceiling n⟩)) ∧
        (mode = 1 → u.regions.persistentWritten = true →
          exec .ceilingSet s = .next (refusedWith u d .alreadySet)) ∧
        (mode = 1 → u.regions.persistentWritten = false →
          exec .ceilingSet s = .next (stored u d [.device { ceiling := some n }] (.ceiling n true))))) ∧
    (Serves s b .reserveOpen true c u d →
      let may := c = some 0 ∨ c = some 1 ∨ ∃ e : CredIx, c = some e ∧ ∃ r : RangeIx, r ≠ 0 ∧ u.ranges[r].active = true ∧
        (grantOf u.creds[e] r).isSome = true ∧ u.regions.c ≤ u.ranges[r].start ∧
        u.ranges[r].start + u.ranges[r].len ≤ u.regions.u
      (¬ may → exec .reserveOpen s = .next (refusedWith u d .notPermitted)) ∧
      (may → d = true → exec .reserveOpen s = .next (stored
        { u with regions := { u.regions with reserveView := !u.sleepLine } } true [] .reserve)) ∧
      (may → d = false → exec .reserveOpen s = .next (respond
        { u with regions := { u.regions with reserveView := !u.sleepLine } } ⟨.done, .reserve (!u.sleepLine)⟩))) ∧
    (Serves s b .reserveClose true (some 0) u d → exec .reserveClose s = .next (answerAfter
      { u with regions := { u.regions with reserveView := false } } d ⟨.done, .none⟩)) ∧
    (∀ len enable write, Serves s b (.pbwSet len enable write) true (some 0) u d → u.control.frozen = false →
      let lawful := len ≤ 32768 ∧ len % 8 = 0 ∧ enable ≤ 1 ∧ write ≤ 1
      (¬ lawful → exec .pbwSet s = .next (refusedWith u d .badRequest)) ∧
      (lawful → exec .pbwSet s = .next (stored u d [.device { pbw := some (len, decide (enable = 1)) }]
        (.pbw len (decide (enable = 1)) (decide (write = 1)))))) ∧
    (∀ v t,
      (LastWrite s v .reserve t → exec .storeWriteCompletion s =
        .next (respond t ⟨.done, .reserve t.regions.reserveView⟩)) ∧
      (∀ n, LastWrite s v (.ceiling n false) t → exec .storeWriteCompletion s = .next (settled
        { t with regions := { t.regions with c := n } } none none v (.ceiling n))) ∧
      (∀ n, LastWrite s v (.ceiling n true) t → exec .storeWriteCompletion s = .next (settled
        { t with dev := { t.dev with ceiling := n }, regions := { t.regions with c := n, persistentWritten := true } }
        none none v (.ceiling n))) ∧
      (∀ len enable write, LastWrite s v (.pbw len enable write) t →
        let w := { t with dev := { t.dev with pbwLen := len, pbwEnabled := enable }
                          regions := { t.regions with writeOpen := write && v.tag.isSome && !t.sleepLine } }
        exec .storeWriteCompletion s =
          .next (settled w none none v (.pbw len enable w.regions.writeOpen (windowOpen w)))))

/-! ## Wipes and sweeps -/

/-- WIPE.PREPARE is taken from OWNER, RECOVERY or a credential with a READ_WRITE grant to every named range, ALL naming every
ACTIVE one, for an ACTIVE set with no DRAINING range: it issues a nonzero ticket that differs from the last and holds the
prepared state. WIPE.COMMIT with that ticket and credential stores pending intents for the set, unless a range of it is
DRAINING or the job table lacks room; any other is refused NO_TICKET; where a device record write is due these checks are
made at its completion (the model's reading, log entry 12). At the completion of the intent write every range of the set that
is not DRAINING already is DRAINING and LOCKED and names no slot, as a theft wipe leaves its ranges, and its jobs are dealt
with, in job number order (the model's choice, log entry 27); WIPE_COMMITTED is journaled for each with the destroyed
generation, PURGE jobs of up to 4 ranges are queued for it where the commit has a purge option, one for each 4 ranges or as
many as find a job entry, where too few are left by then (the model's reading, log entry 34), no other range, slot, job or
record changes, and the response follows the writes of the ranges that a cancelled job leaves STEADY, or without their purge
option where they drain (R39; the writes are issued together, the model's reading, log entry 14). There is room where the
PURGE jobs, one for each 4 ranges, are no more than the job table entries that are FREE, finished, or of a job that the
commit cancels at once (R38, R103, R104, R105, R106, R107, R108, R112). -/
def Obligations.WipeIsPreparedAndCommitted : Prop :=
  ∀ (s : State) (b : RequestBlock) (c : Option CredIx) (u : State) (d : Bool),
    (∀ level pattern sel set, Serves s b (.wipePrepare level pattern sel) true c u d →
      let l := match sel with
        | some l => l
        | none => (allRanges.filter (fun r => u.ranges[r].active)).map (·.val)
      let may := ∃ e : CredIx, c = some e ∧ (e = 0 ∨ e = 1 ∨
        ∀ n ∈ l, ∃ r : RangeIx, n = r.val ∧ grantOf u.creds[e] r = some .readWrite)
      (¬ may → exec .wipePrepare s = .next (refusedWith u d .notPermitted)) ∧
      (may → u.control.frozen = true → exec .wipePrepare s = .next (refusedWith u d .frozen)) ∧
      (may → u.control.frozen = false → toRangeSet u l = none →
        exec .wipePrepare s = .next (refusedWith u d .badRequest)) ∧
      (may → u.control.frozen = false → toRangeSet u l = some set → (3 < level ∨ (level ≠ 0 ∧ 2 < pattern)) →
        exec .wipePrepare s = .next (refusedWith u d .badRequest)) ∧
      (may → u.control.frozen = false → toRangeSet u l = some set → level ≤ 3 → (level = 0 ∨ pattern ≤ 2) →
        ((∃ r ∈ set, u.ranges[r].cond = .draining) → exec .wipePrepare s = .next (refusedWith u d .rangeBusy)) ∧
        ((∀ r ∈ set, u.ranges[r].cond ≠ .draining) →
          ∃ (ticket : BitVec 16) (e : CredIx) (o : Option PurgeOpt), ticket ≠ 0 ∧ ticket ≠ u.control.lastTicket ∧
            c = some e ∧
            o = (if level = 0 then none else some ⟨level, .yielding,
              if pattern = 0 then .zeros else if pattern = 1 then .ones else .random⟩) ∧
            let sorted := allRanges.filter set.contains
            exec .wipePrepare s = .next (answerAfter
              { u with
                fresh := u.fresh + 1
                control := { u.control with prepared := some ⟨ticket, e, sorted, o⟩, lastTicket := ticket } } d
              ⟨.done, .prepared ticket sorted⟩)))) ∧
    (∀ n, Serves s b (.wipeCommit n) true c u d →
      ((n = 0 ∨ ∀ p, s.control.prepared = some p → p.ticket.toNat ≠ n ∨ c ≠ some p.cred) →
        exec .wipeCommit s = .next (refusedWith u d .noTicket)) ∧
      (∀ p, s.control.prepared = some p → n ≠ 0 → p.ticket.toNat = n → c = some p.cred →
        (d = true → exec .wipeCommit s = .next (stored u true [] (.commitCheck p.set p.purge))) ∧
        (d = false → (∃ r ∈ p.set, u.ranges[r].cond = .draining) →
          exec .wipeCommit s = .next (respond u ⟨.rangeBusy, .none⟩)) ∧
        (d = false → (∀ r ∈ p.set, u.ranges[r].cond ≠ .draining) → commitRoom u p.set p.purge = false →
          exec .wipeCommit s = .next (respond u ⟨.tableFull, .none⟩)) ∧
        (d = false → (∀ r ∈ p.set, u.ranges[r].cond ≠ .draining) → commitRoom u p.set p.purge = true →
          let add := p.set.map (fun r => (⟨r, u.ranges[r].gen, p.purge, false⟩ : Intent))
          exec .wipeCommit s = .next (stored { u with intents := u.intents ++ add } false [.intents [] [] add]
            (.commit p.set p.purge))))) ∧
    (∀ (set : List RangeIx) (o : Option PurgeOpt),
      let free := allJobs.countP (fun j => s.sweep.jobs[j] = .free || (jobAt s j).any finished)
      let cancelled := allJobs.countP (fun j => !hasChunk s j && (jobAt s j).any (fun x =>
        !finished x && (x.kind = .rekey || x.level ≠ 0) && x.ranges.any set.contains))
      commitRoom s set o = true ↔ (o = none ∨ (set.length + 3) / 4 ≤ free + cancelled)) ∧
    (∀ v set o t, LastWrite s v (.commitCheck set o) t →
      ((∃ r ∈ set, t.ranges[r].cond = .draining) →
        exec .storeWriteCompletion s = .next (respond t ⟨.rangeBusy, .none⟩)) ∧
      ((∀ r ∈ set, t.ranges[r].cond ≠ .draining) → commitRoom t set o = false →
        exec .storeWriteCompletion s = .next (respond t ⟨.tableFull, .none⟩)) ∧
      ((∀ r ∈ set, t.ranges[r].cond ≠ .draining) → commitRoom t set o = true →
        let add := set.map (fun r => (⟨r, t.ranges[r].gen, o, false⟩ : Intent))
        exec .storeWriteCompletion s = .next (stored { t with intents := t.intents ++ add } false [.intents [] [] add]
          (.commit set o)))) ∧
    (∀ (set : List RangeIx) (x : State × Release) (r : RangeIx),
      let told := fun (z : State) => match intentOf z r with
        | some e => raise z { kind := .wipeCommitted, range := some r, detail := .gen e.gen }
        | none => z
      let m := makeDraining set x r
      (x.1.ranges[r].cond = .draining → commitRange set x r = (told x.1, x.2)) ∧
      (x.1.ranges[r].cond ≠ .draining → commitRange set x r = (told m.1, m.2))) ∧
    (∀ v set o t, LastWrite s v (.commit set o) t → (∀ r ∈ set, (intentOf t r).isSome = true) →
      let marked := { t with intents := t.intents.map (fun e =>
        if set.contains e.range then { e with stored := true } else e) }
      let x := set.foldl (commitRange set) (marked, ⟨[], []⟩)
      let y : State × List JobNo := match o with
        | none => (x.1, [])
        | some p => let g := placeGroups p x.1 (groupsOf4 set); (g.1, g.2.2)
      let ops := x.2.steady.map .rangeSteady ++ if x.2.drop = [] then [] else [.intents [] x.2.drop []]
      let hit := fun (b : Job) => !finished b && (b.kind = .rekey || b.level ≠ 0) &&
        b.ranges.any (fun r => set.contains r && t.ranges[r].cond ≠ .draining)
      let cut := fun (j : JobNo) => !hasChunk t j && (jobAt t j).any hit
      ∃ w jobs, w = y.1 ∧ jobs = y.2 ∧
        let a : Response := ⟨.done, .committed (set.map (fun r => ((intentOf t r).map (·.gen)).getD 0)) jobs⟩
        (ops = [] → exec .storeWriteCompletion s = .next (respond (engine w) a)) ∧
        (ops ≠ [] → exec .storeWriteCompletion s = .next (answerWith (engine w) ops a)) ∧
        (∀ r : RangeIx, t.ranges[r].cond = .purging → w.ranges[r].cond = .steady → .rangeSteady r ∈ ops) ∧
        (∀ op ∈ ops, (∃ r, op = .rangeSteady r) ∨ ∃ drop, op = .intents [] drop []) ∧
        (o = none → jobs = []) ∧
        (∀ p, o = some p → (jobs.length = (set.length + 3) / 4 ∨ freeEntry w = none) ∧
          ∀ k (h : k < jobs.length), ∃ y, jobAt w jobs[k] = some y ∧ NewPurge t p ((set.drop (4 * k)).take 4) y) ∧
        w = { t with ranges := w.ranges, slots := w.slots, arb := w.arb, sweep := w.sweep, intents := w.intents
                     journal := w.journal } ∧
        w.front = t.front ∧ w.creds = t.creds ∧ w.store = t.store ∧ w.dev = t.dev ∧
        w.intents = t.intents.map (fun e => { e with
          stored := e.stored || set.contains e.range, purge := if x.2.drop.contains e.range then none else e.purge }) ∧
        w.sweep = { t.sweep with jobs := w.sweep.jobs, stack := t.sweep.stack.filter (fun j => !cut j)
                                 nextStamp := t.sweep.nextStamp + jobs.length } ∧
        (∀ j : JobNo, j ∉ jobs → jobAt w j = (jobAt t j).map (fun b =>
          if cut j then { b with state := .cancelled, pause := none, stall := none, pending := .noAction }
          else if hit b then { b with wipeSet := b.wipeSet ++ set.filter (fun q => !b.wipeSet.contains q) }
          else b)) ∧
        ((∃ j b, cut j = true ∧ jobAt t j = some b ∧ b.state = .running ∧ b.policy = .holding) →
          w.arb = undedicated t.arb) ∧
        ((∀ j b, cut j = true → jobAt t j = some b → b.state = .running → b.policy = .yielding) → w.arb = t.arb) ∧
        (∀ r ∈ set, w.ranges[r] =
          if t.ranges[r].cond = .draining then t.ranges[r]
          else { t.ranges[r] with
            lock := .locked, cond := .draining, slot := none
            mig := t.ranges[r].mig.map (fun m => { m with nextSlot := none }) }) ∧
        (∀ r, r ∉ set → w.ranges[r] =
          if t.ranges[r].cond = .purging ∧ r ∈ x.2.steady then { t.ranges[r] with cond := .steady } else t.ranges[r]) ∧
        (let lost := fun (i : SlotIx) (r : RangeIx) => r ∈ set ∧ t.ranges[r].cond ≠ .draining ∧
           (t.ranges[r].slot = some i ∨ nextSlotOf t.ranges[r] = some i)
         ∀ i : SlotIx, ((∀ r, ¬ lost i r) → w.slots[i] = t.slots[i]) ∧
           (∀ r, lost i r → namings t i = 1 → w.slots[i] =
             if t.slots[i].count ≤ 1 then ⟨.empty, none, none, none, false, 0⟩
             else { t.slots[i] with state := .pendingZero, count := t.slots[i].count - 1 })) ∧
        (∃ more : List Event, w.journal = more.foldl journalRecord t.journal ∧
          more.filter (fun e => e.kind = .wipeCommitted) = set.map (fun r =>
            { kind := .wipeCommitted, range := some r, detail := .gen (((intentOf t r).map (·.gen)).getD 0) }) ∧
          ∀ e ∈ more, e.kind = .wipeCommitted ∨ (e.kind = .sweepCancelled ∧ e.detail = .cancelled .wipe)) ∧
        (∀ r ∈ set, w.ranges[r].cond = .draining) ∧
        (∀ r ∈ set, t.ranges[r].cond ≠ .draining → w.ranges[r].lock = .locked ∧ w.ranges[r].slot = none ∧
          nextSlotOf w.ranges[r] = none) ∧
        (∀ r, r ∉ set → w.ranges[r].lock = t.ranges[r].lock ∧ w.ranges[r].slot = t.ranges[r].slot) ∧
        (∀ e ∈ w.intents, e.range ∈ set → e.stored = true))

/-- SWEEP.STATUS returns the job table and the stack, and the finished entries it reports become FREE. SWEEP.PAUSE,
SWEEP.RESUME and SWEEP.CANCEL refuse an entry with no live job (BAD_REQUEST), a job of level 0 (NOT_PERMITTED; but a STALLED
one may be resumed), and the cancel of a REKEY job (NOT_CANCELLABLE); a job with a chunk in motion takes a pending action;
and a job at rest is PAUSED with cause REQUEST, returns, or is CANCELLED at once, its response following the writes of the
ranges it leaves STEADY (R131, R132, R133, R134, R135). A job that returns is PAUSED again with cause LOCKED or POWER where
that holds, and else QUEUED with its stamp (R134, R121). A PURGE job that ends leaves each range that it has not finished,
and that no other live PURGE job names, STEADY if it was PURGING, and without its purge option if it is DRAINING; one whose
drain is storing PURGING is to be STEADY too (R39; log entry 40). That the results are taken after the engine's choice, and
that those writes follow the device record write of R68, are the model's readings (log entries 31 and 14); that the entries
of a cancelled job come in the order of its list is its choice (log entry 46). -/
def Obligations.SweepRequestsActByTheJobsState : Prop :=
  ∀ (s : State) (b : RequestBlock) (u : State) (d : Bool),
    (∀ c, Serves s b .sweepStatus false c u d →
      (∀ (j : JobNo) x, jobAt u j = some x → finished x = false) → exec .sweepStatus s = .next (answerAfter u d
        ⟨.done, .sweep (allJobs.map (fun j => (jobAt u j).map (jobReport u))) u.sweep.stack⟩)) ∧
    (∀ c, Serves s b .sweepStatus false c u d → (∃ (j : JobNo) (x : Job), jobAt u j = some x ∧ finished x = true) →
      ∃ w, exec .sweepStatus s = .next (answerAfter (engine w) d
          ⟨.done, .sweep (allJobs.map (fun j => (jobAt u j).map (jobReport u))) u.sweep.stack⟩) ∧
        w = { u with sweep := { u.sweep with jobs := w.sweep.jobs } } ∧
        (∀ j : JobNo, w.sweep.jobs[j] = match jobAt u j with
          | some x => if finished x then .free else u.sweep.jobs[j]
          | none => u.sweep.jobs[j])) ∧
    (∀ n, (∀ (j : JobNo) x, n = j.val → jobAt u j = some x → finished x = true) →
      (Serves s b (.sweepPause n) true (some 0) u d → exec .sweepPause s = .next (refusedWith u d .badRequest)) ∧
      (Serves s b (.sweepResume n) true (some 0) u d → exec .sweepResume s = .next (refusedWith u d .badRequest)) ∧
      (Serves s b (.sweepCancel n) true (some 0) u d → exec .sweepCancel s = .next (refusedWith u d .badRequest))) ∧
    (∀ n (j : JobNo) x, n = j.val → jobAt u j = some x → finished x = false →
      let put := fun (y : Job) => { u with sweep := { u.sweep with jobs := u.sweep.jobs.set j (.job y) } }
      let told := fun (t : State) => Host.Outcome.next (answerAfter t d ⟨.done, jobResults t j⟩)
      (Serves s b (.sweepPause n) true (some 0) u d →
        (x.level = 0 → exec .sweepPause s = .next (refusedWith u d .notPermitted)) ∧
        (x.level ≠ 0 → x.state = .running → hasChunk u j = true → exec .sweepPause s =
          told (put { x with pending := if x.pending = .cancel then .cancel else .pause })) ∧
        (x.level ≠ 0 → (x.state = .queued ∨ x.state = .preempted ∨ (x.state = .running ∧ hasChunk u j = false)) →
          exec .sweepPause s = told (engine (endTurn u j (fun y =>
            { y with state := .paused, pause := some .request, pending := .noAction })))) ∧
        (x.level ≠ 0 → x.state = .paused → exec .sweepPause s = told (put { x with pause := some .request })) ∧
        (x.level ≠ 0 → x.state = .stalled → exec .sweepPause s = told u)) ∧
      (Serves s b (.sweepResume n) true (some 0) u d →
        (x.level = 0 → x.state ≠ .stalled → exec .sweepResume s = .next (refusedWith u d .notPermitted)) ∧
        (((x.level ≠ 0 ∧ x.state = .paused ∧ x.pause = some .request) ∨ x.state = .stalled) →
          exec .sweepResume s = told (engine (returnJob u j))) ∧
        (x.level ≠ 0 → x.state = .running → x.pending = .pause →
          exec .sweepResume s = told (put { x with pending := .noAction })) ∧
        (x.level ≠ 0 → ((x.state = .paused ∧ x.pause ≠ some .request) ∨ x.state = .queued ∨ x.state = .preempted ∨
          (x.state = .running ∧ x.pending ≠ .pause)) → exec .sweepResume s = told u)) ∧
      (Serves s b (.sweepCancel n) true (some 0) u d →
        (x.kind = .rekey → exec .sweepCancel s = .next (refusedWith u d .notCancellable)) ∧
        (x.kind = .purge → x.level = 0 → exec .sweepCancel s = .next (refusedWith u d .notPermitted)) ∧
        (x.kind = .purge → x.level ≠ 0 → hasChunk u j = true →
          exec .sweepCancel s = told (put { x with pending := .cancel })) ∧
        (x.kind = .purge → x.level ≠ 0 → hasChunk u j = false →
          let y := finishJob u j .cancelled []
          let w := engine (raiseAll y.1 (cancelEvents x j))
          let a : Response := ⟨.done, .jobState .cancelled none .noAction⟩
          exec .sweepCancel s = .next (answerWith w (dueOps d ++ y.2.ops) a)))) ∧
    (∀ (t : State) (j : JobNo) (x : Job), jobAt t j = some x →
      let shut := x.kind = .rekey ∧ ∃ r, cursorRange x = some r ∧ t.ranges[r].lock = .locked
      let holds := x.level ≠ 0 ∧
        (t.sleepLine = true ∨ t.power.op ≠ .noOp ∨ t.power.state = .doze ∨ t.power.state = .sleep)
      let put := fun (y : Job) => { t with sweep := { t.sweep with jobs := t.sweep.jobs.set j (.job y) } }
      (shut → returnJob t j = put { x with state := .paused, pause := some .locked, stall := none }) ∧
      (¬ shut → holds → returnJob t j = put { x with state := .paused, pause := some .power, stall := none }) ∧
      (¬ shut → ¬ holds → returnJob t j = put { x with state := .queued, pause := none, stall := none })) ∧
    (∀ (t : State) (j : JobNo) (x : Job) (st : JobState) (except : List RangeIx), jobAt t j = some x →
      (st = .done ∨ st = .cancelled ∨ st = .failed) →
      let e := endTurn t j (fun y => { y with state := st, pause := none, stall := none, pending := .noAction })
      let y := finishJob t j st except
      (x.kind = .rekey → y = (e, ⟨[], []⟩)) ∧
      (x.kind = .purge →
        let left := fun (r : RangeIx) => r ∈ unfinished x ∧ r ∉ except ∧ ¬ ∃ i z, i ≠ j ∧ jobAt t i = some z ∧
          z.kind = .purge ∧ finished z = false ∧ r ∈ unfinished z
        y.1 = { e with ranges := y.1.ranges, intents := y.1.intents } ∧
        (∀ r : RangeIx, (left r → t.ranges[r].cond = .purging → y.1.ranges[r] = { t.ranges[r] with cond := .steady }) ∧
          (¬ (left r ∧ t.ranges[r].cond = .purging) → y.1.ranges[r] = t.ranges[r])) ∧
        (∀ r : RangeIx, r ∈ y.2.steady ↔ left r ∧
          (t.ranges[r].cond = .purging ∨ (t.ranges[r].cond = .draining ∧ t.ranges[r].finishing = true))) ∧
        (∀ r : RangeIx, r ∈ y.2.drop ↔ left r ∧ t.ranges[r].cond = .draining) ∧
        y.1.intents = t.intents.map (fun i => if y.2.drop.contains i.range then { i with purge := none } else i) ∧
        y.2.ops = y.2.steady.map .rangeSteady ++ if y.2.drop = [] then [] else [.intents [] y.2.drop []]))

/-- The engine after an event (R123): during start-up nothing; while it is not free to run, or a chunk is in motion, it
creates the jobs of unscheduled ranges only (R137), looking for them at every event (log entry 36); else it settles the
RUNNING job's turn, creates those jobs, chooses, and the chosen job goes on. The most urgent job is QUEUED, does not wait on
a drain, and no other such job has a lower level, or the same level and an earlier stamp; there is none exactly when no
QUEUED job is eligible. At a boundary of the RUNNING job the first case that applies ends its turn (R124): its ranges are
done; a wipe has reached it, which leaves alone the ranges of the wipe that still drain, but for one that stores PURGING for
this job alone (R108, R39; log entry 40), its entry naming the first range of the set that the job names (log entry 27); a
cancellation, its entries in the order of the job's list (log entry 46); its chunk's failure, reported behind the last of its
writes (R129, R38), or stall; a pause, with cause REQUEST before LOCKED before POWER (log entry 29); a wait on a drain. The
STEADY and intent writes of a job that ends are all issued in the event (log entry 14). Then a more urgent QUEUED job, level
by level, preempts it and goes on top of the stack; with no RUNNING job the top of the stack runs, or a QUEUED job of a lower
level, or, on an empty stack, the most urgent one (R125); a job so resumed whose range under the cursor drains has its turn
ended, and the engine chooses again (R124). A HOLD job that starts to run has the lowest FREE lane dedicated (R16; log entry
17). A PURGE job takes its chunk, and a REKEY job waits for its fence; a job at or beyond the clipped end makes its last
store with no chunk, or passes by a range that another PURGE job names (R127, R128; log entry 35), also while the step to
DOZE is due, when it takes no chunk (R168; log entry 46). Log entries 17, 27, 29, 36 and 46 are the model's choices, 14, 35
and 40 its readings. -/
def Obligations.MostUrgentJobIsChosen : Prop :=
  (∀ s : State,
    (∀ j x, mostUrgent s = some (j, x) → jobAt s j = some x ∧ x.state = .queued ∧ waitsOnDrain s x = false ∧
      ∀ i y, jobAt s i = some y → y.state = .queued → waitsOnDrain s y = false →
        ¬ (y.level < x.level ∨ (y.level = x.level ∧ y.stamp < x.stamp))) ∧
    (mostUrgent s = none ↔ ∀ i y, jobAt s i = some y → y.state = .queued → waitsOnDrain s y = true)) ∧
  (∀ s : State,
    (∀ j b k x, runningJob s = some j → jobAt s j = some b → mostUrgent s = some (k, x) → x.level < b.level →
      choose s = becomeRunning (preempt s j) k) ∧
    (∀ j b, runningJob s = some j → jobAt s j = some b → (∀ k x, mostUrgent s = some (k, x) → b.level ≤ x.level) →
      choose s = s) ∧
    (∀ p rest b, runningJob s = none → s.sweep.stack = p :: rest → jobAt s p = some b →
      (∀ k x, mostUrgent s = some (k, x) → x.level < b.level → choose s = becomeRunning s k) ∧
      ((∀ k x, mostUrgent s = some (k, x) → b.level ≤ x.level) → choose s = becomeRunning s p)) ∧
    (runningJob s = none → s.sweep.stack = [] →
      (∀ k x, mostUrgent s = some (k, x) → choose s = becomeRunning s k) ∧ (mostUrgent s = none → choose s = s)) ∧
    (∀ j b, jobAt s j = some b →
      becomeRunning s j = { s with
        sweep := { s.sweep with
          jobs := s.sweep.jobs.set j (.job { b with state := .running })
          stack := j :: s.sweep.stack.filter (· ≠ j) }
        arb := if b.policy = .holding then
            match freeLane s with
            | some l => { s.arb with lanes := s.arb.lanes.set l .dedicated, dedicated := some l }
            | none => s.arb
          else s.arb } ∧
      ∃ t, preempt s j = t ∧ t = { s with
          sweep := { s.sweep with
            jobs := s.sweep.jobs.set j (.job { b with state := .preempted, pending := .noAction }) }
          arb := t.arb } ∧
        (b.policy = .yielding → t.arb = s.arb) ∧
        (b.policy = .holding → t.arb.dedicated = none ∧ t.arb = undedicated s.arb))) ∧
  (∀ (s : State) (j : JobNo) (b : Job), jobAt s j = some b → s.startUp = none →
    let ends := fun (f : Job → Job) (e : Event) => raise (endTurn s j f) e
    (∃ t, endTurn s j id = t ∧ t = { s with
        sweep := { s.sweep with jobs := s.sweep.jobs.set j (.job b), stack := s.sweep.stack.filter (· ≠ j) }
        arb := t.arb } ∧
      (¬ (b.state = .running ∧ b.policy = .holding) → t.arb = s.arb) ∧
      (b.state = .running → b.policy = .holding → t.arb = undedicated s.arb)) ∧
    (cursorRange b = none → b.kind = .rekey → ∀ e, settleTurn s j e = ends
      (fun b => { b with state := .done, pause := none, stall := none, pending := .noAction })
      { kind := .sweepDone, job := some j, detail := .sweepDone false, range := b.ranges.head? }) ∧
    (cursorRange b = none → b.kind = .purge → ∀ e, settleTurn s j e = ends
      (fun b => { b with state := .done, pause := none, stall := none, pending := .noAction })
      { kind := .sweepDone, job := some j, detail := .sweepDone false }) ∧
    (∀ r, cursorRange b = some r → b.wipeSet ≠ [] → b.kind = .rekey → b.ranges = [r] → r ∈ b.wipeSet →
      ∀ e, settleTurn s j e = ends
        (fun b => { b with state := .cancelled, pause := none, stall := none, pending := .noAction })
        { kind := .sweepCancelled, range := some r, job := some j, detail := .cancelled .wipe }) ∧
    (∀ r, cursorRange b = some r → b.wipeSet = [] → b.pending ≠ .cancel →
      (∀ k, settleTurn s j (.stalled k) = ends
        (fun b => { b with state := .stalled, stall := some k, pending := .noAction })
        { kind := .sweepStalled, range := some r, job := some j, detail := .stall k }) ∧
      (b.pending = .pause → settleTurn s j .went = pauseJob s j .request) ∧
      (b.pending ≠ .pause → b.kind = .rekey → s.ranges[r].lock = .locked →
        settleTurn s j .went = pauseJob s j .locked) ∧
      (b.pending ≠ .pause → ¬ (b.kind = .rekey ∧ s.ranges[r].lock = .locked) → s.sleepLine = true →
        settleTurn s j .went = pauseJob s j .power) ∧
      (b.pending ≠ .pause → ¬ (b.kind = .rekey ∧ s.ranges[r].lock = .locked) → s.sleepLine = false →
        settleTurn s j .went =
          if b.kind = .purge ∧ s.ranges[r].cond = .draining then endTurn s j (fun b => { b with state := .queued }) else s)) ∧
    (∀ r, cursorRange b = some r → b.wipeSet = [] → b.pending = .cancel → ∀ e,
      let x := finishJob s j .cancelled []
      settleTurn s j e = issueEach (raiseAll x.1 ((unfinished b).map (fun q =>
        { kind := .sweepCancelled, range := some q, job := some j, detail := .cancelled .request }))) x.2.ops) ∧
    (∀ r, cursorRange b = some r → b.wipeSet = [] → b.pending ≠ .cancel →
      let x := finishJob s j .failed []
      let e : Event := { kind := .sweepDone, range := some r, job := some j, detail := .sweepDone true }
      (x.2.ops = [] → settleTurn s j .failed = raise x.1 e) ∧
      (x.2.ops ≠ [] → settleTurn s j .failed = { x.1 with writes := x.1.writes ++ together (.report e) x.2.ops })) ∧
    (∀ r q, cursorRange b = some r → b.kind = .purge → b.wipeSet.find? b.ranges.contains = some q → ∀ e,
      let spared := fun (p : RangeIx) => s.ranges[p].cond = .draining &&
        (!s.ranges[p].finishing || ((intentOf s p).bind (·.purge)).isSome)
      let x := finishJob s j .cancelled (b.wipeSet.filter spared)
      settleTurn s j e = issueEach
        (raise x.1 { kind := .sweepCancelled, range := some q, job := some j, detail := .cancelled .wipe }) x.2.ops) ∧
    (∀ l, issueEach s l = { s with writes := s.writes ++ l.map (fun op => ⟨op, .nothing, []⟩) })) ∧
  -- the engine
  (∀ s : State,
    (s.startUp.isSome = true → engine s = s) ∧
    (s.startUp = none → freeToRun s = true → s.sweep.chunk = none → engine s = engineTurn 29 s) ∧
    (s.startUp = none → (freeToRun s = false ∨ s.sweep.chunk.isSome = true) → engine s = createUnscheduled s) ∧
    createUnscheduled s = allJobs.foldl (fun s _ => createPurge s) (allRanges.foldl createRekey s) ∧
    ((∀ r, lacksRekey s r = false ∧ lacksPurge s r = none) → createUnscheduled s = s) ∧
    (let t := choose (createUnscheduled (match runningJob s with | some j => settleTurn s j .went | none => s))
     let passes := fun (j : JobNo) (b : Job) => runningJob t = some j ∧ jobAt t j = some b ∧ b.kind = .purge ∧
       ∃ r, cursorRange b = some r ∧ clippedEnd t r ≤ b.lba ∧ purgeNames t (some j) r = true
     let waits := ∃ j b r, runningJob t = some j ∧ jobAt t j = some b ∧ b.kind = .purge ∧ cursorRange b = some r ∧
       t.ranges[r].cond = .draining
     engineTurn 0 s = s ∧
     (∀ n, waits → engineTurn (n + 1) s = engineTurn n t) ∧
     (∀ n j b, ¬ waits → passes j b → engineTurn (n + 1) s =
       engineTurn n { t with sweep := { t.sweep with jobs := t.sweep.jobs.set j (.job (pastRange t b)) } }) ∧
     (∀ n, ¬ waits → (∀ j b, ¬ passes j b) → engineTurn (n + 1) s = goOn t)) ∧
    ((∀ j b, runningJob s = some j → jobAt s j = some b → cursorRange b = none) → goOn s = s) ∧
    (∀ j b r, runningJob s = some j → jobAt s j = some b → cursorRange b = some r →
      let last := fun (op : StoreOp) (d : Done) =>
        if s.sweep.completing.contains r then s
        else { s with sweep := { s.sweep with completing := s.sweep.completing ++ [r] }
                      writes := s.writes ++ [⟨op, d, []⟩] }
      let still := b.kind = .rekey ∨ (s.power.dozeDue = true ∧ b.level ≠ 0)
      (clippedEnd s r ≤ b.lba → b.kind = .purge → goOn s = last (.rangeSteady r) (.purged r j)) ∧
      (clippedEnd s r ≤ b.lba → b.kind = .rekey → goOn s = last (.rangeComplete r b.lba) (.completing r b.lba)) ∧
      (b.lba < clippedEnd s r → still → goOn s = s) ∧
      (b.lba < clippedEnd s r → ¬ still → goOn s = takePurge s j b r)))

/-! ## Policies and formats -/

/-- THEFT.SET refuses an illegal policy: a strike limit above 250, a threshold above 15, minutes above 255, a purge option,
trigger, action or blocking line of no meaning, or a line that names itself (R165), and an acknowledge byte above 1 (the
model's choice, log entry 20); else one device record write carries it, with the counts that a changed limit or threshold
clears and, where acknowledged, the last cause; and at the completion they are in force (R165, R166); the policy that the
results give holds no acknowledge (the model's choice, log entry 19). POWER.SET stores the two intervals, which are in force
at the completion with the step timer begun anew (R173). -/
def Obligations.TheftAndPowerPoliciesAreStored : Prop :=
  ∀ (s : State) (b : RequestBlock) (u : State) (d : Bool),
    (∀ limit threshold purge lines minutes ack,
      Serves s b (.theftSet limit threshold purge lines minutes ack) true (some 0) u d → u.control.frozen = false →
      ((toTheftPolicy limit threshold purge lines minutes = none ∨ 1 < ack) →
        exec .theftSet s = .next (refusedWith u d .badRequest)) ∧
      (∀ p, toTheftPolicy limit threshold purge lines minutes = some p → ack ≤ 1 →
        let limits := decide (p.strikeLimit ≠ u.dev.policy.strikeLimit)
        let starts := decide (p.threshold ≠ u.dev.policy.threshold)
        exec .theftSet s = .next (stored u d
          [.device { policy := some p, strikes := if limits then some 0 else none
                     lockedStarts := if starts then some 0 else none
                     lastCause := if ack = 1 then some .none else none }]
          (.theft p limits starts (decide (ack = 1)))))) ∧
    (∀ limit threshold purge t₀ a₀ b₀ t₁ a₁ b₁ t₂ a₂ b₂ minutes,
      let line := fun (own t a b : Nat) => t ≤ 2 ∧ a ≤ 3 ∧ (b ≤ 2 ∨ b = 255) ∧ b ≠ own
      let config := fun (t a b : Nat) => (⟨if t = 0 then .onAssert else if t = 1 then .onRelease else .both,
        if a = 0 then .ignore else if a = 1 then .log else if a = 2 then .lock else .wipe,
        if b = 0 then some .caseLine else if b = 1 then some .bayLine else if b = 2 then some .serviceLine
        else none⟩ : LineConfig)
      let legal := limit ≤ 250 ∧ threshold ≤ 15 ∧ purge ≤ 3 ∧ minutes ≤ 255 ∧
        line 0 t₀ a₀ b₀ ∧ line 1 t₁ a₁ b₁ ∧ line 2 t₂ a₂ b₂
      let policy := toTheftPolicy limit threshold purge [t₀, a₀, b₀, t₁, a₁, b₁, t₂, a₂, b₂] minutes
      (legal → policy = some ⟨limit, threshold,
        if purge = 0 then none else some (if purge = 1 then .zeros else if purge = 2 then .ones else .random),
        config t₀ a₀ b₀, config t₁ a₁ b₁, config t₂ a₂ b₂, minutes⟩) ∧
      (¬ legal → policy = none)) ∧
    (∀ idle doze, Serves s b (.powerSet idle doze) true (some 0) u d → u.control.frozen = false → idle ≤ 255 → doze ≤ 255 →
      exec .powerSet s = .next (stored u d [.device { intervals := some (idle, doze) }] (.power idle doze))) ∧
    (∀ v t,
      (∀ p limits starts ack, LastWrite s v (.theft p limits starts ack) t →
        let dev := { t.dev with
          policy := p, strikes := if limits then 0 else t.dev.strikes
          lockedStarts := if starts then 0 else t.dev.lockedStarts
          lastCause := if ack then .none else t.dev.lastCause }
        exec .storeWriteCompletion s = .next (settled
          { t with
            dev := dev
            theft := if p.relockMinutes = t.dev.policy.relockMinutes then t.theft
              else { t.theft with elapsed := 0, expired := false } }
          none none v (.theft p dev.strikes dev.lockedStarts dev.lastCause))) ∧
      (∀ idle doze, LastWrite s v (.power idle doze) t → exec .storeWriteCompletion s = .next (settled
        (engine { t with dev := { t.dev with idle := idle, doze := doze }
                         power := { t.power with stepTimer := 0, dozeDue := false } })
        none none v (.power idle doze))))

/-- The descriptor and the request block are read back whole from the bytes that R184 gives them: no field is dropped. -/
def Obligations.FormatsRoundTrip : Prop :=
  (∀ b : RequestBlock, b.wf = true → blockOfBytes (blockBytes b) = b) ∧
  (∀ d : Descriptor, descriptorOfBytes (descriptorBytes d) d.block = d) ∧
  (∀ d : Descriptor, (descriptorBytes d).length = 16) ∧
  (∀ (e : JEntry) (gap : Bool), (entryBytes e gap).length = 16) ∧
  (∀ r : Response, (responseBytes r).length = 4 + (resultsBytes r.results).length) ∧
  (∀ c : Completion, (completionBytes c).length = 4)
end

