-- ==== Sys2Proof/Laws/State.lean ====
section
/-! SUPPORT. One lemma per field for each update of the state: what `modRange`, `modSlot`, `setTxn` and the other updates of
Machine/Ops.lean leave as it was, and what they put in place. -/

namespace Sys2Proof.Machine

/-! ## modRange -/

@[simp] theorem modRange_powered (s : State) (r : RangeIx) (f : RangeEntry → RangeEntry) : (modRange s r f).powered = s.powered := rfl
@[simp] theorem modRange_sleepLine (s : State) (r : RangeIx) (f : RangeEntry → RangeEntry) : (modRange s r f).sleepLine = s.sleepLine := rfl
@[simp] theorem modRange_sleepReady (s : State) (r : RangeIx) (f : RangeEntry → RangeEntry) : (modRange s r f).sleepReady = s.sleepReady := rfl
@[simp] theorem modRange_front (s : State) (r : RangeIx) (f : RangeEntry → RangeEntry) : (modRange s r f).front = s.front := rfl
@[simp] theorem modRange_arb (s : State) (r : RangeIx) (f : RangeEntry → RangeEntry) : (modRange s r f).arb = s.arb := rfl
@[simp] theorem modRange_media (s : State) (r : RangeIx) (f : RangeEntry → RangeEntry) : (modRange s r f).media = s.media := rfl
@[simp] theorem modRange_slots (s : State) (r : RangeIx) (f : RangeEntry → RangeEntry) : (modRange s r f).slots = s.slots := rfl
@[simp] theorem modRange_creds (s : State) (r : RangeIx) (f : RangeEntry → RangeEntry) : (modRange s r f).creds = s.creds := rfl
@[simp] theorem modRange_dev (s : State) (r : RangeIx) (f : RangeEntry → RangeEntry) : (modRange s r f).dev = s.dev := rfl
@[simp] theorem modRange_intents (s : State) (r : RangeIx) (f : RangeEntry → RangeEntry) : (modRange s r f).intents = s.intents := rfl
@[simp] theorem modRange_damaged (s : State) (r : RangeIx) (f : RangeEntry → RangeEntry) : (modRange s r f).damaged = s.damaged := rfl
@[simp] theorem modRange_regions (s : State) (r : RangeIx) (f : RangeEntry → RangeEntry) : (modRange s r f).regions = s.regions := rfl
@[simp] theorem modRange_control (s : State) (r : RangeIx) (f : RangeEntry → RangeEntry) : (modRange s r f).control = s.control := rfl
@[simp] theorem modRange_sweep (s : State) (r : RangeIx) (f : RangeEntry → RangeEntry) : (modRange s r f).sweep = s.sweep := rfl
@[simp] theorem modRange_theft (s : State) (r : RangeIx) (f : RangeEntry → RangeEntry) : (modRange s r f).theft = s.theft := rfl
@[simp] theorem modRange_power (s : State) (r : RangeIx) (f : RangeEntry → RangeEntry) : (modRange s r f).power = s.power := rfl
@[simp] theorem modRange_journal (s : State) (r : RangeIx) (f : RangeEntry → RangeEntry) : (modRange s r f).journal = s.journal := rfl
@[simp] theorem modRange_store (s : State) (r : RangeIx) (f : RangeEntry → RangeEntry) : (modRange s r f).store = s.store := rfl
@[simp] theorem modRange_writes (s : State) (r : RangeIx) (f : RangeEntry → RangeEntry) : (modRange s r f).writes = s.writes := rfl
@[simp] theorem modRange_startUp (s : State) (r : RangeIx) (f : RangeEntry → RangeEntry) : (modRange s r f).startUp = s.startUp := rfl
@[simp] theorem modRange_fresh (s : State) (r : RangeIx) (f : RangeEntry → RangeEntry) : (modRange s r f).fresh = s.fresh := rfl
@[simp] theorem modRange_pending (s : State) (r : RangeIx) (f : RangeEntry → RangeEntry) : (modRange s r f).pending = s.pending := rfl

/-! ## modSlot -/

@[simp] theorem modSlot_powered (s : State) (i : SlotIx) (f : Slot → Slot) : (modSlot s i f).powered = s.powered := rfl
@[simp] theorem modSlot_sleepLine (s : State) (i : SlotIx) (f : Slot → Slot) : (modSlot s i f).sleepLine = s.sleepLine := rfl
@[simp] theorem modSlot_sleepReady (s : State) (i : SlotIx) (f : Slot → Slot) : (modSlot s i f).sleepReady = s.sleepReady := rfl
@[simp] theorem modSlot_front (s : State) (i : SlotIx) (f : Slot → Slot) : (modSlot s i f).front = s.front := rfl
@[simp] theorem modSlot_arb (s : State) (i : SlotIx) (f : Slot → Slot) : (modSlot s i f).arb = s.arb := rfl
@[simp] theorem modSlot_media (s : State) (i : SlotIx) (f : Slot → Slot) : (modSlot s i f).media = s.media := rfl
@[simp] theorem modSlot_ranges (s : State) (i : SlotIx) (f : Slot → Slot) : (modSlot s i f).ranges = s.ranges := rfl
@[simp] theorem modSlot_creds (s : State) (i : SlotIx) (f : Slot → Slot) : (modSlot s i f).creds = s.creds := rfl
@[simp] theorem modSlot_dev (s : State) (i : SlotIx) (f : Slot → Slot) : (modSlot s i f).dev = s.dev := rfl
@[simp] theorem modSlot_intents (s : State) (i : SlotIx) (f : Slot → Slot) : (modSlot s i f).intents = s.intents := rfl
@[simp] theorem modSlot_damaged (s : State) (i : SlotIx) (f : Slot → Slot) : (modSlot s i f).damaged = s.damaged := rfl
@[simp] theorem modSlot_regions (s : State) (i : SlotIx) (f : Slot → Slot) : (modSlot s i f).regions = s.regions := rfl
@[simp] theorem modSlot_control (s : State) (i : SlotIx) (f : Slot → Slot) : (modSlot s i f).control = s.control := rfl
@[simp] theorem modSlot_sweep (s : State) (i : SlotIx) (f : Slot → Slot) : (modSlot s i f).sweep = s.sweep := rfl
@[simp] theorem modSlot_theft (s : State) (i : SlotIx) (f : Slot → Slot) : (modSlot s i f).theft = s.theft := rfl
@[simp] theorem modSlot_power (s : State) (i : SlotIx) (f : Slot → Slot) : (modSlot s i f).power = s.power := rfl
@[simp] theorem modSlot_journal (s : State) (i : SlotIx) (f : Slot → Slot) : (modSlot s i f).journal = s.journal := rfl
@[simp] theorem modSlot_store (s : State) (i : SlotIx) (f : Slot → Slot) : (modSlot s i f).store = s.store := rfl
@[simp] theorem modSlot_writes (s : State) (i : SlotIx) (f : Slot → Slot) : (modSlot s i f).writes = s.writes := rfl
@[simp] theorem modSlot_startUp (s : State) (i : SlotIx) (f : Slot → Slot) : (modSlot s i f).startUp = s.startUp := rfl
@[simp] theorem modSlot_fresh (s : State) (i : SlotIx) (f : Slot → Slot) : (modSlot s i f).fresh = s.fresh := rfl
@[simp] theorem modSlot_pending (s : State) (i : SlotIx) (f : Slot → Slot) : (modSlot s i f).pending = s.pending := rfl

/-! ## modCred -/

@[simp] theorem modCred_powered (s : State) (c : CredIx) (f : Cred → Cred) : (modCred s c f).powered = s.powered := rfl
@[simp] theorem modCred_sleepLine (s : State) (c : CredIx) (f : Cred → Cred) : (modCred s c f).sleepLine = s.sleepLine := rfl
@[simp] theorem modCred_sleepReady (s : State) (c : CredIx) (f : Cred → Cred) : (modCred s c f).sleepReady = s.sleepReady := rfl
@[simp] theorem modCred_front (s : State) (c : CredIx) (f : Cred → Cred) : (modCred s c f).front = s.front := rfl
@[simp] theorem modCred_arb (s : State) (c : CredIx) (f : Cred → Cred) : (modCred s c f).arb = s.arb := rfl
@[simp] theorem modCred_media (s : State) (c : CredIx) (f : Cred → Cred) : (modCred s c f).media = s.media := rfl
@[simp] theorem modCred_ranges (s : State) (c : CredIx) (f : Cred → Cred) : (modCred s c f).ranges = s.ranges := rfl
@[simp] theorem modCred_slots (s : State) (c : CredIx) (f : Cred → Cred) : (modCred s c f).slots = s.slots := rfl
@[simp] theorem modCred_dev (s : State) (c : CredIx) (f : Cred → Cred) : (modCred s c f).dev = s.dev := rfl
@[simp] theorem modCred_intents (s : State) (c : CredIx) (f : Cred → Cred) : (modCred s c f).intents = s.intents := rfl
@[simp] theorem modCred_damaged (s : State) (c : CredIx) (f : Cred → Cred) : (modCred s c f).damaged = s.damaged := rfl
@[simp] theorem modCred_regions (s : State) (c : CredIx) (f : Cred → Cred) : (modCred s c f).regions = s.regions := rfl
@[simp] theorem modCred_control (s : State) (c : CredIx) (f : Cred → Cred) : (modCred s c f).control = s.control := rfl
@[simp] theorem modCred_sweep (s : State) (c : CredIx) (f : Cred → Cred) : (modCred s c f).sweep = s.sweep := rfl
@[simp] theorem modCred_theft (s : State) (c : CredIx) (f : Cred → Cred) : (modCred s c f).theft = s.theft := rfl
@[simp] theorem modCred_power (s : State) (c : CredIx) (f : Cred → Cred) : (modCred s c f).power = s.power := rfl
@[simp] theorem modCred_journal (s : State) (c : CredIx) (f : Cred → Cred) : (modCred s c f).journal = s.journal := rfl
@[simp] theorem modCred_store (s : State) (c : CredIx) (f : Cred → Cred) : (modCred s c f).store = s.store := rfl
@[simp] theorem modCred_writes (s : State) (c : CredIx) (f : Cred → Cred) : (modCred s c f).writes = s.writes := rfl
@[simp] theorem modCred_startUp (s : State) (c : CredIx) (f : Cred → Cred) : (modCred s c f).startUp = s.startUp := rfl
@[simp] theorem modCred_fresh (s : State) (c : CredIx) (f : Cred → Cred) : (modCred s c f).fresh = s.fresh := rfl
@[simp] theorem modCred_pending (s : State) (c : CredIx) (f : Cred → Cred) : (modCred s c f).pending = s.pending := rfl

/-! ## modDev -/

@[simp] theorem modDev_powered (s : State) (f : Device → Device) : (modDev s f).powered = s.powered := rfl
@[simp] theorem modDev_sleepLine (s : State) (f : Device → Device) : (modDev s f).sleepLine = s.sleepLine := rfl
@[simp] theorem modDev_sleepReady (s : State) (f : Device → Device) : (modDev s f).sleepReady = s.sleepReady := rfl
@[simp] theorem modDev_front (s : State) (f : Device → Device) : (modDev s f).front = s.front := rfl
@[simp] theorem modDev_arb (s : State) (f : Device → Device) : (modDev s f).arb = s.arb := rfl
@[simp] theorem modDev_media (s : State) (f : Device → Device) : (modDev s f).media = s.media := rfl
@[simp] theorem modDev_ranges (s : State) (f : Device → Device) : (modDev s f).ranges = s.ranges := rfl
@[simp] theorem modDev_slots (s : State) (f : Device → Device) : (modDev s f).slots = s.slots := rfl
@[simp] theorem modDev_creds (s : State) (f : Device → Device) : (modDev s f).creds = s.creds := rfl
@[simp] theorem modDev_intents (s : State) (f : Device → Device) : (modDev s f).intents = s.intents := rfl
@[simp] theorem modDev_damaged (s : State) (f : Device → Device) : (modDev s f).damaged = s.damaged := rfl
@[simp] theorem modDev_regions (s : State) (f : Device → Device) : (modDev s f).regions = s.regions := rfl
@[simp] theorem modDev_control (s : State) (f : Device → Device) : (modDev s f).control = s.control := rfl
@[simp] theorem modDev_sweep (s : State) (f : Device → Device) : (modDev s f).sweep = s.sweep := rfl
@[simp] theorem modDev_theft (s : State) (f : Device → Device) : (modDev s f).theft = s.theft := rfl
@[simp] theorem modDev_power (s : State) (f : Device → Device) : (modDev s f).power = s.power := rfl
@[simp] theorem modDev_journal (s : State) (f : Device → Device) : (modDev s f).journal = s.journal := rfl
@[simp] theorem modDev_store (s : State) (f : Device → Device) : (modDev s f).store = s.store := rfl
@[simp] theorem modDev_writes (s : State) (f : Device → Device) : (modDev s f).writes = s.writes := rfl
@[simp] theorem modDev_startUp (s : State) (f : Device → Device) : (modDev s f).startUp = s.startUp := rfl
@[simp] theorem modDev_fresh (s : State) (f : Device → Device) : (modDev s f).fresh = s.fresh := rfl
@[simp] theorem modDev_pending (s : State) (f : Device → Device) : (modDev s f).pending = s.pending := rfl

/-! ## setTxn -/

@[simp] theorem setTxn_powered (s : State) (t : FrontTag) (x : Option Txn) : (setTxn s t x).powered = s.powered := rfl
@[simp] theorem setTxn_sleepLine (s : State) (t : FrontTag) (x : Option Txn) : (setTxn s t x).sleepLine = s.sleepLine := rfl
@[simp] theorem setTxn_sleepReady (s : State) (t : FrontTag) (x : Option Txn) : (setTxn s t x).sleepReady = s.sleepReady := rfl
@[simp] theorem setTxn_arb (s : State) (t : FrontTag) (x : Option Txn) : (setTxn s t x).arb = s.arb := rfl
@[simp] theorem setTxn_media (s : State) (t : FrontTag) (x : Option Txn) : (setTxn s t x).media = s.media := rfl
@[simp] theorem setTxn_ranges (s : State) (t : FrontTag) (x : Option Txn) : (setTxn s t x).ranges = s.ranges := rfl
@[simp] theorem setTxn_slots (s : State) (t : FrontTag) (x : Option Txn) : (setTxn s t x).slots = s.slots := rfl
@[simp] theorem setTxn_creds (s : State) (t : FrontTag) (x : Option Txn) : (setTxn s t x).creds = s.creds := rfl
@[simp] theorem setTxn_dev (s : State) (t : FrontTag) (x : Option Txn) : (setTxn s t x).dev = s.dev := rfl
@[simp] theorem setTxn_intents (s : State) (t : FrontTag) (x : Option Txn) : (setTxn s t x).intents = s.intents := rfl
@[simp] theorem setTxn_damaged (s : State) (t : FrontTag) (x : Option Txn) : (setTxn s t x).damaged = s.damaged := rfl
@[simp] theorem setTxn_regions (s : State) (t : FrontTag) (x : Option Txn) : (setTxn s t x).regions = s.regions := rfl
@[simp] theorem setTxn_control (s : State) (t : FrontTag) (x : Option Txn) : (setTxn s t x).control = s.control := rfl
@[simp] theorem setTxn_sweep (s : State) (t : FrontTag) (x : Option Txn) : (setTxn s t x).sweep = s.sweep := rfl
@[simp] theorem setTxn_theft (s : State) (t : FrontTag) (x : Option Txn) : (setTxn s t x).theft = s.theft := rfl
@[simp] theorem setTxn_power (s : State) (t : FrontTag) (x : Option Txn) : (setTxn s t x).power = s.power := rfl
@[simp] theorem setTxn_journal (s : State) (t : FrontTag) (x : Option Txn) : (setTxn s t x).journal = s.journal := rfl
@[simp] theorem setTxn_store (s : State) (t : FrontTag) (x : Option Txn) : (setTxn s t x).store = s.store := rfl
@[simp] theorem setTxn_writes (s : State) (t : FrontTag) (x : Option Txn) : (setTxn s t x).writes = s.writes := rfl
@[simp] theorem setTxn_startUp (s : State) (t : FrontTag) (x : Option Txn) : (setTxn s t x).startUp = s.startUp := rfl
@[simp] theorem setTxn_fresh (s : State) (t : FrontTag) (x : Option Txn) : (setTxn s t x).fresh = s.fresh := rfl
@[simp] theorem setTxn_pending (s : State) (t : FrontTag) (x : Option Txn) : (setTxn s t x).pending = s.pending := rfl

/-! ## setSegs -/

@[simp] theorem setSegs_powered (s : State) (l : List Segment) : (setSegs s l).powered = s.powered := rfl
@[simp] theorem setSegs_sleepLine (s : State) (l : List Segment) : (setSegs s l).sleepLine = s.sleepLine := rfl
@[simp] theorem setSegs_sleepReady (s : State) (l : List Segment) : (setSegs s l).sleepReady = s.sleepReady := rfl
@[simp] theorem setSegs_arb (s : State) (l : List Segment) : (setSegs s l).arb = s.arb := rfl
@[simp] theorem setSegs_media (s : State) (l : List Segment) : (setSegs s l).media = s.media := rfl
@[simp] theorem setSegs_ranges (s : State) (l : List Segment) : (setSegs s l).ranges = s.ranges := rfl
@[simp] theorem setSegs_slots (s : State) (l : List Segment) : (setSegs s l).slots = s.slots := rfl
@[simp] theorem setSegs_creds (s : State) (l : List Segment) : (setSegs s l).creds = s.creds := rfl
@[simp] theorem setSegs_dev (s : State) (l : List Segment) : (setSegs s l).dev = s.dev := rfl
@[simp] theorem setSegs_intents (s : State) (l : List Segment) : (setSegs s l).intents = s.intents := rfl
@[simp] theorem setSegs_damaged (s : State) (l : List Segment) : (setSegs s l).damaged = s.damaged := rfl
@[simp] theorem setSegs_regions (s : State) (l : List Segment) : (setSegs s l).regions = s.regions := rfl
@[simp] theorem setSegs_control (s : State) (l : List Segment) : (setSegs s l).control = s.control := rfl
@[simp] theorem setSegs_sweep (s : State) (l : List Segment) : (setSegs s l).sweep = s.sweep := rfl
@[simp] theorem setSegs_theft (s : State) (l : List Segment) : (setSegs s l).theft = s.theft := rfl
@[simp] theorem setSegs_power (s : State) (l : List Segment) : (setSegs s l).power = s.power := rfl
@[simp] theorem setSegs_journal (s : State) (l : List Segment) : (setSegs s l).journal = s.journal := rfl
@[simp] theorem setSegs_store (s : State) (l : List Segment) : (setSegs s l).store = s.store := rfl
@[simp] theorem setSegs_writes (s : State) (l : List Segment) : (setSegs s l).writes = s.writes := rfl
@[simp] theorem setSegs_startUp (s : State) (l : List Segment) : (setSegs s l).startUp = s.startUp := rfl
@[simp] theorem setSegs_fresh (s : State) (l : List Segment) : (setSegs s l).fresh = s.fresh := rfl
@[simp] theorem setSegs_pending (s : State) (l : List Segment) : (setSegs s l).pending = s.pending := rfl

/-! ## setJob -/

@[simp] theorem setJob_powered (s : State) (j : JobNo) (e : JobEntry) : (setJob s j e).powered = s.powered := rfl
@[simp] theorem setJob_sleepLine (s : State) (j : JobNo) (e : JobEntry) : (setJob s j e).sleepLine = s.sleepLine := rfl
@[simp] theorem setJob_sleepReady (s : State) (j : JobNo) (e : JobEntry) : (setJob s j e).sleepReady = s.sleepReady := rfl
@[simp] theorem setJob_front (s : State) (j : JobNo) (e : JobEntry) : (setJob s j e).front = s.front := rfl
@[simp] theorem setJob_arb (s : State) (j : JobNo) (e : JobEntry) : (setJob s j e).arb = s.arb := rfl
@[simp] theorem setJob_media (s : State) (j : JobNo) (e : JobEntry) : (setJob s j e).media = s.media := rfl
@[simp] theorem setJob_ranges (s : State) (j : JobNo) (e : JobEntry) : (setJob s j e).ranges = s.ranges := rfl
@[simp] theorem setJob_slots (s : State) (j : JobNo) (e : JobEntry) : (setJob s j e).slots = s.slots := rfl
@[simp] theorem setJob_creds (s : State) (j : JobNo) (e : JobEntry) : (setJob s j e).creds = s.creds := rfl
@[simp] theorem setJob_dev (s : State) (j : JobNo) (e : JobEntry) : (setJob s j e).dev = s.dev := rfl
@[simp] theorem setJob_intents (s : State) (j : JobNo) (e : JobEntry) : (setJob s j e).intents = s.intents := rfl
@[simp] theorem setJob_damaged (s : State) (j : JobNo) (e : JobEntry) : (setJob s j e).damaged = s.damaged := rfl
@[simp] theorem setJob_regions (s : State) (j : JobNo) (e : JobEntry) : (setJob s j e).regions = s.regions := rfl
@[simp] theorem setJob_control (s : State) (j : JobNo) (e : JobEntry) : (setJob s j e).control = s.control := rfl
@[simp] theorem setJob_theft (s : State) (j : JobNo) (e : JobEntry) : (setJob s j e).theft = s.theft := rfl
@[simp] theorem setJob_power (s : State) (j : JobNo) (e : JobEntry) : (setJob s j e).power = s.power := rfl
@[simp] theorem setJob_journal (s : State) (j : JobNo) (e : JobEntry) : (setJob s j e).journal = s.journal := rfl
@[simp] theorem setJob_store (s : State) (j : JobNo) (e : JobEntry) : (setJob s j e).store = s.store := rfl
@[simp] theorem setJob_writes (s : State) (j : JobNo) (e : JobEntry) : (setJob s j e).writes = s.writes := rfl
@[simp] theorem setJob_startUp (s : State) (j : JobNo) (e : JobEntry) : (setJob s j e).startUp = s.startUp := rfl
@[simp] theorem setJob_fresh (s : State) (j : JobNo) (e : JobEntry) : (setJob s j e).fresh = s.fresh := rfl
@[simp] theorem setJob_pending (s : State) (j : JobNo) (e : JobEntry) : (setJob s j e).pending = s.pending := rfl

/-! ## setChunk -/

@[simp] theorem setChunk_powered (s : State) (c : Option Chunk) : (setChunk s c).powered = s.powered := rfl
@[simp] theorem setChunk_sleepLine (s : State) (c : Option Chunk) : (setChunk s c).sleepLine = s.sleepLine := rfl
@[simp] theorem setChunk_sleepReady (s : State) (c : Option Chunk) : (setChunk s c).sleepReady = s.sleepReady := rfl
@[simp] theorem setChunk_front (s : State) (c : Option Chunk) : (setChunk s c).front = s.front := rfl
@[simp] theorem setChunk_arb (s : State) (c : Option Chunk) : (setChunk s c).arb = s.arb := rfl
@[simp] theorem setChunk_media (s : State) (c : Option Chunk) : (setChunk s c).media = s.media := rfl
@[simp] theorem setChunk_ranges (s : State) (c : Option Chunk) : (setChunk s c).ranges = s.ranges := rfl
@[simp] theorem setChunk_slots (s : State) (c : Option Chunk) : (setChunk s c).slots = s.slots := rfl
@[simp] theorem setChunk_creds (s : State) (c : Option Chunk) : (setChunk s c).creds = s.creds := rfl
@[simp] theorem setChunk_dev (s : State) (c : Option Chunk) : (setChunk s c).dev = s.dev := rfl
@[simp] theorem setChunk_intents (s : State) (c : Option Chunk) : (setChunk s c).intents = s.intents := rfl
@[simp] theorem setChunk_damaged (s : State) (c : Option Chunk) : (setChunk s c).damaged = s.damaged := rfl
@[simp] theorem setChunk_regions (s : State) (c : Option Chunk) : (setChunk s c).regions = s.regions := rfl
@[simp] theorem setChunk_control (s : State) (c : Option Chunk) : (setChunk s c).control = s.control := rfl
@[simp] theorem setChunk_theft (s : State) (c : Option Chunk) : (setChunk s c).theft = s.theft := rfl
@[simp] theorem setChunk_power (s : State) (c : Option Chunk) : (setChunk s c).power = s.power := rfl
@[simp] theorem setChunk_journal (s : State) (c : Option Chunk) : (setChunk s c).journal = s.journal := rfl
@[simp] theorem setChunk_store (s : State) (c : Option Chunk) : (setChunk s c).store = s.store := rfl
@[simp] theorem setChunk_writes (s : State) (c : Option Chunk) : (setChunk s c).writes = s.writes := rfl
@[simp] theorem setChunk_startUp (s : State) (c : Option Chunk) : (setChunk s c).startUp = s.startUp := rfl
@[simp] theorem setChunk_fresh (s : State) (c : Option Chunk) : (setChunk s c).fresh = s.fresh := rfl
@[simp] theorem setChunk_pending (s : State) (c : Option Chunk) : (setChunk s c).pending = s.pending := rfl

/-! ## setLane -/

@[simp] theorem setLane_powered (s : State) (l : LaneIx) (x : Lane) : (setLane s l x).powered = s.powered := rfl
@[simp] theorem setLane_sleepLine (s : State) (l : LaneIx) (x : Lane) : (setLane s l x).sleepLine = s.sleepLine := rfl
@[simp] theorem setLane_sleepReady (s : State) (l : LaneIx) (x : Lane) : (setLane s l x).sleepReady = s.sleepReady := rfl
@[simp] theorem setLane_front (s : State) (l : LaneIx) (x : Lane) : (setLane s l x).front = s.front := rfl
@[simp] theorem setLane_media (s : State) (l : LaneIx) (x : Lane) : (setLane s l x).media = s.media := rfl
@[simp] theorem setLane_ranges (s : State) (l : LaneIx) (x : Lane) : (setLane s l x).ranges = s.ranges := rfl
@[simp] theorem setLane_slots (s : State) (l : LaneIx) (x : Lane) : (setLane s l x).slots = s.slots := rfl
@[simp] theorem setLane_creds (s : State) (l : LaneIx) (x : Lane) : (setLane s l x).creds = s.creds := rfl
@[simp] theorem setLane_dev (s : State) (l : LaneIx) (x : Lane) : (setLane s l x).dev = s.dev := rfl
@[simp] theorem setLane_intents (s : State) (l : LaneIx) (x : Lane) : (setLane s l x).intents = s.intents := rfl
@[simp] theorem setLane_damaged (s : State) (l : LaneIx) (x : Lane) : (setLane s l x).damaged = s.damaged := rfl
@[simp] theorem setLane_regions (s : State) (l : LaneIx) (x : Lane) : (setLane s l x).regions = s.regions := rfl
@[simp] theorem setLane_control (s : State) (l : LaneIx) (x : Lane) : (setLane s l x).control = s.control := rfl
@[simp] theorem setLane_sweep (s : State) (l : LaneIx) (x : Lane) : (setLane s l x).sweep = s.sweep := rfl
@[simp] theorem setLane_theft (s : State) (l : LaneIx) (x : Lane) : (setLane s l x).theft = s.theft := rfl
@[simp] theorem setLane_power (s : State) (l : LaneIx) (x : Lane) : (setLane s l x).power = s.power := rfl
@[simp] theorem setLane_journal (s : State) (l : LaneIx) (x : Lane) : (setLane s l x).journal = s.journal := rfl
@[simp] theorem setLane_store (s : State) (l : LaneIx) (x : Lane) : (setLane s l x).store = s.store := rfl
@[simp] theorem setLane_writes (s : State) (l : LaneIx) (x : Lane) : (setLane s l x).writes = s.writes := rfl
@[simp] theorem setLane_startUp (s : State) (l : LaneIx) (x : Lane) : (setLane s l x).startUp = s.startUp := rfl
@[simp] theorem setLane_fresh (s : State) (l : LaneIx) (x : Lane) : (setLane s l x).fresh = s.fresh := rfl
@[simp] theorem setLane_pending (s : State) (l : LaneIx) (x : Lane) : (setLane s l x).pending = s.pending := rfl

/-! ## setTag -/

@[simp] theorem setTag_powered (s : State) (t : MediaTag) (x : TagState) : (setTag s t x).powered = s.powered := rfl
@[simp] theorem setTag_sleepLine (s : State) (t : MediaTag) (x : TagState) : (setTag s t x).sleepLine = s.sleepLine := rfl
@[simp] theorem setTag_sleepReady (s : State) (t : MediaTag) (x : TagState) : (setTag s t x).sleepReady = s.sleepReady := rfl
@[simp] theorem setTag_front (s : State) (t : MediaTag) (x : TagState) : (setTag s t x).front = s.front := rfl
@[simp] theorem setTag_arb (s : State) (t : MediaTag) (x : TagState) : (setTag s t x).arb = s.arb := rfl
@[simp] theorem setTag_ranges (s : State) (t : MediaTag) (x : TagState) : (setTag s t x).ranges = s.ranges := rfl
@[simp] theorem setTag_slots (s : State) (t : MediaTag) (x : TagState) : (setTag s t x).slots = s.slots := rfl
@[simp] theorem setTag_creds (s : State) (t : MediaTag) (x : TagState) : (setTag s t x).creds = s.creds := rfl
@[simp] theorem setTag_dev (s : State) (t : MediaTag) (x : TagState) : (setTag s t x).dev = s.dev := rfl
@[simp] theorem setTag_intents (s : State) (t : MediaTag) (x : TagState) : (setTag s t x).intents = s.intents := rfl
@[simp] theorem setTag_damaged (s : State) (t : MediaTag) (x : TagState) : (setTag s t x).damaged = s.damaged := rfl
@[simp] theorem setTag_regions (s : State) (t : MediaTag) (x : TagState) : (setTag s t x).regions = s.regions := rfl
@[simp] theorem setTag_control (s : State) (t : MediaTag) (x : TagState) : (setTag s t x).control = s.control := rfl
@[simp] theorem setTag_sweep (s : State) (t : MediaTag) (x : TagState) : (setTag s t x).sweep = s.sweep := rfl
@[simp] theorem setTag_theft (s : State) (t : MediaTag) (x : TagState) : (setTag s t x).theft = s.theft := rfl
@[simp] theorem setTag_power (s : State) (t : MediaTag) (x : TagState) : (setTag s t x).power = s.power := rfl
@[simp] theorem setTag_journal (s : State) (t : MediaTag) (x : TagState) : (setTag s t x).journal = s.journal := rfl
@[simp] theorem setTag_store (s : State) (t : MediaTag) (x : TagState) : (setTag s t x).store = s.store := rfl
@[simp] theorem setTag_writes (s : State) (t : MediaTag) (x : TagState) : (setTag s t x).writes = s.writes := rfl
@[simp] theorem setTag_startUp (s : State) (t : MediaTag) (x : TagState) : (setTag s t x).startUp = s.startUp := rfl
@[simp] theorem setTag_fresh (s : State) (t : MediaTag) (x : TagState) : (setTag s t x).fresh = s.fresh := rfl
@[simp] theorem setTag_pending (s : State) (t : MediaTag) (x : TagState) : (setTag s t x).pending = s.pending := rfl

/-! ## askTag -/

@[simp] theorem askTag_powered (s : State) (q : MediaReq) : (askTag s q).powered = s.powered := rfl
@[simp] theorem askTag_sleepLine (s : State) (q : MediaReq) : (askTag s q).sleepLine = s.sleepLine := rfl
@[simp] theorem askTag_sleepReady (s : State) (q : MediaReq) : (askTag s q).sleepReady = s.sleepReady := rfl
@[simp] theorem askTag_front (s : State) (q : MediaReq) : (askTag s q).front = s.front := rfl
@[simp] theorem askTag_arb (s : State) (q : MediaReq) : (askTag s q).arb = s.arb := rfl
@[simp] theorem askTag_ranges (s : State) (q : MediaReq) : (askTag s q).ranges = s.ranges := rfl
@[simp] theorem askTag_slots (s : State) (q : MediaReq) : (askTag s q).slots = s.slots := rfl
@[simp] theorem askTag_creds (s : State) (q : MediaReq) : (askTag s q).creds = s.creds := rfl
@[simp] theorem askTag_dev (s : State) (q : MediaReq) : (askTag s q).dev = s.dev := rfl
@[simp] theorem askTag_intents (s : State) (q : MediaReq) : (askTag s q).intents = s.intents := rfl
@[simp] theorem askTag_damaged (s : State) (q : MediaReq) : (askTag s q).damaged = s.damaged := rfl
@[simp] theorem askTag_regions (s : State) (q : MediaReq) : (askTag s q).regions = s.regions := rfl
@[simp] theorem askTag_control (s : State) (q : MediaReq) : (askTag s q).control = s.control := rfl
@[simp] theorem askTag_sweep (s : State) (q : MediaReq) : (askTag s q).sweep = s.sweep := rfl
@[simp] theorem askTag_theft (s : State) (q : MediaReq) : (askTag s q).theft = s.theft := rfl
@[simp] theorem askTag_power (s : State) (q : MediaReq) : (askTag s q).power = s.power := rfl
@[simp] theorem askTag_journal (s : State) (q : MediaReq) : (askTag s q).journal = s.journal := rfl
@[simp] theorem askTag_store (s : State) (q : MediaReq) : (askTag s q).store = s.store := rfl
@[simp] theorem askTag_writes (s : State) (q : MediaReq) : (askTag s q).writes = s.writes := rfl
@[simp] theorem askTag_startUp (s : State) (q : MediaReq) : (askTag s q).startUp = s.startUp := rfl
@[simp] theorem askTag_fresh (s : State) (q : MediaReq) : (askTag s q).fresh = s.fresh := rfl
@[simp] theorem askTag_pending (s : State) (q : MediaReq) : (askTag s q).pending = s.pending := rfl

/-! ## What an update puts in place -/

theorem modRange_ranges (s : State) (r q : RangeIx) (f : RangeEntry → RangeEntry) :
    (modRange s r f).ranges[q] = if q = r then f s.ranges[r] else s.ranges[q] := by
  simp only [modRange, Fin.getElem_fin, Vector.getElem_set, Fin.ext_iff, eq_comm]

@[simp] theorem modRange_ranges_nat (s : State) (r : RangeIx) (f : RangeEntry → RangeEntry) (i : Nat) (h : i < 16) :
    (modRange s r f).ranges[i] = if r.val = i then f s.ranges[r] else s.ranges[i] := by
  simp only [modRange, Fin.getElem_fin, Vector.getElem_set]

theorem modSlot_slots (s : State) (i k : SlotIx) (f : Slot → Slot) :
    (modSlot s i f).slots[k] = if k = i then f s.slots[i] else s.slots[k] := by
  simp only [modSlot, Fin.getElem_fin, Vector.getElem_set, Fin.ext_iff, eq_comm]

@[simp] theorem modSlot_slots_nat (s : State) (k : SlotIx) (f : Slot → Slot) (i : Nat) (h : i < 24) :
    (modSlot s k f).slots[i] = if k.val = i then f s.slots[k] else s.slots[i] := by
  simp only [modSlot, Fin.getElem_fin, Vector.getElem_set]

theorem modCred_creds (s : State) (c d : CredIx) (f : Cred → Cred) :
    (modCred s c f).creds[d] = if d = c then f s.creds[c] else s.creds[d] := by
  simp only [modCred, Fin.getElem_fin, Vector.getElem_set, Fin.ext_iff, eq_comm]

@[simp] theorem modCred_creds_nat (s : State) (c : CredIx) (f : Cred → Cred) (i : Nat) (h : i < 8) :
    (modCred s c f).creds[i] = if c.val = i then f s.creds[c] else s.creds[i] := by
  simp only [modCred, Fin.getElem_fin, Vector.getElem_set]

@[simp] theorem modDev_dev (s : State) (f : Device → Device) : (modDev s f).dev = f s.dev := rfl

theorem setTxn_tags (s : State) (t u : FrontTag) (x : Option Txn) :
    (setTxn s t x).front.tags[u] = if u = t then x else s.front.tags[u] := by
  simp only [setTxn, Fin.getElem_fin, Vector.getElem_set, Fin.ext_iff, eq_comm]

@[simp] theorem setTxn_tags_nat (s : State) (t : FrontTag) (x : Option Txn) (i : Nat) (h : i < 32) :
    (setTxn s t x).front.tags[i] = if t.val = i then x else s.front.tags[i] := by
  simp only [setTxn, Vector.getElem_set]

@[simp] theorem setTxn_waiting (s : State) (t : FrontTag) (x : Option Txn) :
    (setTxn s t x).front.waiting = s.front.waiting := rfl
@[simp] theorem setTxn_held (s : State) (t : FrontTag) (x : Option Txn) : (setTxn s t x).front.held = s.front.held := rfl
@[simp] theorem setTxn_segs (s : State) (t : FrontTag) (x : Option Txn) : (setTxn s t x).front.segs = s.front.segs := rfl
@[simp] theorem setTxn_nextSeg (s : State) (t : FrontTag) (x : Option Txn) :
    (setTxn s t x).front.nextSeg = s.front.nextSeg := rfl
@[simp] theorem setTxn_sent (s : State) (t : FrontTag) (x : Option Txn) : (setTxn s t x).front.sent = s.front.sent := rfl

@[simp] theorem setSegs_tags (s : State) (l : List Segment) : (setSegs s l).front.tags = s.front.tags := rfl
@[simp] theorem setSegs_waiting (s : State) (l : List Segment) : (setSegs s l).front.waiting = s.front.waiting := rfl
@[simp] theorem setSegs_held (s : State) (l : List Segment) : (setSegs s l).front.held = s.front.held := rfl
@[simp] theorem setSegs_segs (s : State) (l : List Segment) : (setSegs s l).front.segs = l := rfl
@[simp] theorem setSegs_nextSeg (s : State) (l : List Segment) : (setSegs s l).front.nextSeg = s.front.nextSeg := rfl
@[simp] theorem setSegs_sent (s : State) (l : List Segment) : (setSegs s l).front.sent = s.front.sent := rfl

theorem setJob_jobs (s : State) (j k : JobNo) (e : JobEntry) :
    (setJob s j e).sweep.jobs[k] = if k = j then e else s.sweep.jobs[k] := by
  simp only [setJob, Fin.getElem_fin, Vector.getElem_set, Fin.ext_iff, eq_comm]

@[simp] theorem setJob_jobs_nat (s : State) (j : JobNo) (e : JobEntry) (i : Nat) (h : i < 6) :
    (setJob s j e).sweep.jobs[i] = if j.val = i then e else s.sweep.jobs[i] := by
  simp only [setJob, Vector.getElem_set]

@[simp] theorem setJob_stack (s : State) (j : JobNo) (e : JobEntry) : (setJob s j e).sweep.stack = s.sweep.stack := rfl
@[simp] theorem setJob_nextStamp (s : State) (j : JobNo) (e : JobEntry) :
    (setJob s j e).sweep.nextStamp = s.sweep.nextStamp := rfl
@[simp] theorem setJob_chunk (s : State) (j : JobNo) (e : JobEntry) : (setJob s j e).sweep.chunk = s.sweep.chunk := rfl
@[simp] theorem setJob_completing (s : State) (j : JobNo) (e : JobEntry) :
    (setJob s j e).sweep.completing = s.sweep.completing := rfl

@[simp] theorem setChunk_jobs (s : State) (c : Option Chunk) : (setChunk s c).sweep.jobs = s.sweep.jobs := rfl
@[simp] theorem setChunk_stack (s : State) (c : Option Chunk) : (setChunk s c).sweep.stack = s.sweep.stack := rfl
@[simp] theorem setChunk_nextStamp (s : State) (c : Option Chunk) :
    (setChunk s c).sweep.nextStamp = s.sweep.nextStamp := rfl
@[simp] theorem setChunk_chunk (s : State) (c : Option Chunk) : (setChunk s c).sweep.chunk = c := rfl
@[simp] theorem setChunk_completing (s : State) (c : Option Chunk) :
    (setChunk s c).sweep.completing = s.sweep.completing := rfl

theorem setLane_lanes (s : State) (l m : LaneIx) (x : Lane) :
    (setLane s l x).arb.lanes[m] = if m = l then x else s.arb.lanes[m] := by
  simp only [setLane, Fin.getElem_fin, Vector.getElem_set, Fin.ext_iff, eq_comm]

@[simp] theorem setLane_lanes_nat (s : State) (l : LaneIx) (x : Lane) (i : Nat) (h : i < 4) :
    (setLane s l x).arb.lanes[i] = if l.val = i then x else s.arb.lanes[i] := by
  simp only [setLane, Vector.getElem_set]

@[simp] theorem setLane_dedicated (s : State) (l : LaneIx) (x : Lane) :
    (setLane s l x).arb.dedicated = s.arb.dedicated := rfl
@[simp] theorem setLane_wait (s : State) (l : LaneIx) (x : Lane) : (setLane s l x).arb.wait = s.arb.wait := rfl
@[simp] theorem setLane_waitingPass (s : State) (l : LaneIx) (x : Lane) :
    (setLane s l x).arb.waitingPass = s.arb.waitingPass := rfl
@[simp] theorem setLane_guard (s : State) (l : LaneIx) (x : Lane) : (setLane s l x).arb.guard = s.arb.guard := rfl

theorem setTag_tags (s : State) (t u : MediaTag) (x : TagState) :
    (setTag s t x).media.tags[u] = if u = t then x else s.media.tags[u] := by
  simp only [setTag, Fin.getElem_fin, Vector.getElem_set, Fin.ext_iff, eq_comm]

@[simp] theorem setTag_tags_nat (s : State) (t : MediaTag) (x : TagState) (i : Nat) (h : i < 48) :
    (setTag s t x).media.tags[i] = if t.val = i then x else s.media.tags[i] := by
  simp only [setTag, Vector.getElem_set]

@[simp] theorem setTag_waiting (s : State) (t : MediaTag) (x : TagState) :
    (setTag s t x).media.waiting = s.media.waiting := rfl
@[simp] theorem askTag_tags (s : State) (q : MediaReq) : (askTag s q).media.tags = s.media.tags := rfl
@[simp] theorem askTag_waiting (s : State) (q : MediaReq) : (askTag s q).media.waiting = s.media.waiting ++ [q] := rfl

/-- Mapping a table entry by entry maps each entry. -/
theorem vmap_getElem {α β : Type} {n : Nat} (f : α → β) (v : Vector α n) (i : Fin n) :
    (vmap f v)[i] = f v[i] := by
  simp [vmap]

@[simp] theorem vmap_getElem_nat {α β : Type} {n : Nat} (f : α → β) (v : Vector α n) (i : Nat) (h : i < n) :
    (vmap f v)[i] = f v[i] := by
  simp [vmap]

end Sys2Proof.Machine
end

