-- ==== Sys2Proof/Laws/Ops.lean ====
section
/-! SUPPORT. What the shared operations of Machine/Ops.lean do: the journal, completions, the store's queue, the stored
intent list, and the byte and list helpers. -/

namespace Sys2Proof.Machine

/-! ## raise -/

@[simp] theorem raise_powered (s : State) (e : Event) : (raise s e).powered = s.powered := by
  unfold raise; split <;> rfl
@[simp] theorem raise_sleepLine (s : State) (e : Event) : (raise s e).sleepLine = s.sleepLine := by
  unfold raise; split <;> rfl
@[simp] theorem raise_sleepReady (s : State) (e : Event) : (raise s e).sleepReady = s.sleepReady := by
  unfold raise; split <;> rfl
@[simp] theorem raise_front (s : State) (e : Event) : (raise s e).front = s.front := by
  unfold raise; split <;> rfl
@[simp] theorem raise_arb (s : State) (e : Event) : (raise s e).arb = s.arb := by
  unfold raise; split <;> rfl
@[simp] theorem raise_media (s : State) (e : Event) : (raise s e).media = s.media := by
  unfold raise; split <;> rfl
@[simp] theorem raise_ranges (s : State) (e : Event) : (raise s e).ranges = s.ranges := by
  unfold raise; split <;> rfl
@[simp] theorem raise_slots (s : State) (e : Event) : (raise s e).slots = s.slots := by
  unfold raise; split <;> rfl
@[simp] theorem raise_creds (s : State) (e : Event) : (raise s e).creds = s.creds := by
  unfold raise; split <;> rfl
@[simp] theorem raise_dev (s : State) (e : Event) : (raise s e).dev = s.dev := by
  unfold raise; split <;> rfl
@[simp] theorem raise_intents (s : State) (e : Event) : (raise s e).intents = s.intents := by
  unfold raise; split <;> rfl
@[simp] theorem raise_damaged (s : State) (e : Event) : (raise s e).damaged = s.damaged := by
  unfold raise; split <;> rfl
@[simp] theorem raise_regions (s : State) (e : Event) : (raise s e).regions = s.regions := by
  unfold raise; split <;> rfl
@[simp] theorem raise_control (s : State) (e : Event) : (raise s e).control = s.control := by
  unfold raise; split <;> rfl
@[simp] theorem raise_sweep (s : State) (e : Event) : (raise s e).sweep = s.sweep := by
  unfold raise; split <;> rfl
@[simp] theorem raise_theft (s : State) (e : Event) : (raise s e).theft = s.theft := by
  unfold raise; split <;> rfl
@[simp] theorem raise_power (s : State) (e : Event) : (raise s e).power = s.power := by
  unfold raise; split <;> rfl
@[simp] theorem raise_store (s : State) (e : Event) : (raise s e).store = s.store := by
  unfold raise; split <;> rfl
@[simp] theorem raise_writes (s : State) (e : Event) : (raise s e).writes = s.writes := by
  unfold raise; split <;> rfl
@[simp] theorem raise_fresh (s : State) (e : Event) : (raise s e).fresh = s.fresh := by
  unfold raise; split <;> rfl
@[simp] theorem raise_pending (s : State) (e : Event) : (raise s e).pending = s.pending := by
  unfold raise; split <;> rfl

/-! ## raiseAll -/

@[simp] theorem raiseAll_powered (s : State) (l : List Event) : (raiseAll s l).powered = s.powered := by
  induction l generalizing s with
  | nil => rfl
  | cons e l ih => exact (ih (raise s e)).trans (raise_powered s e)
@[simp] theorem raiseAll_sleepLine (s : State) (l : List Event) : (raiseAll s l).sleepLine = s.sleepLine := by
  induction l generalizing s with
  | nil => rfl
  | cons e l ih => exact (ih (raise s e)).trans (raise_sleepLine s e)
@[simp] theorem raiseAll_sleepReady (s : State) (l : List Event) : (raiseAll s l).sleepReady = s.sleepReady := by
  induction l generalizing s with
  | nil => rfl
  | cons e l ih => exact (ih (raise s e)).trans (raise_sleepReady s e)
@[simp] theorem raiseAll_front (s : State) (l : List Event) : (raiseAll s l).front = s.front := by
  induction l generalizing s with
  | nil => rfl
  | cons e l ih => exact (ih (raise s e)).trans (raise_front s e)
@[simp] theorem raiseAll_arb (s : State) (l : List Event) : (raiseAll s l).arb = s.arb := by
  induction l generalizing s with
  | nil => rfl
  | cons e l ih => exact (ih (raise s e)).trans (raise_arb s e)
@[simp] theorem raiseAll_media (s : State) (l : List Event) : (raiseAll s l).media = s.media := by
  induction l generalizing s with
  | nil => rfl
  | cons e l ih => exact (ih (raise s e)).trans (raise_media s e)
@[simp] theorem raiseAll_ranges (s : State) (l : List Event) : (raiseAll s l).ranges = s.ranges := by
  induction l generalizing s with
  | nil => rfl
  | cons e l ih => exact (ih (raise s e)).trans (raise_ranges s e)
@[simp] theorem raiseAll_slots (s : State) (l : List Event) : (raiseAll s l).slots = s.slots := by
  induction l generalizing s with
  | nil => rfl
  | cons e l ih => exact (ih (raise s e)).trans (raise_slots s e)
@[simp] theorem raiseAll_creds (s : State) (l : List Event) : (raiseAll s l).creds = s.creds := by
  induction l generalizing s with
  | nil => rfl
  | cons e l ih => exact (ih (raise s e)).trans (raise_creds s e)
@[simp] theorem raiseAll_dev (s : State) (l : List Event) : (raiseAll s l).dev = s.dev := by
  induction l generalizing s with
  | nil => rfl
  | cons e l ih => exact (ih (raise s e)).trans (raise_dev s e)
@[simp] theorem raiseAll_intents (s : State) (l : List Event) : (raiseAll s l).intents = s.intents := by
  induction l generalizing s with
  | nil => rfl
  | cons e l ih => exact (ih (raise s e)).trans (raise_intents s e)
@[simp] theorem raiseAll_damaged (s : State) (l : List Event) : (raiseAll s l).damaged = s.damaged := by
  induction l generalizing s with
  | nil => rfl
  | cons e l ih => exact (ih (raise s e)).trans (raise_damaged s e)
@[simp] theorem raiseAll_regions (s : State) (l : List Event) : (raiseAll s l).regions = s.regions := by
  induction l generalizing s with
  | nil => rfl
  | cons e l ih => exact (ih (raise s e)).trans (raise_regions s e)
@[simp] theorem raiseAll_control (s : State) (l : List Event) : (raiseAll s l).control = s.control := by
  induction l generalizing s with
  | nil => rfl
  | cons e l ih => exact (ih (raise s e)).trans (raise_control s e)
@[simp] theorem raiseAll_sweep (s : State) (l : List Event) : (raiseAll s l).sweep = s.sweep := by
  induction l generalizing s with
  | nil => rfl
  | cons e l ih => exact (ih (raise s e)).trans (raise_sweep s e)
@[simp] theorem raiseAll_theft (s : State) (l : List Event) : (raiseAll s l).theft = s.theft := by
  induction l generalizing s with
  | nil => rfl
  | cons e l ih => exact (ih (raise s e)).trans (raise_theft s e)
@[simp] theorem raiseAll_power (s : State) (l : List Event) : (raiseAll s l).power = s.power := by
  induction l generalizing s with
  | nil => rfl
  | cons e l ih => exact (ih (raise s e)).trans (raise_power s e)
@[simp] theorem raiseAll_store (s : State) (l : List Event) : (raiseAll s l).store = s.store := by
  induction l generalizing s with
  | nil => rfl
  | cons e l ih => exact (ih (raise s e)).trans (raise_store s e)
@[simp] theorem raiseAll_writes (s : State) (l : List Event) : (raiseAll s l).writes = s.writes := by
  induction l generalizing s with
  | nil => rfl
  | cons e l ih => exact (ih (raise s e)).trans (raise_writes s e)
@[simp] theorem raiseAll_fresh (s : State) (l : List Event) : (raiseAll s l).fresh = s.fresh := by
  induction l generalizing s with
  | nil => rfl
  | cons e l ih => exact (ih (raise s e)).trans (raise_fresh s e)
@[simp] theorem raiseAll_pending (s : State) (l : List Event) : (raiseAll s l).pending = s.pending := by
  induction l generalizing s with
  | nil => rfl
  | cons e l ih => exact (ih (raise s e)).trans (raise_pending s e)

/-! ## send -/

@[simp] theorem send_powered (s : State) (t : FrontTag) (st : Status) (d : List Block) (x : Option Response) : (send s t st d x).powered = s.powered := rfl
@[simp] theorem send_sleepLine (s : State) (t : FrontTag) (st : Status) (d : List Block) (x : Option Response) : (send s t st d x).sleepLine = s.sleepLine := rfl
@[simp] theorem send_sleepReady (s : State) (t : FrontTag) (st : Status) (d : List Block) (x : Option Response) : (send s t st d x).sleepReady = s.sleepReady := rfl
@[simp] theorem send_arb (s : State) (t : FrontTag) (st : Status) (d : List Block) (x : Option Response) : (send s t st d x).arb = s.arb := rfl
@[simp] theorem send_media (s : State) (t : FrontTag) (st : Status) (d : List Block) (x : Option Response) : (send s t st d x).media = s.media := rfl
@[simp] theorem send_ranges (s : State) (t : FrontTag) (st : Status) (d : List Block) (x : Option Response) : (send s t st d x).ranges = s.ranges := rfl
@[simp] theorem send_slots (s : State) (t : FrontTag) (st : Status) (d : List Block) (x : Option Response) : (send s t st d x).slots = s.slots := rfl
@[simp] theorem send_creds (s : State) (t : FrontTag) (st : Status) (d : List Block) (x : Option Response) : (send s t st d x).creds = s.creds := rfl
@[simp] theorem send_dev (s : State) (t : FrontTag) (st : Status) (d : List Block) (x : Option Response) : (send s t st d x).dev = s.dev := rfl
@[simp] theorem send_intents (s : State) (t : FrontTag) (st : Status) (d : List Block) (x : Option Response) : (send s t st d x).intents = s.intents := rfl
@[simp] theorem send_damaged (s : State) (t : FrontTag) (st : Status) (d : List Block) (x : Option Response) : (send s t st d x).damaged = s.damaged := rfl
@[simp] theorem send_regions (s : State) (t : FrontTag) (st : Status) (d : List Block) (x : Option Response) : (send s t st d x).regions = s.regions := rfl
@[simp] theorem send_control (s : State) (t : FrontTag) (st : Status) (d : List Block) (x : Option Response) : (send s t st d x).control = s.control := rfl
@[simp] theorem send_sweep (s : State) (t : FrontTag) (st : Status) (d : List Block) (x : Option Response) : (send s t st d x).sweep = s.sweep := rfl
@[simp] theorem send_theft (s : State) (t : FrontTag) (st : Status) (d : List Block) (x : Option Response) : (send s t st d x).theft = s.theft := rfl
@[simp] theorem send_power (s : State) (t : FrontTag) (st : Status) (d : List Block) (x : Option Response) : (send s t st d x).power = s.power := rfl
@[simp] theorem send_journal (s : State) (t : FrontTag) (st : Status) (d : List Block) (x : Option Response) : (send s t st d x).journal = s.journal := rfl
@[simp] theorem send_store (s : State) (t : FrontTag) (st : Status) (d : List Block) (x : Option Response) : (send s t st d x).store = s.store := rfl
@[simp] theorem send_writes (s : State) (t : FrontTag) (st : Status) (d : List Block) (x : Option Response) : (send s t st d x).writes = s.writes := rfl
@[simp] theorem send_startUp (s : State) (t : FrontTag) (st : Status) (d : List Block) (x : Option Response) : (send s t st d x).startUp = s.startUp := rfl
@[simp] theorem send_fresh (s : State) (t : FrontTag) (st : Status) (d : List Block) (x : Option Response) : (send s t st d x).fresh = s.fresh := rfl
@[simp] theorem send_pending (s : State) (t : FrontTag) (st : Status) (d : List Block) (x : Option Response) : (send s t st d x).pending = s.pending := rfl

/-! ## complete -/

@[simp] theorem complete_powered (s : State) (t : FrontTag) (st : Status) (d : List Block) (x : Option Response) : (complete s t st d x).powered = s.powered := rfl
@[simp] theorem complete_sleepLine (s : State) (t : FrontTag) (st : Status) (d : List Block) (x : Option Response) : (complete s t st d x).sleepLine = s.sleepLine := rfl
@[simp] theorem complete_sleepReady (s : State) (t : FrontTag) (st : Status) (d : List Block) (x : Option Response) : (complete s t st d x).sleepReady = s.sleepReady := rfl
@[simp] theorem complete_arb (s : State) (t : FrontTag) (st : Status) (d : List Block) (x : Option Response) : (complete s t st d x).arb = s.arb := rfl
@[simp] theorem complete_media (s : State) (t : FrontTag) (st : Status) (d : List Block) (x : Option Response) : (complete s t st d x).media = s.media := rfl
@[simp] theorem complete_ranges (s : State) (t : FrontTag) (st : Status) (d : List Block) (x : Option Response) : (complete s t st d x).ranges = s.ranges := rfl
@[simp] theorem complete_slots (s : State) (t : FrontTag) (st : Status) (d : List Block) (x : Option Response) : (complete s t st d x).slots = s.slots := rfl
@[simp] theorem complete_creds (s : State) (t : FrontTag) (st : Status) (d : List Block) (x : Option Response) : (complete s t st d x).creds = s.creds := rfl
@[simp] theorem complete_dev (s : State) (t : FrontTag) (st : Status) (d : List Block) (x : Option Response) : (complete s t st d x).dev = s.dev := rfl
@[simp] theorem complete_intents (s : State) (t : FrontTag) (st : Status) (d : List Block) (x : Option Response) : (complete s t st d x).intents = s.intents := rfl
@[simp] theorem complete_damaged (s : State) (t : FrontTag) (st : Status) (d : List Block) (x : Option Response) : (complete s t st d x).damaged = s.damaged := rfl
@[simp] theorem complete_regions (s : State) (t : FrontTag) (st : Status) (d : List Block) (x : Option Response) : (complete s t st d x).regions = s.regions := rfl
@[simp] theorem complete_control (s : State) (t : FrontTag) (st : Status) (d : List Block) (x : Option Response) : (complete s t st d x).control = s.control := rfl
@[simp] theorem complete_sweep (s : State) (t : FrontTag) (st : Status) (d : List Block) (x : Option Response) : (complete s t st d x).sweep = s.sweep := rfl
@[simp] theorem complete_theft (s : State) (t : FrontTag) (st : Status) (d : List Block) (x : Option Response) : (complete s t st d x).theft = s.theft := rfl
@[simp] theorem complete_power (s : State) (t : FrontTag) (st : Status) (d : List Block) (x : Option Response) : (complete s t st d x).power = s.power := rfl
@[simp] theorem complete_journal (s : State) (t : FrontTag) (st : Status) (d : List Block) (x : Option Response) : (complete s t st d x).journal = s.journal := rfl
@[simp] theorem complete_store (s : State) (t : FrontTag) (st : Status) (d : List Block) (x : Option Response) : (complete s t st d x).store = s.store := rfl
@[simp] theorem complete_writes (s : State) (t : FrontTag) (st : Status) (d : List Block) (x : Option Response) : (complete s t st d x).writes = s.writes := rfl
@[simp] theorem complete_startUp (s : State) (t : FrontTag) (st : Status) (d : List Block) (x : Option Response) : (complete s t st d x).startUp = s.startUp := rfl
@[simp] theorem complete_fresh (s : State) (t : FrontTag) (st : Status) (d : List Block) (x : Option Response) : (complete s t st d x).fresh = s.fresh := rfl
@[simp] theorem complete_pending (s : State) (t : FrontTag) (st : Status) (d : List Block) (x : Option Response) : (complete s t st d x).pending = s.pending := rfl

/-! ## issue -/

@[simp] theorem issue_powered (s : State) (l : List (StoreOp × Done)) : (issue s l).powered = s.powered := by
  cases l <;> rfl
@[simp] theorem issue_sleepLine (s : State) (l : List (StoreOp × Done)) : (issue s l).sleepLine = s.sleepLine := by
  cases l <;> rfl
@[simp] theorem issue_sleepReady (s : State) (l : List (StoreOp × Done)) : (issue s l).sleepReady = s.sleepReady := by
  cases l <;> rfl
@[simp] theorem issue_front (s : State) (l : List (StoreOp × Done)) : (issue s l).front = s.front := by
  cases l <;> rfl
@[simp] theorem issue_arb (s : State) (l : List (StoreOp × Done)) : (issue s l).arb = s.arb := by
  cases l <;> rfl
@[simp] theorem issue_media (s : State) (l : List (StoreOp × Done)) : (issue s l).media = s.media := by
  cases l <;> rfl
@[simp] theorem issue_ranges (s : State) (l : List (StoreOp × Done)) : (issue s l).ranges = s.ranges := by
  cases l <;> rfl
@[simp] theorem issue_slots (s : State) (l : List (StoreOp × Done)) : (issue s l).slots = s.slots := by
  cases l <;> rfl
@[simp] theorem issue_creds (s : State) (l : List (StoreOp × Done)) : (issue s l).creds = s.creds := by
  cases l <;> rfl
@[simp] theorem issue_dev (s : State) (l : List (StoreOp × Done)) : (issue s l).dev = s.dev := by
  cases l <;> rfl
@[simp] theorem issue_intents (s : State) (l : List (StoreOp × Done)) : (issue s l).intents = s.intents := by
  cases l <;> rfl
@[simp] theorem issue_damaged (s : State) (l : List (StoreOp × Done)) : (issue s l).damaged = s.damaged := by
  cases l <;> rfl
@[simp] theorem issue_regions (s : State) (l : List (StoreOp × Done)) : (issue s l).regions = s.regions := by
  cases l <;> rfl
@[simp] theorem issue_control (s : State) (l : List (StoreOp × Done)) : (issue s l).control = s.control := by
  cases l <;> rfl
@[simp] theorem issue_sweep (s : State) (l : List (StoreOp × Done)) : (issue s l).sweep = s.sweep := by
  cases l <;> rfl
@[simp] theorem issue_theft (s : State) (l : List (StoreOp × Done)) : (issue s l).theft = s.theft := by
  cases l <;> rfl
@[simp] theorem issue_power (s : State) (l : List (StoreOp × Done)) : (issue s l).power = s.power := by
  cases l <;> rfl
@[simp] theorem issue_journal (s : State) (l : List (StoreOp × Done)) : (issue s l).journal = s.journal := by
  cases l <;> rfl
@[simp] theorem issue_store (s : State) (l : List (StoreOp × Done)) : (issue s l).store = s.store := by
  cases l <;> rfl
@[simp] theorem issue_startUp (s : State) (l : List (StoreOp × Done)) : (issue s l).startUp = s.startUp := by
  cases l <;> rfl
@[simp] theorem issue_fresh (s : State) (l : List (StoreOp × Done)) : (issue s l).fresh = s.fresh := by
  cases l <;> rfl
@[simp] theorem issue_pending (s : State) (l : List (StoreOp × Done)) : (issue s l).pending = s.pending := by
  cases l <;> rfl

/-! ## Journal -/

/-- A masked event is not recorded and takes no sequence number. -/
theorem journalRecord_masked (j : Journal) (e : Event) (h : masked j.mask e.kind = true) : journalRecord j e = j := by
  simp [journalRecord, h]

/-- An unmasked event joins a ring with room. -/
theorem journalRecord_room (j : Journal) (e : Event) (h : masked j.mask e.kind = false) (hr : j.ring.length < 32) :
    journalRecord j e = { j with ring := j.ring ++ [⟨j.nextSeq, e⟩], nextSeq := j.nextSeq + 1 } := by
  simp [journalRecord, h, hr]

/-- A ring of at most 32 entries stays so. -/
theorem journalRecord_length (j : Journal) (e : Event) (h : j.ring.length ≤ 32) : (journalRecord j e).ring.length ≤ 32 := by
  unfold journalRecord
  split
  · exact h
  · split
    · simp; omega
    · simp; omega

/-- Recording leaves the mask. -/
@[simp] theorem journalRecord_mask (j : Journal) (e : Event) : (journalRecord j e).mask = j.mask := by
  unfold journalRecord
  split
  · rfl
  · split <;> rfl

/-- Raising an event keeps a ring of at most 32 entries. -/
theorem raise_ring (s : State) (e : Event) (h : s.journal.ring.length ≤ 32) : (raise s e).journal.ring.length ≤ 32 := by
  unfold raise
  split
  · exact h
  · exact journalRecord_length _ _ h

/-- Outside start-up an event goes to the journal. -/
theorem raise_journal (s : State) (e : Event) (h : s.startUp = none) :
    raise s e = { s with journal := journalRecord s.journal e } := by
  simp [raise, h]

/-- During start-up the journal stands. -/
theorem raise_deferred (s : State) (e : Event) (u : StartUp) (h : s.startUp = some u) :
    raise s e = { s with startUp := some { u with deferred := u.deferred ++ [e] } } := by
  simp [raise, h]

/-! ## Completions -/

@[simp] theorem send_sent (s : State) (t : FrontTag) (st : Status) (d : List Block) (x : Option Response) :
    (send s t st d x).front.sent = s.front.sent ++ [⟨t, st, attention s, d, x⟩] := rfl
@[simp] theorem send_tags (s : State) (t : FrontTag) (st : Status) (d : List Block) (x : Option Response) :
    (send s t st d x).front.tags = s.front.tags := rfl
@[simp] theorem send_waiting (s : State) (t : FrontTag) (st : Status) (d : List Block) (x : Option Response) :
    (send s t st d x).front.waiting = s.front.waiting := rfl
@[simp] theorem send_held (s : State) (t : FrontTag) (st : Status) (d : List Block) (x : Option Response) :
    (send s t st d x).front.held = s.front.held := rfl
@[simp] theorem send_segs (s : State) (t : FrontTag) (st : Status) (d : List Block) (x : Option Response) :
    (send s t st d x).front.segs = s.front.segs := rfl

@[simp] theorem complete_sent (s : State) (t : FrontTag) (st : Status) (d : List Block) (x : Option Response) :
    (complete s t st d x).front.sent = s.front.sent ++ [⟨t, st, attention s, d, x⟩] := rfl
@[simp] theorem complete_waiting (s : State) (t : FrontTag) (st : Status) (d : List Block) (x : Option Response) :
    (complete s t st d x).front.waiting = s.front.waiting := rfl
@[simp] theorem complete_held (s : State) (t : FrontTag) (st : Status) (d : List Block) (x : Option Response) :
    (complete s t st d x).front.held = s.front.held := rfl
@[simp] theorem complete_segs (s : State) (t : FrontTag) (st : Status) (d : List Block) (x : Option Response) :
    (complete s t st d x).front.segs = s.front.segs := rfl

/-- A completed transaction's tag is free, and every other tag stands. -/
theorem complete_tags (s : State) (t u : FrontTag) (st : Status) (d : List Block) (x : Option Response) :
    (complete s t st d x).front.tags[u] = if u = t then none else s.front.tags[u] := by
  rw [complete, setTxn_tags, send_tags]

@[simp] theorem complete_tags_nat (s : State) (t : FrontTag) (st : Status) (d : List Block) (x : Option Response) (i : Nat)
    (h : i < 32) : (complete s t st d x).front.tags[i] = if t.val = i then none else s.front.tags[i] := by
  rw [complete, setTxn_tags_nat, send_tags]

/-- A completion takes no transaction out of the front tag table but its own. -/
theorem complete_isNone (s : State) (t u : FrontTag) (st : Status) (d : List Block) (x : Option Response)
    (h : s.front.tags[u] = none) : (complete s t st d x).front.tags[u] = none := by
  rw [complete_tags, h]; split <;> rfl

/-! ## The store's queue -/

@[simp] theorem issue_nil (s : State) : issue s [] = s := rfl

/-- A block's writes join the queue's end as one chain. -/
@[simp] theorem issue_writes (s : State) (x : StoreOp × Done) (rest : List (StoreOp × Done)) :
    (issue s (x :: rest)).writes = s.writes ++ [⟨x.1, x.2, rest⟩] := rfl

/-! ## The stored intent list (R109) -/

/-- The list in force, cut at its entry of a range: the ranges added later are those behind it. -/
theorem addedAfter_split {list : List Intent} {e : Intent} (h : e.range ∈ list.map (·.range)) :
    ∃ a b, list.map (·.range) = a ++ e.range :: b ∧ ∀ q, addedAfter list e.range q = true ↔ q ∈ b := by
  induction list with
  | nil => simp at h
  | cons x list ih =>
    by_cases k : x.range = e.range
    · exact ⟨[], list.map (·.range), by simp [k], fun q => by simp [addedAfter, k]⟩
    · have h' : e.range ∈ list.map (·.range) := by
        rcases List.mem_cons.1 h with h | h
        · exact absurd h.symm k
        · exact h
      obtain ⟨a, b, e₁, e₂⟩ := ih h'
      refine ⟨x.range :: a, b, by simp [e₁], fun q => ?_⟩
      rw [← e₂ q]
      simp [addedAfter, k]

/-- The entry stands among the others, each of which stays. -/
theorem placeIntent_perm (list l : List Intent) (e : Intent) : (placeIntent list l e).Perm (l ++ [e]) := by
  unfold placeIntent
  refine List.perm_middle.trans ((List.perm_append_singleton _ _).symm.trans ?_)
  rw [List.takeWhile_append_dropWhile]

/-- The entry of a range that was added last of all goes to the tail. -/
theorem placeIntent_last {list l : List Intent} {e : Intent} (h : ∀ x ∈ l, addedAfter list e.range x.range = false) :
    placeIntent list l e = l ++ [e] := by
  have hp : ∀ x ∈ l, (!addedAfter list e.range x.range) = true := fun x hx => by simp [h x hx]
  rw [placeIntent, List.takeWhile_eq_self_iff.2 hp, List.dropWhile_eq_nil_iff.2 hp]

/-- A stored list in the order of adding stays in it when the write of an entry completes (R109). -/
theorem placeIntent_inOrder {list l : List Intent} {e : Intent} (hn : (list.map (·.range)).Nodup)
    (hl : (l.map (·.range)).Sublist (list.map (·.range))) (he : e.range ∈ list.map (·.range))
    (hf : e.range ∉ l.map (·.range)) : ((placeIntent list l e).map (·.range)).Sublist (list.map (·.range)) := by
  obtain ⟨a, b, split, later⟩ := addedAfter_split he
  rw [split] at hl hn ⊢
  obtain ⟨u, v, cut, hu, hv⟩ := List.sublist_append_iff.1 hl
  have hv' : v.Sublist b := by
    rcases List.sublist_cons_iff.1 hv with h | ⟨w, rfl, -⟩
    · exact h
    · exact absurd (by simp [cut]) hf
  obtain ⟨l₁, l₂, rfl, rfl, rfl⟩ := List.map_eq_append_iff.1 cut
  have before : ∀ x ∈ l₁, (!addedAfter list e.range x.range) = true := by
    intro x hx
    have ha : x.range ∈ a := hu.subset (List.mem_map_of_mem hx)
    have hb : x.range ∉ b := fun hb =>
      (List.nodup_append.1 hn).2.2 _ ha _ (List.mem_cons_of_mem _ hb) rfl
    simpa using fun h => hb ((later _).1 h)
  have after : ∀ x ∈ l₂, (!addedAfter list e.range x.range) = false := by
    intro x hx
    simpa using (later _).2 (hv'.subset (List.mem_map_of_mem hx))
  have none_taken : l₂.takeWhile (fun x => !addedAfter list e.range x.range) = [] := by
    cases l₂ with
    | nil => rfl
    | cons x l₂ => rw [List.takeWhile_cons, if_neg (by simp [after x (by simp)])]
  have all_left : l₂.dropWhile (fun x => !addedAfter list e.range x.range) = l₂ := by
    cases l₂ with
    | nil => rfl
    | cons x l₂ => rw [List.dropWhile_cons, if_neg (by simp [after x (by simp)])]
  rw [placeIntent, List.takeWhile_append_of_pos before, List.dropWhile_append_of_pos before, none_taken, all_left]
  simpa using hu.append (hv'.cons_cons e.range)

/-! ## Bytes -/

@[simp] theorem leBytes_length (n v : Nat) : (leBytes n v).length = n := by
  induction n generalizing v with
  | zero => rfl
  | succ n ih => simp [leBytes, ih]

/-- Reading back the bytes of a number that fits. -/
theorem leNat_leBytes (n v : Nat) (h : v < 256 ^ n) : leNat (leBytes n v) = v := by
  induction n generalizing v with
  | zero => simp [leBytes, leNat]; omega
  | succ n ih =>
    have h2 : v / 256 < 256 ^ n := by
      rw [Nat.div_lt_iff_lt_mul (by decide)]; rw [Nat.pow_succ] at h; exact h
    simp only [leBytes, leNat, ih _ h2, BitVec.toNat_ofNat]
    omega

/-- Reading back a bit vector of whole bytes. -/
theorem leNat_leBytes_toNat {w : Nat} (n : Nat) (v : BitVec w) (h : 2 ^ w ≤ 256 ^ n) : leNat (leBytes n v.toNat) = v.toNat :=
  leNat_leBytes n _ (Nat.lt_of_lt_of_le v.isLt h)

/-! ## Index lists -/

theorem mem_allRanges (r : RangeIx) : r ∈ allRanges := by revert r; decide
theorem mem_allCreds (c : CredIx) : c ∈ allCreds := by revert c; decide
theorem mem_allTags (t : FrontTag) : t ∈ allTags := by revert t; decide
theorem mem_allLanes (l : LaneIx) : l ∈ allLanes := by revert l; decide
theorem mem_allJobs (j : JobNo) : j ∈ allJobs := by revert j; decide
theorem mem_definedRanges (r : RangeIx) : r ∈ definedRanges ↔ r ≠ 0 := by revert r; decide
theorem mem_mediaSlots (i : SlotIx) : i ∈ mediaSlots ↔ i ≠ 0 := by revert i; decide

/-! ## Sorted points -/

theorem mem_insertPoint (p q : Nat) (l : List Nat) : q ∈ insertPoint p l ↔ q = p ∨ q ∈ l := by
  induction l with
  | nil => simp [insertPoint]
  | cons a l ih =>
    unfold insertPoint
    split
    · simp
    · split
      · rename_i h; subst h; simp
      · simp [ih]; tauto

theorem mem_sortPoints (q : Nat) (l : List Nat) : q ∈ sortPoints l ↔ q ∈ l := by
  induction l with
  | nil => simp [sortPoints]
  | cons a l ih => simp only [sortPoints, List.foldr_cons, mem_insertPoint, List.mem_cons]; rw [← ih]; rfl

theorem insertPoint_sorted (p : Nat) (l : List Nat) (h : l.Pairwise (· < ·)) : (insertPoint p l).Pairwise (· < ·) := by
  induction l with
  | nil => simp [insertPoint]
  | cons a l ih =>
    rw [List.pairwise_cons] at h
    unfold insertPoint
    split
    · rename_i hp
      refine List.pairwise_cons.2 ⟨fun x hx => ?_, List.pairwise_cons.2 h⟩
      rcases List.mem_cons.1 hx with rfl | hx
      · exact hp
      · exact Nat.lt_trans hp (h.1 x hx)
    · split
      · exact List.pairwise_cons.2 h
      · rename_i h1 h2
        refine List.pairwise_cons.2 ⟨fun x hx => ?_, ih h.2⟩
        rcases (mem_insertPoint p x l).1 hx with rfl | hx
        · omega
        · exact h.1 x hx

/-- Sorted points are strictly rising. -/
theorem sortPoints_sorted (l : List Nat) : (sortPoints l).Pairwise (· < ·) := by
  induction l with
  | nil => simp [sortPoints]
  | cons a l ih => exact insertPoint_sorted a _ ih

end Sys2Proof.Machine
end

