-- ==== Sys2Proof/Laws/Engine.lean ====
section
/-! SUPPORT. What the sweep engine leaves as it was, whatever it chooses: the front port, the media port, the key slots, the
credentials, the device record, the control unit, the monitors, the store and every range's lock state, span, slot,
generation and flags, and whether it is DRAINING; and what the completion of a PURGE chunk's checkpoint does. -/

namespace Sys2Proof.Machine

/-- What of a range entry the sweep engine never changes. -/
def engineView (x : RangeEntry) : Bool × Nat × Nat × LockState × Option SlotIx × Gen × Flags × Bool × Bool × Option Nat :=
  (x.active, x.start, x.len, x.lock, x.slot, x.gen, x.flags, x.finishing, x.cond = .draining, x.mig.map (·.w))

/-- What the sweep engine leaves as it was. -/
structure Spared (s t : State) : Prop where
  powered    : t.powered = s.powered
  sleepLine  : t.sleepLine = s.sleepLine
  sleepReady : t.sleepReady = s.sleepReady
  front      : t.front = s.front
  media      : t.media = s.media
  slots      : t.slots = s.slots
  creds      : t.creds = s.creds
  dev        : t.dev = s.dev
  damaged    : t.damaged = s.damaged
  regions    : t.regions = s.regions
  control    : t.control = s.control
  theft      : t.theft = s.theft
  power      : t.power = s.power
  store      : t.store = s.store
  fresh      : t.fresh = s.fresh
  pending    : t.pending = s.pending
  started    : s.startUp = none → t.startUp = none
  ranges     : ∀ r : RangeIx, engineView t.ranges[r] = engineView s.ranges[r]

theorem Spared.refl {s : State} : Spared s s :=
  ⟨rfl, rfl, rfl, rfl, rfl, rfl, rfl, rfl, rfl, rfl, rfl, rfl, rfl, rfl, rfl, rfl, id, fun _ => rfl⟩

theorem Spared.trans {s t u : State} (h : Spared s t) (k : Spared t u) : Spared s u :=
  ⟨k.powered.trans h.powered, k.sleepLine.trans h.sleepLine, k.sleepReady.trans h.sleepReady, k.front.trans h.front,
    k.media.trans h.media, k.slots.trans h.slots, k.creds.trans h.creds, k.dev.trans h.dev, k.damaged.trans h.damaged,
    k.regions.trans h.regions, k.control.trans h.control, k.theft.trans h.theft, k.power.trans h.power,
    k.store.trans h.store, k.fresh.trans h.fresh, k.pending.trans h.pending,
    fun e => k.started (h.started e), fun r => (k.ranges r).trans (h.ranges r)⟩

/-- The lock state of every range stands. -/
theorem Spared.lock {s t : State} (h : Spared s t) (r : RangeIx) : t.ranges[r].lock = s.ranges[r].lock :=
  congrArg (fun x => x.2.2.2.1) (h.ranges r)

theorem Spared.foldl {s t : State} {α : Type} {f : State → α → State} {l : List α}
    (hf : ∀ u x, Spared s u → Spared s (f u x)) (h : Spared s t) : Spared s (l.foldl f t) := by
  induction l generalizing t with
  | nil => exact h
  | cons a l ih => exact ih (hf t a h)

theorem Spared.foldlFst {s : State} {α β : Type} {f : State × β → α → State × β} {l : List α} {x : State × β}
    (hf : ∀ u a, Spared s u.1 → Spared s (f u a).1) (h : Spared s x.1) : Spared s (l.foldl f x).1 := by
  induction l generalizing x with
  | nil => exact h
  | cons a l ih => exact ih (hf x a h)

/-- An update of the engine's own fields. -/
theorem Spared.lit {s t : State} (h : Spared s t) {arb : Arbiter} {intents : List Intent} {sweep : Sweep}
    {journal : Journal} {writes : List Write} {startUp : Option StartUp} (hs : s.startUp = none → startUp = none) :
    Spared s ⟨t.powered, t.sleepLine, t.sleepReady, t.front, arb, t.media, t.ranges, t.slots, t.creds, t.dev, intents,
      t.damaged, t.regions, t.control, sweep, t.theft, t.power, journal, t.store, writes, startUp, t.fresh, t.pending⟩ :=
  ⟨h.powered, h.sleepLine, h.sleepReady, h.front, h.media, h.slots, h.creds, h.dev, h.damaged, h.regions, h.control,
    h.theft, h.power, h.store, h.fresh, h.pending, hs, h.ranges⟩

/-- An update of the engine's own fields that leaves start-up. -/
theorem Spared.same {s t : State} (h : Spared s t) {arb : Arbiter} {intents : List Intent} {sweep : Sweep}
    {journal : Journal} {writes : List Write} :
    Spared s ⟨t.powered, t.sleepLine, t.sleepReady, t.front, arb, t.media, t.ranges, t.slots, t.creds, t.dev, intents,
      t.damaged, t.regions, t.control, sweep, t.theft, t.power, journal, t.store, writes, t.startUp, t.fresh, t.pending⟩ :=
  h.lit h.started

/-- A change of a range entry that the view does not see. -/
theorem modRange_spared {s t : State} (h : Spared s t) {r : RangeIx} {f : RangeEntry → RangeEntry}
    (hf : engineView (f t.ranges[r]) = engineView t.ranges[r]) : Spared s (modRange t r f) := by
  refine ⟨h.powered, h.sleepLine, h.sleepReady, h.front, h.media, h.slots, h.creds, h.dev, h.damaged, h.regions,
    h.control, h.theft, h.power, h.store, h.fresh, h.pending, h.started, fun q => ?_⟩
  rw [modRange_ranges]
  split
  · rename_i e
    rw [hf, ← e]
    exact h.ranges _
  · exact h.ranges q

theorem raise_spared {s t : State} {e : Event} (h : Spared s t) : Spared s (raise t e) := by
  unfold raise
  split
  · rename_i e
    exact h.lit (fun k => absurd (h.started k) (by simp [e]))
  · exact h.lit h.started

theorem raiseAll_spared {s t : State} {l : List Event} (h : Spared s t) : Spared s (raiseAll t l) :=
  Spared.foldl (fun _ _ k => raise_spared k) h

theorem setJob_spared {s : State} {t : State} {j : JobNo} {e : JobEntry} (h : Spared s t) :
    Spared s (setJob t j e) :=
  Spared.lit h h.started

theorem modJob_spared {s : State} {t : State} {j : JobNo} {f : Job → Job} (h : Spared s t) :
    Spared s (modJob t j f) := by
  unfold modJob
  repeat' (first
    | with_reducible assumption | with_reducible apply setJob_spared | split)

theorem setLane_spared {s : State} {t : State} {l : LaneIx} {x : Lane} (h : Spared s t) :
    Spared s (setLane t l x) :=
  Spared.lit h h.started

theorem setChunk_spared {s : State} {t : State} {c : Option Chunk} (h : Spared s t) :
    Spared s (setChunk t c) :=
  Spared.lit h h.started

theorem issue_spared {s t : State} {l : List (StoreOp × Done)} (h : Spared s t) : Spared s (issue t l) := by
  unfold issue
  split
  · exact h
  · exact h.lit h.started

theorem offStack_spared {s : State} {t : State} {j : JobNo} (h : Spared s t) :
    Spared s (offStack t j) :=
  Spared.lit h h.started

theorem undedicate_spared {s : State} {t : State} (h : Spared s t) :
    Spared s (undedicate t) := by
  unfold undedicate
  repeat' (first
    | with_reducible assumption | extract_lets | with_reducible apply setLane_spared | split | dsimp +zetaDelta only
    | with_reducible refine Spared.same ?_)

theorem dedicate_spared {s : State} {t : State} (h : Spared s t) :
    Spared s (dedicate t) := by
  unfold dedicate
  repeat' (first
    | with_reducible assumption | extract_lets | with_reducible apply setLane_spared | split | dsimp +zetaDelta only
    | with_reducible refine Spared.same ?_)

theorem endTurn_spared {s : State} {t : State} {j : JobNo} {f : Job → Job} (h : Spared s t) :
    Spared s (endTurn t j f) := by
  unfold endTurn
  repeat' (first
    | with_reducible assumption | extract_lets | with_reducible apply setJob_spared
    | with_reducible apply offStack_spared | with_reducible apply undedicate_spared | split)

theorem becomeRunning_spared {s : State} {t : State} {j : JobNo} (h : Spared s t) :
    Spared s (becomeRunning t j) := by
  unfold becomeRunning
  repeat' (first
    | with_reducible assumption | extract_lets | with_reducible apply setJob_spared
    | with_reducible apply offStack_spared | with_reducible apply dedicate_spared | split | dsimp +zetaDelta only
    | with_reducible refine Spared.same ?_)

theorem preempt_spared {s : State} {t : State} {j : JobNo} (h : Spared s t) :
    Spared s (preempt t j) := by
  unfold preempt
  repeat' (first
    | with_reducible assumption | extract_lets | with_reducible apply setJob_spared
    | with_reducible apply undedicate_spared | split)

theorem queueJob_spared {s : State} {t : State} {j : JobNo} {b : Job} (h : Spared s t) :
    Spared s (queueJob t j b) := by
  unfold queueJob
  repeat' (first
    | with_reducible assumption | extract_lets | with_reducible apply setJob_spared | split | dsimp +zetaDelta only
    | with_reducible refine Spared.same ?_)

theorem pauseJob_spared {s : State} {t : State} {j : JobNo} {c : PauseCause} (h : Spared s t) :
    Spared s (pauseJob t j c) := by
  unfold pauseJob
  repeat' (first
    | with_reducible assumption | with_reducible apply endTurn_spared)

theorem issueEach_spared {s : State} {t : State} {l : List StoreOp} (h : Spared s t) :
    Spared s (issueEach t l) := by
  unfold issueEach
  repeat' (first
    | with_reducible assumption | with_reducible refine Spared.foldl (fun _ _ _ => ?_) ?_
    | with_reducible refine Spared.foldlFst (fun _ _ _ => ?_) ?_ | with_reducible apply issue_spared)

theorem issueAll_spared {s : State} {t : State} {l : List StoreOp} {last : Done} (h : Spared s t) :
    Spared s (issueAll t l last) := by
  unfold issueAll
  repeat' (first
    | with_reducible assumption | with_reducible apply issue_spared | with_reducible apply issueEach_spared | split)

theorem releaseRange_spared {s : State} {p : State × Release} {r : RangeIx} (h : Spared s p.1) :
    Spared s (releaseRange p r).1 := by
  unfold releaseRange
  dsimp only
  split
  · exact h
  · split
    · rename_i e
      dsimp only
      refine modRange_spared h ?_
      have k : p.1.ranges[r].cond ≠ .draining := by rw [e]; decide
      simpa [engineView] using k
    · split
      · exact h.same
      · exact h

theorem finishJob_spared {s : State} {t : State} {j : JobNo} {st : JobState} {except : List RangeIx} (h : Spared s t) :
    Spared s (finishJob t j st except).1 := by
  unfold finishJob
  repeat' (first
    | with_reducible assumption | extract_lets | with_reducible refine Spared.foldl (fun _ _ _ => ?_) ?_
    | with_reducible refine Spared.foldlFst (fun _ _ _ => ?_) ?_ | with_reducible apply endTurn_spared
    | with_reducible apply releaseRange_spared | split)

theorem cancelByWipe_spared {s : State} {t : State} {j : JobNo} {set : List RangeIx} {r : RangeIx} (h : Spared s t) :
    Spared s (cancelByWipe t j set r).1 := by
  unfold cancelByWipe
  repeat' (first
    | with_reducible assumption | extract_lets | with_reducible apply raise_spared
    | with_reducible apply finishJob_spared)

theorem wipeJob_spared {s : State} {set : List RangeIx} {r : RangeIx} {p : State × Release} {j : JobNo} (h : Spared s p.1) :
    Spared s (wipeJob set r p j).1 := by
  unfold wipeJob
  repeat' (first
    | with_reducible assumption | extract_lets | with_reducible apply modJob_spared
    | with_reducible apply cancelByWipe_spared | split)

theorem wipeJobs_spared {s : State} {set : List RangeIx} {r : RangeIx} {p : State × Release} (h : Spared s p.1) :
    Spared s (wipeJobs set r p).1 := by
  unfold wipeJobs
  repeat' (first
    | with_reducible assumption | with_reducible refine Spared.foldl (fun _ _ _ => ?_) ?_
    | with_reducible refine Spared.foldlFst (fun _ _ _ => ?_) ?_ | with_reducible apply wipeJob_spared)

theorem returnJob_spared {s : State} {t : State} {j : JobNo} (h : Spared s t) :
    Spared s (returnJob t j) := by
  unfold returnJob
  repeat' (first
    | with_reducible assumption | extract_lets | with_reducible apply setJob_spared | split)

theorem returnIf_spared {s : State} {t : State} {c : PauseCause} {j : JobNo} (h : Spared s t) :
    Spared s (returnIf c t j) := by
  unfold returnIf
  repeat' (first
    | with_reducible assumption | with_reducible apply returnJob_spared | split)

theorem returnPower_spared {s : State} {t : State} (h : Spared s t) :
    Spared s (returnPower t) := by
  unfold returnPower
  repeat' (first
    | with_reducible assumption | with_reducible refine Spared.foldl (fun _ _ _ => ?_) ?_
    | with_reducible refine Spared.foldlFst (fun _ _ _ => ?_) ?_ | with_reducible apply returnIf_spared)

theorem returnUnlocked_spared {s : State} {t : State} {r : RangeIx} (h : Spared s t) :
    Spared s (returnUnlocked t r) := by
  unfold returnUnlocked
  repeat' (first
    | with_reducible assumption | with_reducible apply returnIf_spared | split)

theorem lockJob_spared {s : State} {t : State} {r : RangeIx} (h : Spared s t) :
    Spared s (lockJob t r) := by
  unfold lockJob
  repeat' (first
    | with_reducible assumption | with_reducible apply pauseJob_spared | split)

theorem reportAfter_spared {s : State} {t : State} {ops : List StoreOp} {e : Event} (h : Spared s t) :
    Spared s (reportAfter t ops e) := by
  unfold reportAfter
  repeat' (first
    | with_reducible assumption | with_reducible apply raise_spared | with_reducible apply issueAll_spared | split)

theorem settleTurn_spared {s : State} {t : State} {j : JobNo} {e : ChunkEnd} (h : Spared s t) :
    Spared s (settleTurn t j e) := by
  unfold settleTurn
  repeat' (first
    | with_reducible assumption | extract_lets | with_reducible apply raise_spared
    | with_reducible apply raiseAll_spared | with_reducible apply endTurn_spared
    | with_reducible apply reportAfter_spared | with_reducible apply pauseJob_spared | with_reducible apply issueEach_spared
    | with_reducible apply finishJob_spared | with_reducible apply cancelByWipe_spared | split)

theorem createRekey_spared {s : State} {t : State} {r : RangeIx} (h : Spared s t) :
    Spared s (createRekey t r) := by
  unfold createRekey
  repeat' (first
    | with_reducible assumption | extract_lets | with_reducible apply queueJob_spared
    | with_reducible refine modRange_spared ?_ (by simp [engineView, Function.comp_def]) | split)

theorem createPurge_spared {s : State} {t : State} (h : Spared s t) :
    Spared s (createPurge t) := by
  unfold createPurge
  repeat' (first
    | with_reducible assumption | extract_lets | with_reducible apply queueJob_spared | split)

theorem createUnscheduled_spared {s : State} {t : State} (h : Spared s t) :
    Spared s (createUnscheduled t) := by
  unfold createUnscheduled
  repeat' (first
    | with_reducible assumption | extract_lets | with_reducible refine Spared.foldl (fun _ _ _ => ?_) ?_
    | with_reducible refine Spared.foldlFst (fun _ _ _ => ?_) ?_ | with_reducible apply createRekey_spared
    | with_reducible apply createPurge_spared)

theorem chooseIdle_spared {s : State} {t : State} (h : Spared s t) :
    Spared s (chooseIdle t) := by
  unfold chooseIdle
  repeat' (first
    | with_reducible assumption | with_reducible apply becomeRunning_spared | split)

theorem choose_spared {s : State} {t : State} (h : Spared s t) :
    Spared s (choose t) := by
  unfold choose
  repeat' (first
    | with_reducible assumption | with_reducible apply becomeRunning_spared | with_reducible apply preempt_spared
    | with_reducible apply chooseIdle_spared | split)

theorem askLanes_spared {s : State} {t : State} {policy : LanePolicy} (h : Spared s t) :
    Spared s (askLanes t policy) := by
  unfold askLanes
  repeat' (first
    | with_reducible assumption | with_reducible apply setLane_spared | split | with_reducible refine Spared.same ?_)

theorem storePurge_spared {s : State} {t : State} {j : JobNo} {b : Job} {c : Chunk} (h : Spared s t) :
    Spared s (storePurge t j b c) := by
  unfold storePurge
  repeat' (first
    | with_reducible assumption | extract_lets | with_reducible apply setChunk_spared
    | with_reducible apply issue_spared)

theorem takePurge_spared {s : State} {t : State} {j : JobNo} {b : Job} {r : RangeIx} (h : Spared s t) :
    Spared s (takePurge t j b r) := by
  unfold takePurge
  repeat' (first
    | with_reducible assumption | extract_lets | with_reducible apply setChunk_spared
    | with_reducible apply askLanes_spared | with_reducible apply storePurge_spared | split)

theorem endRange_spared {s : State} {t : State} {r : RangeIx} {op : StoreOp} {d : Done} (h : Spared s t) :
    Spared s (endRange t r op d) := by
  unfold endRange
  repeat' (first
    | with_reducible assumption | with_reducible apply issue_spared | split | with_reducible refine Spared.same ?_)

theorem goOn_spared {s : State} {t : State} (h : Spared s t) :
    Spared s (goOn t) := by
  unfold goOn
  repeat' (first
    | with_reducible assumption | with_reducible apply endRange_spared | with_reducible apply takePurge_spared | split)

theorem settleRunning_spared {s : State} {t : State} (h : Spared s t) :
    Spared s (settleRunning t) := by
  unfold settleRunning
  split
  · exact settleTurn_spared h
  · exact h

theorem onward_spared {s : State} {t : State} {f : State → State} (hf : ∀ u, Spared s u → Spared s (f u))
    (h : Spared s t) : Spared s (onward f t) := by
  unfold onward
  split
  · exact hf _ h
  · split
    · exact hf _ (modJob_spared h)
    · exact goOn_spared h

theorem engineTurn_spared {s : State} {t : State} (n : Nat) (h : Spared s t) :
    Spared s (engineTurn n t) := by
  induction n generalizing t with
  | zero => exact h
  | succ n ih =>
    exact onward_spared (fun _ k => ih k) (choose_spared (createUnscheduled_spared (settleRunning_spared h)))

theorem engine_spared {s : State} {t : State} (h : Spared s t) :
    Spared s (engine t) := by
  unfold engine
  split
  · exact h
  · split
    · exact engineTurn_spared 29 h
    · exact createUnscheduled_spared h

/-! ## The chosen job goes on (R124, R127) -/

/-- The RUNNING job waits on a drain exactly when it is a PURGE whose range under the cursor is DRAINING (R112). -/
theorem runningWaits_iff {s : State} : runningWaits s = true ↔ ∃ j b r, runningJob s = some j ∧ jobAt s j = some b ∧
    b.kind = .purge ∧ cursorRange b = some r ∧ s.ranges[r].cond = .draining := by
  have hb : ∀ b, waitsOnDrain s b = true ↔ ∃ r, b.kind = .purge ∧ cursorRange b = some r ∧ s.ranges[r].cond = .draining := by
    intro b
    unfold waitsOnDrain
    cases h : cursorRange b <;> simp
  unfold runningWaits
  constructor
  · intro h
    split at h
    · rename_i j hj
      obtain ⟨k, w⟩ := (Option.any_eq_true_iff_get _ _).1 h
      obtain ⟨r, w⟩ := (hb _).1 w
      exact ⟨j, _, r, hj, (Option.some_get k).symm, w⟩
    · exact absurd h Bool.false_ne_true
  · rintro ⟨j, b, r, hj, e, w⟩
    rw [hj]
    show (jobAt s j).any (waitsOnDrain s) = true
    rw [e]
    exact (hb b).2 ⟨r, w⟩
/-- A resumed job that waits on a drain: the engine takes the boundary again. -/
theorem onward_of_waits {f : State → State} {s : State} (h : runningWaits s = true) : onward f s = f s := by
  rw [onward, if_pos h]

/-- A job that passes a range by is at a boundary anew. -/
theorem onward_of_passes {f : State → State} {s : State} {j : JobNo} (h : runningWaits s = false)
    (hp : passesRange s = some j) : onward f s = f (modJob s j (pastRange s)) := by
  simp [onward, h, hp]

/-- Any other chosen job goes on. -/
theorem onward_of_goes {f : State → State} {s : State} (h : runningWaits s = false) (hp : passesRange s = none) :
    onward f s = goOn s := by
  simp [onward, h, hp]

/-! ## The checkpoint of a PURGE chunk (R39, R128) -/

/-- A checkpoint that owes its range the STEADY record issues that, and the chunk stays in motion. -/
theorem purgeStored_of_owed {s : State} {c : Chunk} (h : owesSteady s c = true) : purgeStored s c false =
    issue (setChunk s (some { c with phase := .fillStore true })) [(.rangeSteady c.range, .chunk)] := by
  simp [purgeStored, h]

/-- A checkpoint that left the range PURGING and owes it nothing moves the cursor, and the job is at a boundary. -/
theorem purgeStored_of_not_owed {s : State} {c : Chunk} (h : owesSteady s c = false) : purgeStored s c false =
    engine (settleTurn (setChunk (modJob s c.job (purgeAdvanced s c)) none) c.job .went) := by
  simp [purgeStored, h]

/-- The STEADY record of a PURGING range makes it STEADY, moves the cursor, and the job is at a boundary. -/
theorem purgeStored_final {s : State} {c : Chunk} (h : s.ranges[c.range].cond = .purging) : purgeStored s c true =
    let t := modRange s c.range (fun x => { x with cond := .steady })
    engine (settleTurn (setChunk (modJob t c.job (purgeAdvanced t c)) none) c.job .went) := by
  unfold purgeStored
  rw [if_neg (by simp), if_pos (by simpa using h)]

end Sys2Proof.Machine
end

