-- ==== Sys2Proof/Laws/Kept.lean ====
section
/-! SUPPORT. What every shared operation keeps: tries left within the budget, clean EMPTY slots, and the bounded lists and
counters. Each lemma says it for one operation, after a state that kept them, so that a chain of operations is a chain of
lemmas. -/

namespace Sys2Proof.Machine

/-- `t` keeps what `s` has of TriesBounded, SlotsClean and Bounded. -/
structure Kept (s t : State) : Prop where
  tries : TriesBounded s → TriesBounded t
  slots : SlotsClean s → SlotsClean t
  bound : Bounded s → Bounded t

theorem Kept.refl {s : State} : Kept s s := ⟨id, id, id⟩

theorem Kept.trans {s t u : State} (h : Kept s t) (k : Kept t u) : Kept s u :=
  ⟨k.tries ∘ h.tries, k.slots ∘ h.slots, k.bound ∘ h.bound⟩

/-- A fold of operations that keep them keeps them. -/
theorem Kept.foldl {s t : State} {α : Type} {f : State → α → State} {l : List α} (hf : ∀ u x, Kept s u → Kept s (f u x))
    (h : Kept s t) : Kept s (l.foldl f t) := by
  induction l generalizing t with
  | nil => exact h
  | cons a l ih => exact ih (hf t a h)

/-- A fold over a state with something beside it. -/
theorem Kept.foldlFst {s : State} {α β : Type} {f : State × β → α → State × β} {l : List α} {x : State × β}
    (hf : ∀ u a, Kept s u.1 → Kept s (f u a).1) (h : Kept s x.1) : Kept s (l.foldl f x).1 := by
  induction l generalizing x with
  | nil => exact h
  | cons a l ih => exact ih (hf x a h)

/-- An update of other fields keeps them. -/
theorem Kept.lit {s t : State} (h : Kept s t) {powered sleepLine sleepReady : Bool} {front : Front} {arb : Arbiter}
    {media : MediaPort} {ranges : Vector RangeEntry 16} {dev : Device} {intents : List Intent} {damaged : List Damage}
    {regions : Regions} {control : Control} {sweep : Sweep} {theft : Theft} {power : Power} {journal : Journal}
    {store : Store} {writes : List Write} {startUp : Option StartUp} {fresh : Nat} {pending : List Instr}
    (hh : t.front.held.length ≤ 8 → front.held.length ≤ 8) (hg : t.arb.guard ≤ 64 → arb.guard ≤ 64)
    (hq : t.control.queue.length ≤ 4 → control.queue.length ≤ 4)
    (hr : t.journal.ring.length ≤ 32 → journal.ring.length ≤ 32) :
    Kept s ⟨powered, sleepLine, sleepReady, front, arb, media, ranges, t.slots, t.creds, dev, intents, damaged, regions,
      control, sweep, theft, power, journal, store, writes, startUp, fresh, pending⟩ :=
  ⟨h.tries, h.slots, fun b => have k := h.bound b; ⟨hq k.queue, hh k.held, hr k.ring, hg k.guard⟩⟩

/-- A change of the media slots that keeps EMPTY slots clean. -/
theorem modSlot_kept {s t : State} (h : Kept s t) {i : SlotIx} {f : Slot → Slot}
    (hf : slotClean t.slots[i] = true → slotClean (f t.slots[i]) = true) : Kept s (modSlot t i f) := by
  refine ⟨h.tries, fun c k => ?_, fun b => ⟨(h.bound b).queue, (h.bound b).held, (h.bound b).ring, (h.bound b).guard⟩⟩
  rw [modSlot_slots]
  split
  · exact hf (h.slots c i)
  · exact h.slots c k

/-- A change of a credential that keeps its tries within its budget. -/
theorem modCred_kept {s t : State} (h : Kept s t) {c : CredIx} {f : Cred → Cred}
    (hf : t.creds[c].tries ≤ t.creds[c].budget → (f t.creds[c]).tries ≤ (f t.creds[c]).budget) :
    Kept s (modCred t c f) := by
  refine ⟨fun b d => ?_, h.slots, fun b => ⟨(h.bound b).queue, (h.bound b).held, (h.bound b).ring, (h.bound b).guard⟩⟩
  rw [modCred_creds]
  split
  · exact hf (h.tries b c)
  · exact h.tries b d

/-- Raising an event keeps the ring's bound. -/
theorem raise_kept {s t : State} (h : Kept s t) {e : Event} : Kept s (raise t e) := by
  refine ⟨?_, ?_, fun b => ?_⟩
  · simpa only [TriesBounded, raise_creds] using h.tries
  · simpa only [SlotsClean, raise_slots] using h.slots
  · have k := h.bound b
    exact ⟨by rw [raise_control]; exact k.queue, by rw [raise_front]; exact k.held, raise_ring _ _ k.ring,
      by rw [raise_arb]; exact k.guard⟩

theorem raiseAll_kept {s t : State} (h : Kept s t) {l : List Event} : Kept s (raiseAll t l) :=
  Kept.foldl (fun _ _ k => raise_kept k) h

theorem Kept.ite {s t u : State} {c : Prop} [Decidable c] (h : Kept s t) (k : Kept s u) : Kept s (if c then t else u) := by
  split
  · exact h
  · exact k

theorem modRange_kept {s : State} {t : State} {r : RangeIx} {f : RangeEntry → RangeEntry} (h : Kept s t) :
    Kept s (modRange t r f) :=
  Kept.lit h id id id id

theorem setTxn_kept {s : State} {t : State} {t₁ : FrontTag} {x : Option Txn} (h : Kept s t) :
    Kept s (setTxn t t₁ x) :=
  Kept.lit h id id id id

theorem setStage_kept {s t : State} {x : FrontTag} {st : Stage} (h : Kept s t) : Kept s (setStage t x st) := by
  unfold setStage
  split
  · exact setTxn_kept h
  · exact h

theorem setStage_held (t : State) (x : FrontTag) (st : Stage) : (setStage t x st).front.held = t.front.held := by
  unfold setStage
  split <;> rfl

theorem setJob_kept {s : State} {t : State} {j : JobNo} {e : JobEntry} (h : Kept s t) :
    Kept s (setJob t j e) :=
  Kept.lit h id id id id

theorem modJob_kept {s : State} {t : State} {j : JobNo} {f : Job → Job} (h : Kept s t) :
    Kept s (modJob t j f) := by
  unfold modJob
  repeat' (first
    | with_reducible assumption | with_reducible apply setJob_kept | split)

theorem setLane_kept {s : State} {t : State} {l : LaneIx} {x : Lane} (h : Kept s t) :
    Kept s (setLane t l x) :=
  Kept.lit h id id id id

theorem setTag_kept {s : State} {t : State} {t₁ : MediaTag} {x : TagState} (h : Kept s t) :
    Kept s (setTag t t₁ x) :=
  Kept.lit h id id id id

theorem askTag_kept {s : State} {t : State} {q : MediaReq} (h : Kept s t) :
    Kept s (askTag t q) :=
  Kept.lit h id id id id

theorem setSegs_kept {s : State} {t : State} {l : List Segment} (h : Kept s t) :
    Kept s (setSegs t l) :=
  Kept.lit h id id id id

theorem modSeg_kept {s : State} {t : State} {id : Nat} {f : Segment → Segment} (h : Kept s t) :
    Kept s (modSeg t id f) := by
  unfold modSeg
  repeat' (first
    | with_reducible assumption | with_reducible apply setSegs_kept)

theorem modDev_kept {s : State} {t : State} {f : Device → Device} (h : Kept s t) :
    Kept s (modDev t f) :=
  Kept.lit h id id id id

theorem setChunk_kept {s : State} {t : State} {c : Option Chunk} (h : Kept s t) :
    Kept s (setChunk t c) :=
  Kept.lit h id id id id

theorem send_kept {s : State} {t : State} {t₁ : FrontTag} {st : Status} {data : List Block} {resp : Option Response} (h : Kept s t) :
    Kept s (send t t₁ st data resp) :=
  Kept.lit h id id id id

theorem complete_kept {s : State} {t : State} {t₁ : FrontTag} {st : Status} {data : List Block} {resp : Option Response} (h : Kept s t) :
    Kept s (complete t t₁ st data resp) := by
  unfold complete
  repeat' (first
    | with_reducible assumption | with_reducible apply setTxn_kept | with_reducible apply send_kept)

theorem issue_kept {s : State} {t : State} {a0 : List (StoreOp × Done)} (h : Kept s t) :
    Kept s (issue t a0) := by
  unfold issue
  split
  · exact h
  · exact Kept.lit h id id id id

theorem takeKey_kept {s : State} {t : State} (h : Kept s t) :
    Kept s (takeKey t).2 := by
  unfold takeKey
  repeat' (first
    | with_reducible assumption | exact id | exact fun _ => Nat.zero_le _ | split | dsimp +zetaDelta only
    | with_reducible refine Kept.lit ?_ ?_ ?_ ?_ ?_)

theorem bindSlot_kept {s t : State} {i : SlotIx} (h : Kept s t) : Kept s (bindSlot t i) :=
  modSlot_kept h (fun k => by
    split
    · rename_i hl; rw [slotClean, hl]; rfl
    · exact k)

theorem dropRef_kept {s t : State} {i : SlotIx} (h : Kept s t) : Kept s (dropRef t i) :=
  modSlot_kept h (fun k => by
    split
    · rfl
    · simp only [slotClean, Bool.or_eq_true, decide_eq_true_eq, Bool.and_eq_true] at k ⊢
      rcases k with k | k
      · exact .inl k
      · exact .inr ⟨⟨⟨⟨by omega, k.1.1.1.2⟩, k.1.1.2⟩, k.1.2⟩, k.2⟩)

theorem dropOpt_kept {s : State} {t : State} {a0 : Option SlotIx} (h : Kept s t) :
    Kept s (dropOpt t a0) := by
  unfold dropOpt
  repeat' (first
    | with_reducible assumption | with_reducible apply dropRef_kept | split)

theorem releaseSlot_kept {s t : State} {i : SlotIx} (h : Kept s t) : Kept s (releaseSlot t i) :=
  modSlot_kept h (fun _ => by
    split
    · rfl
    · rfl)

theorem releaseOpt_kept {s : State} {t : State} {a0 : Option SlotIx} (h : Kept s t) :
    Kept s (releaseOpt t a0) := by
  unfold releaseOpt
  repeat' (first
    | with_reducible assumption | with_reducible apply releaseSlot_kept | split)

theorem releaseNames_kept {s : State} {t : State} {r : RangeIx} (h : Kept s t) :
    Kept s (releaseNames t r) := by
  unfold releaseNames
  repeat' (first
    | with_reducible assumption | extract_lets | with_reducible apply modRange_kept
    | with_reducible apply releaseOpt_kept)

theorem placeKey_kept {s t : State} {r : RangeIx} {gen : Gen} {role : Role} {key : Option Key} {held : Bool} (h : Kept s t) :
    Kept s (placeKey t r gen role key held).2 := by
  unfold placeKey
  split
  · exact h
  · dsimp only
    refine modSlot_kept h (fun _ => ?_)
    cases held <;> rfl

theorem holdKey_kept {s : State} {t : State} {r : RangeIx} {role : Role} (h : Kept s t) :
    Kept s (holdKey t r role) := by
  unfold holdKey
  repeat' (first
    | with_reducible assumption | with_reducible apply placeKey_kept)

theorem holdKeys_kept {s : State} {t : State} {set : List RangeIx} (h : Kept s t) :
    Kept s (holdKeys t set) := by
  unfold holdKeys
  repeat' (first
    | with_reducible assumption | with_reducible refine Kept.foldl (fun _ _ _ => ?_) ?_
    | with_reducible refine Kept.foldlFst (fun _ _ _ => ?_) ?_ | with_reducible apply holdKey_kept)

theorem nameSlot_kept {s : State} {t : State} {r : RangeIx} {role : Role} {i : SlotIx} (h : Kept s t) :
    Kept s (nameSlot t r role i) := by
  unfold nameSlot
  repeat' (first
    | with_reducible assumption | with_reducible apply modRange_kept | split)

theorem takeUpSlot_kept {s t : State} {want : RangeIx → Bool} {i : SlotIx} (h : Kept s t) : Kept s (takeUpSlot want t i) := by
  unfold takeUpSlot
  dsimp only
  split
  · rename_i hh
    split
    · split
      · refine nameSlot_kept (modSlot_kept h (fun k => ?_))
        simp only [slotClean, hh, Bool.not_true, Bool.and_false, Bool.or_false, decide_eq_true_eq] at k
        rw [slotClean, decide_eq_true k]; rfl
      · exact modSlot_kept h (fun _ => rfl)
    · exact modSlot_kept h (fun _ => rfl)
  · exact h

theorem takeUp_kept {s : State} {t : State} {want : RangeIx → Bool} (h : Kept s t) :
    Kept s (takeUp t want) := by
  unfold takeUp
  repeat' (first
    | with_reducible assumption | with_reducible refine Kept.foldl (fun _ _ _ => ?_) ?_
    | with_reducible refine Kept.foldlFst (fun _ _ _ => ?_) ?_ | with_reducible apply takeUpSlot_kept)

theorem loadNamed_kept {s t : State} {r : RangeIx} (h : Kept s t) : Kept s (loadNamed t r) := by
  unfold loadNamed
  refine Kept.foldl (fun u role k => ?_) h
  have p := placeKey_kept (r := r) (gen := u.ranges[r].gen) (role := role) (key := storedKey u r role) (held := false) k
  split
  · rename_i e
    rw [e] at p
    exact nameSlot_kept p
  · rename_i e
    rw [e] at p
    exact p

theorem takeNext_kept {s t : State} (h : Kept s t) : Kept s (takeNext t) := by
  unfold takeNext
  split
  · split
    · exact h
    · rename_i hq
      refine Kept.lit h id id (fun b => ?_) id
      rw [hq] at b
      exact Nat.le_of_succ_le b
  · exact h

theorem offerControl_kept {s t : State} {x : FrontTag} {b : RequestBlock} (h : Kept s t) : Kept s (offerControl t x b) := by
  unfold offerControl
  split
  · have k := setStage_kept (x := x) (st := .control) h
    exact Kept.lit k id id (fun _ => (h.bound · |>.queue) |> fun f => by
      rename_i e _
      simp only [Bool.and_eq_true, List.isEmpty_iff] at e
      simp [e.1.2]) id
  · split
    · rename_i hl
      exact Kept.lit (setStage_kept h) id id (fun _ => by
        simp only [List.length_append, List.length_singleton]
        omega) id
    · exact complete_kept h

theorem completeIfDone_kept {s : State} {t : State} {t₁ : FrontTag} (h : Kept s t) :
    Kept s (completeIfDone t t₁) := by
  unfold completeIfDone
  repeat' (first
    | with_reducible assumption | extract_lets | with_reducible apply setSegs_kept
    | with_reducible apply complete_kept | split)

theorem issueFlush_kept {s : State} {t : State} {t₁ : FrontTag} (h : Kept s t) :
    Kept s (issueFlush t t₁) := by
  unfold issueFlush
  repeat' (first
    | with_reducible assumption | with_reducible apply setStage_kept | with_reducible apply askTag_kept)

theorem leaveWaitSet_kept {s : State} {t : State} {id : Nat} {t₁ : FrontTag} (h : Kept s t) :
    Kept s (leaveWaitSet id t t₁) := by
  unfold leaveWaitSet
  repeat' (first
    | with_reducible assumption | extract_lets | with_reducible apply setStage_kept
    | with_reducible apply issueFlush_kept | split)

theorem clearDamage_kept {s : State} {t : State} {g : Segment} {st : Status} (h : Kept s t) :
    Kept s (clearDamage t g st) := by
  unfold clearDamage
  repeat' (first
    | with_reducible assumption | exact id | exact fun _ => Nat.zero_le _ | extract_lets
    | with_reducible apply issue_kept | split | dsimp +zetaDelta only
    | with_reducible refine Kept.lit ?_ ?_ ?_ ?_ ?_)

theorem retire_kept {s : State} {t : State} {id : Nat} {st : Status} {data : List Block} (h : Kept s t) :
    Kept s (retire t id st data) := by
  unfold retire
  repeat' (first
    | with_reducible assumption | extract_lets | with_reducible refine Kept.foldl (fun _ _ _ => ?_) ?_
    | with_reducible refine Kept.foldlFst (fun _ _ _ => ?_) ?_ | with_reducible apply setSegs_kept
    | with_reducible apply modSeg_kept | with_reducible apply dropOpt_kept
    | with_reducible apply completeIfDone_kept | with_reducible apply leaveWaitSet_kept
    | with_reducible apply clearDamage_kept | split)

theorem addSeg_kept {s : State} {t : State} {g : Segment} (h : Kept s t) :
    Kept s (addSeg t g) :=
  Kept.lit h id id id id

theorem admitSeg_kept {s : State} {t : State} {t₁ : FrontTag} {cls : FrontClass} {p : Piece × Decision} (h : Kept s t) :
    Kept s (admitSeg t₁ cls t p) := by
  unfold admitSeg
  repeat' (first
    | with_reducible assumption | exact id | exact fun _ => Nat.zero_le _ | extract_lets
    | with_reducible apply askTag_kept | with_reducible apply bindSlot_kept | with_reducible apply addSeg_kept
    | split | dsimp +zetaDelta only | with_reducible refine Kept.lit ?_ ?_ ?_ ?_ ?_)

theorem holdTxn_kept {s t : State} {x : FrontTag} (h : Kept s t) : Kept s (holdTxn t x) := by
  unfold holdTxn
  split
  · rename_i hl
    exact Kept.lit (setStage_kept h) (fun _ => by
      simp only [setStage_held, List.length_append, List.length_singleton]
      omega) id id id
  · exact complete_kept h

theorem admitData_kept {s : State} {t : State} {t₁ : FrontTag} {cls : FrontClass} {lo : Nat} {hi : Nat} (h : Kept s t) :
    Kept s (admitData t t₁ cls lo hi) := by
  unfold admitData
  repeat' (first
    | with_reducible assumption | extract_lets | with_reducible refine Kept.foldl (fun _ _ _ => ?_) ?_
    | with_reducible refine Kept.foldlFst (fun _ _ _ => ?_) ?_ | with_reducible apply setStage_kept
    | with_reducible apply complete_kept | with_reducible apply completeIfDone_kept
    | with_reducible apply admitSeg_kept | with_reducible apply holdTxn_kept | split)

theorem admitFlush_kept {s : State} {t : State} {t₁ : FrontTag} (h : Kept s t) :
    Kept s (admitFlush t t₁) := by
  unfold admitFlush
  repeat' (first
    | with_reducible assumption | extract_lets | with_reducible apply setStage_kept
    | with_reducible apply issueFlush_kept | split)

theorem admit_kept {s : State} {t : State} {t₁ : FrontTag} (h : Kept s t) :
    Kept s (admitTxn t t₁) := by
  unfold admitTxn
  repeat' (first
    | with_reducible assumption | with_reducible apply offerControl_kept | with_reducible apply admitData_kept
    | with_reducible apply admitFlush_kept | split)

theorem releaseHeld_kept {s : State} {t : State} (h : Kept s t) :
    Kept s (releaseHeld t) := by
  unfold releaseHeld
  repeat' (first
    | with_reducible assumption | exact id | exact fun _ => Nat.zero_le _
    | with_reducible refine Kept.foldl (fun _ _ _ => ?_) ?_
    | with_reducible refine Kept.foldlFst (fun _ _ _ => ?_) ?_ | with_reducible apply admit_kept | split
    | with_reducible refine Kept.lit ?_ ?_ ?_ ?_ ?_)

theorem admitWaiting_kept {s : State} {t : State} (h : Kept s t) :
    Kept s (admitWaiting t) := by
  unfold admitWaiting
  repeat' (first
    | with_reducible assumption | exact id | exact fun _ => Nat.zero_le _
    | with_reducible refine Kept.foldl (fun _ _ _ => ?_) ?_
    | with_reducible refine Kept.foldlFst (fun _ _ _ => ?_) ?_ | with_reducible apply admit_kept | split
    | with_reducible refine Kept.lit ?_ ?_ ?_ ?_ ?_)

theorem retryWaiting_kept {s : State} {t : State} (h : Kept s t) :
    Kept s (retryWaiting t) := by
  unfold retryWaiting
  repeat' (first
    | with_reducible assumption | exact id | exact fun _ => Nat.zero_le _
    | with_reducible refine Kept.foldl (fun _ _ _ => ?_) ?_
    | with_reducible refine Kept.foldlFst (fun _ _ _ => ?_) ?_ | with_reducible apply complete_kept | split
    | with_reducible refine Kept.lit ?_ ?_ ?_ ?_ ?_)

theorem abortAll_kept {s : State} {t : State} {keep : Option FrontTag} (h : Kept s t) :
    Kept s (abortAll t keep) := by
  unfold abortAll
  repeat' (first
    | with_reducible assumption | exact id | exact fun _ => Nat.zero_le _ | extract_lets
    | with_reducible refine Kept.foldl (fun _ _ _ => ?_) ?_
    | with_reducible refine Kept.foldlFst (fun _ _ _ => ?_) ?_ | with_reducible apply complete_kept | split
    | dsimp +zetaDelta only | with_reducible refine Kept.lit ?_ ?_ ?_ ?_ ?_)

theorem enterPower_kept {s : State} {t : State} {p : PowerState} (h : Kept s t) :
    Kept s (enterPower t p) := by
  unfold enterPower
  repeat' (first
    | with_reducible assumption | exact id | exact fun _ => Nat.zero_le _ | extract_lets
    | with_reducible apply raise_kept | split | dsimp +zetaDelta only
    | with_reducible refine Kept.lit ?_ ?_ ?_ ?_ ?_)

theorem offStack_kept {s : State} {t : State} {j : JobNo} (h : Kept s t) :
    Kept s (offStack t j) :=
  Kept.lit h id id id id

theorem undedicate_kept {s : State} {t : State} (h : Kept s t) :
    Kept s (undedicate t) := by
  unfold undedicate
  repeat' (first
    | with_reducible assumption | exact id | exact fun _ => Nat.zero_le _ | extract_lets
    | with_reducible apply setLane_kept | split | dsimp +zetaDelta only
    | with_reducible refine Kept.lit ?_ ?_ ?_ ?_ ?_)

theorem dedicate_kept {s : State} {t : State} (h : Kept s t) :
    Kept s (dedicate t) := by
  unfold dedicate
  repeat' (first
    | with_reducible assumption | exact id | exact fun _ => Nat.zero_le _ | extract_lets
    | with_reducible apply setLane_kept | split | dsimp +zetaDelta only
    | with_reducible refine Kept.lit ?_ ?_ ?_ ?_ ?_)

theorem endTurn_kept {s : State} {t : State} {j : JobNo} {f : Job → Job} (h : Kept s t) :
    Kept s (endTurn t j f) := by
  unfold endTurn
  repeat' (first
    | with_reducible assumption | extract_lets | with_reducible apply setJob_kept
    | with_reducible apply offStack_kept | with_reducible apply undedicate_kept | split)

theorem becomeRunning_kept {s : State} {t : State} {j : JobNo} (h : Kept s t) :
    Kept s (becomeRunning t j) := by
  unfold becomeRunning
  repeat' (first
    | with_reducible assumption | exact id | exact fun _ => Nat.zero_le _ | extract_lets
    | with_reducible apply setJob_kept | with_reducible apply offStack_kept | with_reducible apply dedicate_kept
    | split | dsimp +zetaDelta only | with_reducible refine Kept.lit ?_ ?_ ?_ ?_ ?_)

theorem preempt_kept {s : State} {t : State} {j : JobNo} (h : Kept s t) :
    Kept s (preempt t j) := by
  unfold preempt
  repeat' (first
    | with_reducible assumption | extract_lets | with_reducible apply setJob_kept
    | with_reducible apply undedicate_kept | split)

theorem queueJob_kept {s : State} {t : State} {j : JobNo} {b : Job} (h : Kept s t) :
    Kept s (queueJob t j b) := by
  unfold queueJob
  repeat' (first
    | with_reducible assumption | exact id | exact fun _ => Nat.zero_le _ | extract_lets
    | with_reducible apply setJob_kept | split | dsimp +zetaDelta only
    | with_reducible refine Kept.lit ?_ ?_ ?_ ?_ ?_)

theorem pauseJob_kept {s : State} {t : State} {j : JobNo} {c : PauseCause} (h : Kept s t) :
    Kept s (pauseJob t j c) := by
  unfold pauseJob
  repeat' (first
    | with_reducible assumption | with_reducible apply endTurn_kept)

theorem issueEach_kept {s : State} {t : State} {l : List StoreOp} (h : Kept s t) :
    Kept s (issueEach t l) := by
  unfold issueEach
  repeat' (first
    | with_reducible assumption | with_reducible refine Kept.foldl (fun _ _ _ => ?_) ?_
    | with_reducible refine Kept.foldlFst (fun _ _ _ => ?_) ?_ | with_reducible apply issue_kept)

theorem issueChain_kept {s : State} {t : State} {l : List StoreOp} {last : Done} (h : Kept s t) :
    Kept s (issueChain t l last) := by
  unfold issueChain
  repeat' (first
    | with_reducible assumption | with_reducible apply issue_kept | split)

theorem issueAll_kept {s : State} {t : State} {l : List StoreOp} {last : Done} (h : Kept s t) :
    Kept s (issueAll t l last) := by
  unfold issueAll
  repeat' (first
    | with_reducible assumption | with_reducible apply issue_kept | with_reducible apply issueEach_kept | split)

theorem releaseRange_kept {s : State} {p : State × Release} {r : RangeIx} (h : Kept s p.1) :
    Kept s (releaseRange p r).1 := by
  unfold releaseRange
  repeat' (first
    | with_reducible assumption | exact id | exact fun _ => Nat.zero_le _ | extract_lets
    | with_reducible apply modRange_kept | split | dsimp +zetaDelta only
    | with_reducible refine Kept.lit ?_ ?_ ?_ ?_ ?_)

theorem finishJob_kept {s : State} {t : State} {j : JobNo} {st : JobState} {except : List RangeIx} (h : Kept s t) :
    Kept s (finishJob t j st except).1 := by
  unfold finishJob
  repeat' (first
    | with_reducible assumption | extract_lets | with_reducible refine Kept.foldl (fun _ _ _ => ?_) ?_
    | with_reducible refine Kept.foldlFst (fun _ _ _ => ?_) ?_ | with_reducible apply endTurn_kept
    | with_reducible apply releaseRange_kept | split)

theorem cancelByWipe_kept {s : State} {t : State} {j : JobNo} {set : List RangeIx} {r : RangeIx} (h : Kept s t) :
    Kept s (cancelByWipe t j set r).1 := by
  unfold cancelByWipe
  repeat' (first
    | with_reducible assumption | extract_lets | with_reducible apply raise_kept
    | with_reducible apply finishJob_kept)

theorem wipeJob_kept {s : State} {set : List RangeIx} {r : RangeIx} {p : State × Release} {j : JobNo} (h : Kept s p.1) :
    Kept s (wipeJob set r p j).1 := by
  unfold wipeJob
  repeat' (first
    | with_reducible assumption | extract_lets | with_reducible apply modJob_kept
    | with_reducible apply cancelByWipe_kept | split)

theorem wipeJobs_kept {s : State} {set : List RangeIx} {r : RangeIx} {p : State × Release} (h : Kept s p.1) :
    Kept s (wipeJobs set r p).1 := by
  unfold wipeJobs
  repeat' (first
    | with_reducible assumption | with_reducible refine Kept.foldl (fun _ _ _ => ?_) ?_
    | with_reducible refine Kept.foldlFst (fun _ _ _ => ?_) ?_ | with_reducible apply wipeJob_kept)

theorem returnJob_kept {s : State} {t : State} {j : JobNo} (h : Kept s t) :
    Kept s (returnJob t j) := by
  unfold returnJob
  repeat' (first
    | with_reducible assumption | extract_lets | with_reducible apply setJob_kept | split)

theorem returnIf_kept {s : State} {t : State} {c : PauseCause} {j : JobNo} (h : Kept s t) :
    Kept s (returnIf c t j) := by
  unfold returnIf
  repeat' (first
    | with_reducible assumption | with_reducible apply returnJob_kept | split)

theorem returnPower_kept {s : State} {t : State} (h : Kept s t) :
    Kept s (returnPower t) := by
  unfold returnPower
  repeat' (first
    | with_reducible assumption | with_reducible refine Kept.foldl (fun _ _ _ => ?_) ?_
    | with_reducible refine Kept.foldlFst (fun _ _ _ => ?_) ?_ | with_reducible apply returnIf_kept)

theorem returnUnlocked_kept {s : State} {t : State} {r : RangeIx} (h : Kept s t) :
    Kept s (returnUnlocked t r) := by
  unfold returnUnlocked
  repeat' (first
    | with_reducible assumption | with_reducible apply returnIf_kept | split)

theorem lockJob_kept {s : State} {t : State} {r : RangeIx} (h : Kept s t) :
    Kept s (lockJob t r) := by
  unfold lockJob
  repeat' (first
    | with_reducible assumption | with_reducible apply pauseJob_kept | split)

theorem reportAfter_kept {s : State} {t : State} {ops : List StoreOp} {e : Event} (h : Kept s t) :
    Kept s (reportAfter t ops e) := by
  unfold reportAfter
  repeat' (first
    | with_reducible assumption | with_reducible apply raise_kept | with_reducible apply issueAll_kept | split)

theorem settleTurn_kept {s : State} {t : State} {j : JobNo} {e : ChunkEnd} (h : Kept s t) :
    Kept s (settleTurn t j e) := by
  unfold settleTurn
  repeat' (first
    | with_reducible assumption | extract_lets | with_reducible apply raise_kept
    | with_reducible apply raiseAll_kept | with_reducible apply endTurn_kept | with_reducible apply pauseJob_kept
    | with_reducible apply reportAfter_kept
    | with_reducible apply issueEach_kept | with_reducible apply finishJob_kept
    | with_reducible apply cancelByWipe_kept | split)

theorem createRekey_kept {s : State} {t : State} {r : RangeIx} (h : Kept s t) :
    Kept s (createRekey t r) := by
  unfold createRekey
  repeat' (first
    | with_reducible assumption | extract_lets | with_reducible apply modRange_kept
    | with_reducible apply queueJob_kept | split)

theorem createPurge_kept {s : State} {t : State} (h : Kept s t) :
    Kept s (createPurge t) := by
  unfold createPurge
  repeat' (first
    | with_reducible assumption | extract_lets | with_reducible apply queueJob_kept | split)

theorem createUnscheduled_kept {s : State} {t : State} (h : Kept s t) :
    Kept s (createUnscheduled t) := by
  unfold createUnscheduled
  repeat' (first
    | with_reducible assumption | extract_lets | with_reducible refine Kept.foldl (fun _ _ _ => ?_) ?_
    | with_reducible refine Kept.foldlFst (fun _ _ _ => ?_) ?_ | with_reducible apply createRekey_kept
    | with_reducible apply createPurge_kept)

theorem chooseIdle_kept {s : State} {t : State} (h : Kept s t) :
    Kept s (chooseIdle t) := by
  unfold chooseIdle
  repeat' (first
    | with_reducible assumption | with_reducible apply becomeRunning_kept | split)

theorem choose_kept {s : State} {t : State} (h : Kept s t) :
    Kept s (choose t) := by
  unfold choose
  repeat' (first
    | with_reducible assumption | with_reducible apply becomeRunning_kept | with_reducible apply preempt_kept
    | with_reducible apply chooseIdle_kept | split)

theorem askLanes_kept {s : State} {t : State} {policy : LanePolicy} (h : Kept s t) :
    Kept s (askLanes t policy) := by
  unfold askLanes
  repeat' (first
    | with_reducible assumption | exact id | exact fun _ => Nat.zero_le _ | with_reducible apply setLane_kept
    | split | with_reducible refine Kept.lit ?_ ?_ ?_ ?_ ?_)

theorem storePurge_kept {s : State} {t : State} {j : JobNo} {b : Job} {c : Chunk} (h : Kept s t) :
    Kept s (storePurge t j b c) := by
  unfold storePurge
  repeat' (first
    | with_reducible assumption | extract_lets | with_reducible apply setChunk_kept
    | with_reducible apply issue_kept)

theorem takePurge_kept {s : State} {t : State} {j : JobNo} {b : Job} {r : RangeIx} (h : Kept s t) :
    Kept s (takePurge t j b r) := by
  unfold takePurge
  repeat' (first
    | with_reducible assumption | extract_lets | with_reducible apply setChunk_kept
    | with_reducible apply askLanes_kept | with_reducible apply storePurge_kept | split)

theorem endRange_kept {s : State} {t : State} {r : RangeIx} {op : StoreOp} {d : Done} (h : Kept s t) :
    Kept s (endRange t r op d) := by
  unfold endRange
  repeat' (first
    | with_reducible assumption | exact id | exact fun _ => Nat.zero_le _ | with_reducible apply issue_kept
    | split | with_reducible refine Kept.lit ?_ ?_ ?_ ?_ ?_)

theorem goOn_kept {s : State} {t : State} (h : Kept s t) :
    Kept s (goOn t) := by
  unfold goOn
  repeat' (first
    | with_reducible assumption | with_reducible apply endRange_kept | with_reducible apply takePurge_kept | split)

theorem settleRunning_kept {s : State} {t : State} (h : Kept s t) :
    Kept s (settleRunning t) := by
  unfold settleRunning
  split
  · exact settleTurn_kept h
  · exact h

theorem onward_kept {s : State} {t : State} {f : State → State} (hf : ∀ u, Kept s u → Kept s (f u))
    (h : Kept s t) : Kept s (onward f t) := by
  unfold onward
  split
  · exact hf _ h
  · split
    · exact hf _ (modJob_kept h)
    · exact goOn_kept h

theorem engineTurn_kept {s : State} {t : State} (n : Nat) (h : Kept s t) :
    Kept s (engineTurn n t) := by
  induction n generalizing t with
  | zero => exact h
  | succ n ih =>
    exact onward_kept (fun _ k => ih k) (choose_kept (createUnscheduled_kept (settleRunning_kept h)))

theorem engine_kept {s : State} {t : State} (h : Kept s t) :
    Kept s (engine t) := by
  unfold engine
  split
  · exact h
  · split
    · exact engineTurn_kept 29 h
    · exact createUnscheduled_kept h

theorem lockRange_kept {s : State} {t : State} {cause : LockCause} {r : RangeIx} (h : Kept s t) :
    Kept s (lockRange cause t r) := by
  unfold lockRange
  repeat' (first
    | with_reducible assumption | extract_lets | with_reducible apply raise_kept
    | with_reducible apply modRange_kept | with_reducible apply releaseNames_kept
    | with_reducible apply lockJob_kept | split | dsimp +zetaDelta only)

theorem lockProcedure_kept {s : State} {t : State} {set : List RangeIx} {cause : LockCause} (h : Kept s t) :
    Kept s (lockProcedure t set cause) := by
  unfold lockProcedure
  repeat' (first
    | with_reducible assumption | with_reducible refine Kept.foldl (fun _ _ _ => ?_) ?_
    | with_reducible refine Kept.foldlFst (fun _ _ _ => ?_) ?_ | with_reducible apply lockRange_kept)

theorem makeDraining_kept {s : State} {set : List RangeIx} {p : State × Release} {r : RangeIx} (h : Kept s p.1) :
    Kept s (makeDraining set p r).1 := by
  unfold makeDraining
  repeat' (first
    | with_reducible assumption | extract_lets | with_reducible apply modRange_kept
    | with_reducible apply releaseNames_kept | with_reducible apply wipeJobs_kept)

theorem placeGroups_kept {s t : State} {o : PurgeOpt} {l : List (List RangeIx)} (h : Kept s t) :
    Kept s (placeGroups o t l).1 := by
  induction l generalizing t with
  | nil => exact h
  | cons g gs ih =>
    unfold placeGroups
    split
    · exact ih (queueJob_kept h)
    · exact h

theorem displace_kept {s : State} {need n : Nat} {p : State × Release} (h : Kept s p.1) :
    Kept s (displace need n p).1 := by
  induction n generalizing p with
  | zero => exact h
  | succ n ih =>
    unfold displace
    split
    · split
      · exact ih (raise_kept (finishJob_kept h))
      · exact h
    · exact h

theorem theftPurge_kept {s : State} {t : State} {cause : TheftCause} {set : List RangeIx} (h : Kept s t) :
    Kept s (theftPurge t cause set).1 := by
  unfold theftPurge
  repeat' (first
    | with_reducible assumption | extract_lets | with_reducible apply raiseAll_kept
    | with_reducible apply placeGroups_kept | with_reducible apply displace_kept | split)

theorem theftTrigger_kept {s : State} {t : State} {cause : TheftCause} (h : Kept s t) :
    Kept s (theftTrigger t cause).1 := by
  unfold theftTrigger
  repeat' (first
    | with_reducible assumption | exact id | exact fun _ => Nat.zero_le _ | extract_lets
    | with_reducible refine Kept.foldl (fun _ _ _ => ?_) ?_
    | with_reducible refine Kept.foldlFst (fun _ _ _ => ?_) ?_ | with_reducible apply raise_kept
    | with_reducible apply issueEach_kept | with_reducible apply makeDraining_kept
    | with_reducible apply theftPurge_kept | split | dsimp +zetaDelta only
    | with_reducible refine Kept.lit ?_ ?_ ?_ ?_ ?_)

theorem issueTheft_kept {s : State} {t : State} {chain : List (StoreOp × Done)} (h : Kept s t) :
    Kept s (issueTheft t chain) := by
  unfold issueTheft
  repeat' (first
    | with_reducible assumption | exact id | exact fun _ => Nat.zero_le _ | with_reducible apply issue_kept | split
    | with_reducible refine Kept.lit ?_ ?_ ?_ ?_ ?_)

theorem theftTamper_kept {s : State} {t : State} (h : Kept s t) :
    Kept s (theftTamper t) := by
  unfold theftTamper
  repeat' (first
    | with_reducible assumption | extract_lets | with_reducible apply theftTrigger_kept
    | with_reducible apply issueTheft_kept)

theorem theftStored_kept {s : State} {t : State} {set : List RangeIx} (h : Kept s t) :
    Kept s (theftStored t set) := by
  unfold theftStored
  repeat' (first
    | with_reducible assumption | exact id | exact fun _ => Nat.zero_le _ | extract_lets
    | with_reducible refine Kept.foldl (fun _ _ _ => ?_) ?_
    | with_reducible refine Kept.foldlFst (fun _ _ _ => ?_) ?_ | with_reducible apply raise_kept | split
    | dsimp +zetaDelta only | with_reducible refine Kept.lit ?_ ?_ ?_ ?_ ?_)

theorem startDrainFinish_kept {s : State} {t : State} {r : RangeIx} (h : Kept s t) :
    Kept s (startDrainFinish t r) := by
  unfold startDrainFinish
  repeat' (first
    | with_reducible assumption | extract_lets | with_reducible apply modRange_kept
    | with_reducible apply issue_kept | with_reducible apply takeKey_kept | split)

theorem drainLock_kept {s : State} {t : State} {r : RangeIx} (h : Kept s t) :
    Kept s (drainLock t r) := by
  unfold drainLock
  repeat' (first
    | with_reducible assumption | extract_lets | with_reducible apply modRange_kept
    | with_reducible apply loadNamed_kept | split)

theorem drained_kept {s : State} {t : State} {r : RangeIx} {gen : Gen} {purging : Bool} (h : Kept s t) :
    Kept s (drained t r gen purging) := by
  unfold drained
  repeat' (first
    | with_reducible assumption | exact id | exact fun _ => Nat.zero_le _ | extract_lets
    | with_reducible apply raise_kept | with_reducible apply modRange_kept | with_reducible apply drainLock_kept
    | split | dsimp +zetaDelta only | with_reducible refine Kept.lit ?_ ?_ ?_ ?_ ?_)

theorem askSweep_kept {s : State} {t : State} {op : MediaOp} {addr : Nat} {count : Nat} {data : List Block} {q : SweepReq} (h : Kept s t) :
    Kept s (askSweep t op addr count data q) := by
  unfold askSweep
  repeat' (first
    | with_reducible assumption | with_reducible apply askTag_kept)

theorem writeRun_kept {s : State} {t : State} {c : Chunk} {addr : Run → Nat} {q : Run → SweepReq} {x : Run} (h : Kept s t) :
    Kept s (writeRun c addr q t x) := by
  unfold writeRun
  repeat' (first
    | with_reducible assumption | with_reducible apply askSweep_kept)

theorem endRekey_kept {s : State} {t : State} {c : Chunk} {e : ChunkEnd} (h : Kept s t) :
    Kept s (endRekey t c e) := by
  unfold endRekey
  repeat' (first
    | with_reducible assumption | extract_lets | with_reducible apply modRange_kept
    | with_reducible apply setChunk_kept | with_reducible apply dropOpt_kept | with_reducible apply releaseHeld_kept
    | with_reducible apply settleTurn_kept | with_reducible apply engine_kept)

theorem failRekey_kept {s : State} {t : State} {c : Chunk} (h : Kept s t) :
    Kept s (failRekey t c) := by
  unfold failRekey
  repeat' (first
    | with_reducible assumption | with_reducible apply endRekey_kept)

theorem heldAfterMigration_kept {s t : State} {r : RangeIx} {gen : Gen} {i : SlotIx} (h : Kept s t) :
    Kept s (heldAfterMigration r gen t i) :=
  modSlot_kept h (fun k => by
    split
    · rename_i hh
      split
      · rw [Bool.and_eq_true] at hh
        simp only [slotClean, hh.1, Bool.not_true, Bool.and_false, Bool.or_false, decide_eq_true_eq] at k
        rw [slotClean, decide_eq_true k]; rfl
      · rfl
    · exact k)

theorem promoted_clean (r : RangeIx) (gen : Gen) (y : Slot) (h : slotClean y = true) : slotClean (promoted r gen y) = true := by
  unfold promoted
  split
  · exact h
  · rename_i hy; simp [slotClean, hy]

theorem completeMigration_kept {s t : State} {r : RangeIx} (h : Kept s t) : Kept s (completeMigration t r) := by
  unfold completeMigration
  dsimp only
  refine Kept.foldl (fun _ _ k => heldAfterMigration_kept k) (releaseOpt_kept ?_)
  split
  · exact modSlot_kept (modRange_kept h) (promoted_clean _ _ _)
  · exact modRange_kept h

theorem migrationStored_kept {s : State} {t : State} {r : RangeIx} {w : Nat} {j : JobNo} (h : Kept s t) :
    Kept s (migrationStored t r w j) := by
  unfold migrationStored
  repeat' (first
    | with_reducible assumption | with_reducible apply modRange_kept | with_reducible apply modJob_kept
    | with_reducible apply completeMigration_kept | split)

theorem checkpointStored_kept {s : State} {t : State} {c : Chunk} (h : Kept s t) :
    Kept s (checkpointStored t c) := by
  unfold checkpointStored
  repeat' (first
    | with_reducible assumption | extract_lets | with_reducible apply modRange_kept
    | with_reducible apply modJob_kept | with_reducible apply endRekey_kept
    | with_reducible apply migrationStored_kept | split | dsimp +zetaDelta only)

theorem purgeStored_kept {s : State} {t : State} {c : Chunk} {final : Bool} (h : Kept s t) :
    Kept s (purgeStored t c final) := by
  unfold purgeStored
  repeat' (first
    | with_reducible assumption | extract_lets | with_reducible apply modRange_kept
    | with_reducible apply modJob_kept | with_reducible apply setChunk_kept | with_reducible apply settleTurn_kept
    | with_reducible apply engine_kept | with_reducible apply issue_kept | split | dsimp +zetaDelta only)

theorem failPurge_kept {s : State} {t : State} {c : Chunk} (h : Kept s t) :
    Kept s (failPurge t c) := by
  unfold failPurge
  repeat' (first
    | with_reducible assumption | extract_lets | with_reducible apply setChunk_kept
    | with_reducible apply settleTurn_kept | with_reducible apply engine_kept)

theorem storeCheckpoint_kept {s : State} {t : State} {c : Chunk} (h : Kept s t) :
    Kept s (storeCheckpoint t c) := by
  unfold storeCheckpoint
  repeat' (first
    | with_reducible assumption | extract_lets | with_reducible apply setChunk_kept
    | with_reducible apply issue_kept)

theorem readsDone_kept {s : State} {t : State} {c : Chunk} {policy : LanePolicy} (h : Kept s t) :
    Kept s (readsDone t c policy) := by
  unfold readsDone
  repeat' (first
    | with_reducible assumption | extract_lets | with_reducible apply setChunk_kept
    | with_reducible apply askLanes_kept | with_reducible apply failRekey_kept | split)

theorem storeStaged_kept {s : State} {t : State} {c : Chunk} (h : Kept s t) :
    Kept s (storeStaged t c) := by
  unfold storeStaged
  repeat' (first
    | with_reducible assumption | with_reducible apply setChunk_kept | with_reducible apply issue_kept)

theorem stagingDone_kept {s : State} {t : State} {c : Chunk} (h : Kept s t) :
    Kept s (stagingDone t c) := by
  unfold stagingDone
  repeat' (first
    | with_reducible assumption | exact id | exact fun _ => Nat.zero_le _ | extract_lets
    | with_reducible apply setChunk_kept | with_reducible apply issue_kept | with_reducible apply failRekey_kept
    | with_reducible apply storeStaged_kept | split | dsimp +zetaDelta only
    | with_reducible refine Kept.lit ?_ ?_ ?_ ?_ ?_)

theorem homeWrites_kept {s : State} {t : State} {c : Chunk} (h : Kept s t) :
    Kept s (homeWrites t c) := by
  unfold homeWrites
  repeat' (first
    | with_reducible assumption | extract_lets | with_reducible refine Kept.foldl (fun _ _ _ => ?_) ?_
    | with_reducible refine Kept.foldlFst (fun _ _ _ => ?_) ?_ | with_reducible apply setChunk_kept
    | with_reducible apply writeRun_kept)

theorem storeUndo_kept {s : State} {t : State} {c : Chunk} (h : Kept s t) :
    Kept s (storeUndo t c) := by
  unfold storeUndo
  repeat' (first
    | with_reducible assumption | with_reducible apply setChunk_kept | with_reducible apply issue_kept)

theorem homeDone_kept {s : State} {t : State} {c : Chunk} (h : Kept s t) :
    Kept s (homeDone t c) := by
  unfold homeDone
  repeat' (first
    | with_reducible assumption | extract_lets | with_reducible refine Kept.foldl (fun _ _ _ => ?_) ?_
    | with_reducible refine Kept.foldlFst (fun _ _ _ => ?_) ?_ | with_reducible apply setChunk_kept
    | with_reducible apply askSweep_kept | with_reducible apply storeCheckpoint_kept
    | with_reducible apply storeUndo_kept | split)

theorem fillDone_kept {s : State} {t : State} {c : Chunk} {b : Job} (h : Kept s t) :
    Kept s (fillDone t c b) := by
  unfold fillDone
  repeat' (first
    | with_reducible assumption | with_reducible apply storePurge_kept | with_reducible apply failPurge_kept | split)

theorem chunkGoOn_kept {s : State} {t : State} {c : Chunk} (h : Kept s t) :
    Kept s (chunkGoOn t c) := by
  unfold chunkGoOn
  repeat' (first
    | with_reducible assumption | with_reducible apply setChunk_kept | with_reducible apply readsDone_kept
    | with_reducible apply stagingDone_kept | with_reducible apply storeUndo_kept
    | with_reducible apply homeDone_kept | with_reducible apply fillDone_kept | split)

theorem chunkAnswer_kept {s : State} {t : State} {c : Chunk} {q : SweepReq} {a : Answer} (h : Kept s t) :
    Kept s (chunkAnswer t c q a) := by
  unfold chunkAnswer
  repeat' (first
    | with_reducible assumption | extract_lets | with_reducible refine Kept.foldl (fun _ _ _ => ?_) ?_
    | with_reducible refine Kept.foldlFst (fun _ _ _ => ?_) ?_ | with_reducible apply setChunk_kept
    | with_reducible apply askSweep_kept | with_reducible apply writeRun_kept | with_reducible apply chunkGoOn_kept
    | split)

theorem releasePass_kept {s : State} {t : State} (h : Kept s t) :
    Kept s (releasePass t) := by
  unfold releasePass
  repeat' (first
    | with_reducible assumption | exact id | exact fun _ => Nat.zero_le _
    | with_reducible refine Kept.foldl (fun _ _ _ => ?_) ?_
    | with_reducible refine Kept.foldlFst (fun _ _ _ => ?_) ?_ | with_reducible apply setLane_kept | split
    | with_reducible refine Kept.lit ?_ ?_ ?_ ?_ ?_)

theorem rekeyPassEnd_kept {s : State} {t : State} {c : Chunk} (h : Kept s t) :
    Kept s (rekeyPassEnd t c) := by
  unfold rekeyPassEnd
  repeat' (first
    | with_reducible assumption | extract_lets | with_reducible refine Kept.foldl (fun _ _ _ => ?_) ?_
    | with_reducible refine Kept.foldlFst (fun _ _ _ => ?_) ?_ | with_reducible apply setChunk_kept
    | with_reducible apply writeRun_kept)

theorem purgePassEnd_kept {s : State} {t : State} {c : Chunk} {p : Pattern} (h : Kept s t) :
    Kept s (purgePassEnd t c p) := by
  unfold purgePassEnd
  repeat' (first
    | with_reducible assumption | exact id | exact fun _ => Nat.zero_le _ | extract_lets
    | with_reducible refine Kept.foldl (fun _ _ _ => ?_) ?_
    | with_reducible refine Kept.foldlFst (fun _ _ _ => ?_) ?_ | with_reducible apply setChunk_kept
    | with_reducible apply writeRun_kept | split | dsimp +zetaDelta only
    | with_reducible refine Kept.lit ?_ ?_ ?_ ?_ ?_)

theorem chunkStored_kept {s : State} {t : State} (h : Kept s t) :
    Kept s (chunkStored t) := by
  unfold chunkStored
  repeat' (first
    | with_reducible assumption | with_reducible apply raiseAll_kept | with_reducible apply failRekey_kept
    | with_reducible apply checkpointStored_kept | with_reducible apply purgeStored_kept
    | with_reducible apply storeStaged_kept | with_reducible apply homeWrites_kept | split)

theorem offCompleting_kept {s : State} {t : State} {r : RangeIx} (h : Kept s t) :
    Kept s (offCompleting t r) :=
  Kept.lit h id id id id

theorem completingStored_kept {s : State} {t : State} {r : RangeIx} {w : Nat} (h : Kept s t) :
    Kept s (completingStored t r w) := by
  unfold completingStored
  extract_lets u
  have hu : Kept s u := offCompleting_kept h
  split
  · exact engine_kept (settleTurn_kept (migrationStored_kept hu))
  · exact hu

theorem purgedStored_kept {s : State} {t : State} {r : RangeIx} {j : JobNo} (h : Kept s t) :
    Kept s (purgedStored t r j) := by
  unfold purgedStored
  extract_lets u v w
  have hu : Kept s u := offCompleting_kept h
  have hv : Kept s v := modRange_kept hu
  have hw : Kept s w := modJob_kept hv
  split
  · split
    · split
      · refine engine_kept ?_
        split
        · exact settleTurn_kept hw
        · exact hw
      · exact engine_kept hv
    · exact engine_kept hv
  · exact hu

theorem setFence_kept {s : State} {t : State} {j : JobNo} {b : Job} {r : RangeIx} (h : Kept s t) :
    Kept s (setFence t j b r) := by
  unfold setFence
  repeat' (first
    | with_reducible assumption | extract_lets | with_reducible refine Kept.foldl (fun _ _ _ => ?_) ?_
    | with_reducible refine Kept.foldlFst (fun _ _ _ => ?_) ?_ | with_reducible apply modRange_kept
    | with_reducible apply setChunk_kept | with_reducible apply bindSlot_kept | with_reducible apply askSweep_kept
    | with_reducible apply storeCheckpoint_kept | split | dsimp +zetaDelta only)

theorem setPhase_kept {s : State} {t : State} {p : Phase} (h : Kept s t) :
    Kept s (setPhase t p) :=
  Kept.lit h id id id id

theorem setRecovery_kept {s : State} {t : State} {r : Option Recovery} (h : Kept s t) :
    Kept s (setRecovery t r) :=
  Kept.lit h id id id id

theorem loadTables_kept {s : State} {t : State} (h : Kept s t) :
    Kept s (loadTables t) :=
  Kept.lit h id id id id

theorem loadPhase_kept {s t : State} {p : StartInputs} (h : Kept s t) : Kept s (loadPhase t p) := by
  have k : Kept s (loadTables { t with
      dev := t.store.device, creds := vmap loadedCred t.store.creds
      regions := readRegions p.capacity t.store.device.ceiling t.regions.persistentWritten }) :=
    loadTables_kept ⟨fun _ c => by simp [loadedCred], h.slots,
      fun b => ⟨(h.bound b).queue, (h.bound b).held, (h.bound b).ring, (h.bound b).guard⟩⟩
  unfold loadPhase
  extract_lets
  split
  · exact k
  · exact issue_kept (modDev_kept (takeKey_kept k))

theorem passIntent_kept {s : State} {x : State × List (StoreOp × Done)} {e : Intent} (h : Kept s x.1) :
    Kept s (passIntent x e).1 := by
  unfold passIntent
  repeat' (first
    | with_reducible assumption | extract_lets | with_reducible apply takeKey_kept | split)

theorem intentPass_kept {s : State} {t : State} (h : Kept s t) :
    Kept s (intentPass t) := by
  unfold intentPass
  exact issue_kept (Kept.foldlFst (fun _ _ k => passIntent_kept k) h)

theorem askStaged_kept {s : State} {t : State} {start : Nat} {x : Run} (h : Kept s t) :
    Kept s (askStaged start t x) := by
  unfold askStaged
  repeat' (first
    | with_reducible assumption | with_reducible apply askTag_kept)

theorem startRecovery_kept {s : State} {t : State} {r : RangeIx} {g : Staged} (h : Kept s t) :
    Kept s (startRecovery t r g) := by
  unfold startRecovery
  repeat' (first
    | with_reducible assumption | with_reducible refine Kept.foldl (fun _ _ _ => ?_) ?_
    | with_reducible refine Kept.foldlFst (fun _ _ _ => ?_) ?_ | with_reducible apply setRecovery_kept
    | with_reducible apply askStaged_kept)

theorem storeRecovery_kept {s : State} {t : State} {v : Recovery} (h : Kept s t) :
    Kept s (storeRecovery t v) := by
  unfold storeRecovery
  repeat' (first
    | with_reducible assumption | extract_lets | with_reducible apply issue_kept
    | with_reducible apply setRecovery_kept)

theorem endRecovery_kept {s : State} {t : State} {v : Recovery} (h : Kept s t) :
    Kept s (endRecovery t v) := by
  unfold endRecovery
  repeat' (first
    | with_reducible assumption | extract_lets | with_reducible apply raiseAll_kept
    | with_reducible apply setRecovery_kept | with_reducible apply loadTables_kept)

theorem recoveryAnswer_kept {s : State} {t : State} {v : Recovery} {x : Run} {write : Bool} {again : Bool} {sent : List Block} {a : Answer} (h : Kept s t) :
    Kept s (recoveryAnswer t v x write again sent a) := by
  unfold recoveryAnswer
  repeat' (first
    | with_reducible assumption | extract_lets | with_reducible apply askTag_kept
    | with_reducible apply setRecovery_kept | split)

theorem lockedStartCheck_kept {s : State} {t : State} (h : Kept s t) :
    Kept s (lockedStartCheck t).2 := by
  unfold lockedStartCheck
  repeat' (first
    | with_reducible assumption | extract_lets | with_reducible apply modDev_kept | with_reducible apply issue_kept
    | split)

theorem theftLockedStarts_kept {s : State} {t : State} (h : Kept s t) :
    Kept s (theftLockedStarts t) := by
  unfold theftLockedStarts
  repeat' (first
    | with_reducible assumption | extract_lets | with_reducible apply theftTrigger_kept
    | with_reducible apply issueTheft_kept)

theorem openUnguarded_kept {s : State} {t : State} {r : RangeIx} (h : Kept s t) :
    Kept s (openUnguarded t r) := by
  unfold openUnguarded
  repeat' (first
    | with_reducible assumption | extract_lets | with_reducible apply modRange_kept
    | with_reducible apply loadNamed_kept | split)

theorem keyPhase_kept {s t : State} (h : Kept s t) : Kept s (keyPhase t) :=
  Kept.foldl (fun _ _ k => openUnguarded_kept k) (modSlot_kept h (fun _ => rfl))

theorem journalPhase_kept {s : State} {t : State} {u : StartUp} (h : Kept s t) :
    Kept s (journalPhase t u) := by
  unfold journalPhase
  repeat' (first
    | with_reducible assumption | exact id | exact fun _ => Nat.zero_le _ | with_reducible apply raiseAll_kept
    | split | with_reducible refine Kept.lit ?_ ?_ ?_ ?_ ?_)

theorem pauseRunning_kept {s : State} {t : State} (h : Kept s t) :
    Kept s (pauseRunning t) := by
  unfold pauseRunning
  repeat' (first
    | with_reducible assumption | with_reducible apply pauseJob_kept | split)

theorem beginSleepEntry_kept {s : State} {t : State} (h : Kept s t) :
    Kept s (beginSleepEntry t) := by
  unfold beginSleepEntry
  repeat' (first
    | with_reducible assumption | exact id | exact fun _ => Nat.zero_le _ | extract_lets
    | with_reducible apply pauseRunning_kept | split | dsimp +zetaDelta only
    | with_reducible refine Kept.lit ?_ ?_ ?_ ?_ ?_)

theorem admitPhase_kept {s : State} {t : State} {u : StartUp} (h : Kept s t) :
    Kept s (admitPhase t u) := by
  unfold admitPhase
  repeat' (first
    | with_reducible assumption | exact id | exact fun _ => Nat.zero_le _ | extract_lets
    | with_reducible apply takeNext_kept | with_reducible apply admitWaiting_kept
    | with_reducible apply createUnscheduled_kept | with_reducible apply engine_kept
    | with_reducible apply keyPhase_kept | with_reducible apply journalPhase_kept
    | with_reducible apply beginSleepEntry_kept | split | dsimp +zetaDelta only
    | with_reducible refine Kept.lit ?_ ?_ ?_ ?_ ?_)

theorem runPhase_kept {s : State} {t : State} {u : StartUp} (h : Kept s t) :
    Kept s (runPhase t u) := by
  unfold runPhase
  repeat' (first
    | with_reducible assumption | extract_lets | with_reducible refine Kept.foldl (fun _ _ _ => ?_) ?_
    | with_reducible refine Kept.foldlFst (fun _ _ _ => ?_) ?_ | with_reducible apply startDrainFinish_kept
    | with_reducible apply stagingDone_kept | with_reducible apply setPhase_kept
    | with_reducible apply loadTables_kept | with_reducible apply loadPhase_kept
    | with_reducible apply intentPass_kept | with_reducible apply startRecovery_kept
    | with_reducible apply storeRecovery_kept | with_reducible apply endRecovery_kept
    | with_reducible apply lockedStartCheck_kept | with_reducible apply theftLockedStarts_kept
    | with_reducible apply admitPhase_kept | split)

theorem advance_kept {s t : State} {n : Nat} (h : Kept s t) : Kept s (advance n t) := by
  induction n generalizing t with
  | zero => exact h
  | succ n ih =>
    unfold advance
    split
    · split
      · exact h
      · exact ih (runPhase_kept h)
    · exact h

theorem startUpGoesOn_kept {s : State} {t : State} (h : Kept s t) :
    Kept s (startUpGoesOn t) := by
  unfold startUpGoesOn
  repeat' (first
    | with_reducible assumption | with_reducible apply advance_kept)

theorem clearVolatile_kept {s t : State} {w : Bool} (h : Kept s t) : Kept s (clearVolatile t w) :=
  ⟨fun _ c => by simp [clearVolatile, loadedCred], fun _ i => by simp [clearVolatile, slotClean, emptySlot],
    fun b => ⟨Nat.zero_le _, (h.bound b).held, Nat.zero_le _, Nat.zero_le _⟩⟩

theorem beginStartUp_kept {s : State} {t : State} {cause : StartCause} {p : StartInputs} {ph : Phase} (h : Kept s t) :
    Kept s (beginStartUp t cause p ph) := by
  unfold beginStartUp
  repeat' (first
    | with_reducible assumption | exact id | exact fun _ => Nat.zero_le _ | with_reducible apply startUpGoesOn_kept
    | split | with_reducible refine Kept.lit ?_ ?_ ?_ ?_ ?_)

theorem restartPart_kept {s t : State} {p : StartInputs} (h : Kept s t) : Kept s (restartPart t p) := by
  have k := abortAll_kept (keep := none) h
  unfold restartPart
  generalize abortAll t none = u at k ⊢
  extract_lets _ v
  have k : Kept s v := Kept.lit k (fun _ => Nat.zero_le _) id id id
  exact beginStartUp_kept (clearVolatile_kept k)

theorem respond_kept {s : State} {t : State} {r : Response} (h : Kept s t) :
    Kept s (respond t r) := by
  unfold respond
  repeat' (first
    | with_reducible assumption | exact id | exact fun _ => Nat.zero_le _ | extract_lets
    | with_reducible apply complete_kept | with_reducible apply takeNext_kept | split | dsimp +zetaDelta only
    | with_reducible refine Kept.lit ?_ ?_ ?_ ?_ ?_)

theorem endPrepared_kept {s : State} {t : State} (h : Kept s t) :
    Kept s (endPrepared t) :=
  Kept.lit h id id id id

theorem configChanged_kept {s : State} {t : State} {range : Option RangeIx} {cred : Option CredIx} {code : BitVec 16} (h : Kept s t) :
    Kept s (configChanged t range cred code) := by
  unfold configChanged
  repeat' (first
    | with_reducible assumption | with_reducible apply raise_kept)

theorem openIfUnguarded_kept {s : State} {t : State} {r : RangeIx} (h : Kept s t) :
    Kept s (openIfUnguarded t r) := by
  unfold openIfUnguarded
  repeat' (first
    | with_reducible assumption | extract_lets | with_reducible apply modRange_kept
    | with_reducible apply returnUnlocked_kept | split)

theorem unlockRange_kept {s : State} {t : State} {cred : Option CredIx} {access : RangeIx → Access} {r : RangeIx} (h : Kept s t) :
    Kept s (unlockRange cred access t r) := by
  unfold unlockRange
  repeat' (first
    | with_reducible assumption | extract_lets | with_reducible apply raise_kept
    | with_reducible apply modRange_kept | with_reducible apply returnUnlocked_kept | split)

theorem unlockAll_kept {s : State} {t : State} {cred : Option CredIx} {set : List RangeIx} {access : RangeIx → Access} (h : Kept s t) :
    Kept s (unlockAll t cred set access) := by
  unfold unlockAll
  repeat' (first
    | with_reducible assumption | with_reducible refine Kept.foldl (fun _ _ _ => ?_) ?_
    | with_reducible refine Kept.foldlFst (fun _ _ _ => ?_) ?_ | with_reducible apply takeUp_kept
    | with_reducible apply engine_kept | with_reducible apply unlockRange_kept)

theorem commitRange_kept {s : State} {set : List RangeIx} {p : State × Release} {r : RangeIx} (h : Kept s p.1) :
    Kept s (commitRange set p r).1 := by
  unfold commitRange
  repeat' (first
    | with_reducible assumption | extract_lets | with_reducible apply raise_kept
    | with_reducible apply makeDraining_kept | split | dsimp +zetaDelta only)

theorem commitStored_kept {s t : State} {set : List RangeIx} {purge : Option PurgeOpt} (h : Kept s t) :
    Kept s (commitStored t set purge).1 := by
  unfold commitStored
  extract_lets i g x
  have k : Kept s x.1 := Kept.foldlFst (fun _ _ k => commitRange_kept k) (Kept.lit h id id id id)
  split
  · exact placeGroups_kept k
  · exact k

theorem credChanged_kept {s t : State} {c : CredIx} {f : Cred → Cred} {l : List RangeIx} (h : Kept s t)
    (hf : ∀ x : Cred, x.tries ≤ x.budget → (f x).tries ≤ (f x).budget) : Kept s (credChanged t c f l) := by
  unfold credChanged
  split
  · exact modCred_kept h (hf _)
  · exact engine_kept (Kept.foldl (fun _ _ k => openIfUnguarded_kept k) (takeUp_kept (modCred_kept h (hf _))))

theorem credSetTo_tries (v : Secret) (x : Cred) (_ : x.tries ≤ x.budget) : (credSetTo v x).tries ≤ (credSetTo v x).budget :=
  Nat.le_refl _

theorem credCleared_tries (x : Cred) (_ : x.tries ≤ x.budget) : (credCleared x).tries ≤ (credCleared x).budget :=
  Nat.le_refl _

theorem credDisabled_tries (x : Cred) (h : x.tries ≤ x.budget) : (credDisabled x).tries ≤ (credDisabled x).budget := by
  unfold credDisabled
  dsimp only
  split
  · exact Nat.le_refl _
  · exact h

theorem credEnabled_tries (x : Cred) (_ : x.tries ≤ x.budget) : (credEnabled x).tries ≤ (credEnabled x).budget :=
  Nat.le_refl _

theorem credBudgetTo_tries (n : Nat) (x : Cred) (_ : x.tries ≤ x.budget) :
    (credBudgetTo n x).tries ≤ (credBudgetTo n x).budget :=
  Nat.le_refl _

theorem forgetRange_kept {s t : State} {r : RangeIx} {j : JobNo} (h : Kept s t) : Kept s (forgetRange r t j) := by
  unfold forgetRange
  repeat' (first
    | with_reducible assumption | extract_lets | with_reducible apply raise_kept
    | with_reducible apply finishJob_kept | with_reducible apply setJob_kept | split)

theorem deleteRange_kept {s t : State} {r : RangeIx} (h : Kept s t) : Kept s (deleteRange t r) := by
  have k : Kept s (modRange (releaseNames t r) r freedEntry) := modRange_kept (releaseNames_kept h)
  refine Kept.foldl (fun _ _ k => forgetRange_kept k) (Kept.lit
    (t := { modRange (releaseNames t r) r freedEntry with
      creds := vmap (fun c => { c with grants := withoutGrant c.grants r })
        (modRange (releaseNames t r) r freedEntry).creds })
    ⟨fun b c => by simpa [vmap_getElem] using k.tries b c, k.slots,
      fun b => ⟨(k.bound b).queue, (k.bound b).held, (k.bound b).ring, (k.bound b).guard⟩⟩ id id id id)

theorem startRekey_kept {s : State} {t : State} {r : RangeIx} {j : JobNo} {level : Nat} {policy : LanePolicy} {chunkSize : Nat} (h : Kept s t) :
    Kept s (startRekey t r j level policy chunkSize) := by
  unfold startRekey
  repeat' (first
    | with_reducible assumption | extract_lets | with_reducible apply modRange_kept
    | with_reducible apply takeUp_kept | with_reducible apply queueJob_kept | with_reducible apply engine_kept)

theorem setTheft_kept {s : State} {t : State} {p : TheftPolicy} {clearStrikes : Bool} {clearStarts : Bool} {ack : Bool} (h : Kept s t) :
    Kept s (setTheft t p clearStrikes clearStarts ack) := by
  unfold setTheft
  repeat' (first
    | with_reducible assumption | exact id | exact fun _ => Nat.zero_le _ | extract_lets
    | with_reducible apply modDev_kept | split | dsimp +zetaDelta only
    | with_reducible refine Kept.lit ?_ ?_ ?_ ?_ ?_)

theorem setAfter_kept {s : State} {t : State} {a : After} (h : Kept s t) :
    Kept s (setAfter t a) :=
  Kept.lit h id id id id

theorem respondAfter_kept {s : State} {t : State} {ops : List StoreOp} {r : Response} (h : Kept s t) :
    Kept s (respondAfter t ops r) := by
  unfold respondAfter
  repeat' (first
    | with_reducible assumption | with_reducible apply respond_kept | with_reducible apply issueAll_kept
    | with_reducible apply setAfter_kept | split)

theorem finishService_kept {s : State} {t : State} (h : Kept s t) :
    Kept s (finishService t) := by
  unfold finishService
  repeat' (first
    | with_reducible assumption | exact id | exact fun _ => Nat.zero_le _ | extract_lets
    | with_reducible apply modRange_kept | with_reducible apply setJob_kept | with_reducible apply modDev_kept
    | with_reducible apply issue_kept | with_reducible apply takeUp_kept | with_reducible apply engine_kept
    | with_reducible apply restartPart_kept | with_reducible apply respond_kept | with_reducible apply respondAfter_kept
    | with_reducible apply endPrepared_kept | with_reducible apply configChanged_kept
    | with_reducible apply unlockAll_kept | with_reducible apply commitStored_kept
    | with_reducible apply credChanged_kept | with_reducible apply credSetTo_kept
    | with_reducible apply credCleared_kept | with_reducible apply credDisabled_kept
    | with_reducible apply credEnabled_kept | with_reducible apply credBudgetTo_kept
    | with_reducible apply deleteRange_kept | with_reducible apply startRekey_kept
    | with_reducible apply setTheft_kept | exact credSetTo_tries _ | exact credCleared_tries
    | exact credDisabled_tries | exact credEnabled_tries | exact credBudgetTo_tries _ | exact fun _ b => b | split
    | dsimp +zetaDelta only | with_reducible refine Kept.lit ?_ ?_ ?_ ?_ ?_)

theorem proceed_kept {s : State} {t : State} {dirty : Bool} {ops : List StoreOp} {a : After} (h : Kept s t) :
    Kept s (proceed t dirty ops a) := by
  unfold proceed
  repeat' (first
    | with_reducible assumption | extract_lets | with_reducible apply issueChain_kept
    | with_reducible apply finishService_kept | with_reducible apply setAfter_kept | split)

theorem refuse_kept {s : State} {t : State} {dirty : Bool} {st : RespStatus} (h : Kept s t) :
    Kept s (refuse t dirty st) := by
  unfold refuse
  repeat' (first
    | with_reducible assumption | with_reducible apply respond_kept | with_reducible apply proceed_kept)

theorem carried_kept {s : State} {t : State} {dirty : Bool} {r : Results} (h : Kept s t) :
    Kept s (carried t dirty r) := by
  unfold carried
  repeat' (first
    | with_reducible assumption | with_reducible apply respond_kept | with_reducible apply proceed_kept)

theorem countMismatch_kept {s t : State} {b : RequestBlock} {c : CredIx} (h : Kept s t) : Kept s (countMismatch t b c) := by
  have k : Kept s (raise (modDev (modCred t c (fun x => { x with tries := x.tries - 1 }))
      (fun d => { d with strikes := nextStrikes d.strikes }))
      { kind := .unlockDenied, cred := some c, detail := .code b.code }) :=
    raise_kept (modDev_kept (modCred_kept h (fun b => (Nat.sub_le _ _).trans b)))
  unfold countMismatch
  extract_lets
  split
  · exact raise_kept (modCred_kept k id)
  · exact k

theorem mismatch_kept {s : State} {t : State} {b : RequestBlock} {c : CredIx} (h : Kept s t) :
    Kept s (mismatch t b c) := by
  unfold mismatch
  repeat' (first
    | with_reducible assumption | extract_lets | with_reducible apply modDev_kept | with_reducible apply issue_kept
    | with_reducible apply engine_kept | with_reducible apply theftTrigger_kept
    | with_reducible apply issueTheft_kept | with_reducible apply respond_kept | with_reducible apply setAfter_kept
    | with_reducible apply countMismatch_kept | split)

theorem countMatch_kept {s t : State} {c : CredIx} (h : Kept s t) : Kept s (countMatch t c) :=
  modCred_kept (modDev_kept h) (fun _ => Nat.le_refl _)

theorem withProof_kept {s t : State} {b : RequestBlock} {owner : Bool} {go : State → Option CredIx → Bool → State}
    (h : Kept s t) (hgo : ∀ u c d, Kept s u → Kept s (go u c d)) : Kept s (withProof t b owner go) := by
  unfold withProof
  split
  · exact refuse_kept h
  · exact mismatch_kept h
  · exact hgo _ _ _ (countMatch_kept h)
  · exact hgo _ _ _ h

theorem ownerRequest_kept {s t : State} {b : RequestBlock} {config : Bool} {go : State → Bool → State}
    (h : Kept s t) (hgo : ∀ u d, Kept s u → Kept s (go u d)) : Kept s (ownerRequest t b config go) := by
  refine withProof_kept h (fun u c d k => ?_)
  split
  · exact refuse_kept k
  · split
    · exact refuse_kept k
    · exact hgo _ _ k

end Sys2Proof.Machine
end

