-- ==== Sys2Proof/Laws/KeptCommands.lean ====
section
/-! SUPPORT. What the operations of the request, traffic, store and power commands keep: tries left within the budget, clean
EMPTY slots, and the bounded lists and counters. -/

namespace Sys2Proof.Machine

theorem serveUnlock_kept {s : State} {t : State} {c : CredIx} {dirty : Bool} {l : List Nat} (h : Kept s t) :
    Kept s (serveUnlock t c dirty l) := by
  unfold serveUnlock
  repeat' (first
    | with_reducible assumption | with_reducible apply holdKeys_kept | with_reducible apply proceed_kept
    | with_reducible apply refuse_kept | split)

theorem serveUnlockAbsent_kept {s : State} {t : State} {l : List Nat} (h : Kept s t) :
    Kept s (serveUnlockAbsent t l) := by
  unfold serveUnlockAbsent
  repeat' (first
    | with_reducible assumption | extract_lets | with_reducible apply holdKeys_kept
    | with_reducible apply unlockAll_kept | with_reducible apply refuse_kept | with_reducible apply carried_kept
    | split)

theorem serveLock_kept {s : State} {t : State} {dirty : Bool} {l : List Nat} (h : Kept s t) :
    Kept s (serveLock t dirty l) := by
  unfold serveLock
  repeat' (first
    | with_reducible assumption | extract_lets | with_reducible apply engine_kept
    | with_reducible apply lockProcedure_kept | with_reducible apply refuse_kept | with_reducible apply carried_kept
    | split)

theorem serveCredSet_kept {s : State} {t : State} {c : Option CredIx} {dirty : Bool} {target : Nat} {verifier : Nat} (h : Kept s t) :
    Kept s (serveCredSet t c dirty target verifier) := by
  unfold serveCredSet
  repeat' (first
    | with_reducible assumption | extract_lets | with_reducible apply credSetTo_kept
    | with_reducible apply proceed_kept | with_reducible apply refuse_kept | split)

theorem serveCredClear_kept {s : State} {t : State} {dirty : Bool} {target : Nat} (h : Kept s t) :
    Kept s (serveCredClear t dirty target) := by
  unfold serveCredClear
  repeat' (first
    | with_reducible assumption | extract_lets | with_reducible apply holdKeys_kept
    | with_reducible apply credCleared_kept | with_reducible apply proceed_kept | with_reducible apply refuse_kept
    | split)

theorem serveCredGrant_kept {s : State} {t : State} {dirty : Bool} {target : Nat} {range : Nat} {access : Nat} (h : Kept s t) :
    Kept s (serveCredGrant t dirty target range access) := by
  unfold serveCredGrant
  repeat' (first
    | with_reducible assumption | with_reducible apply proceed_kept | with_reducible apply refuse_kept | split)

theorem serveCredRevoke_kept {s : State} {t : State} {dirty : Bool} {target : Nat} {range : Nat} (h : Kept s t) :
    Kept s (serveCredRevoke t dirty target range) := by
  unfold serveCredRevoke
  repeat' (first
    | with_reducible assumption | extract_lets | with_reducible apply holdKeys_kept
    | with_reducible apply proceed_kept | with_reducible apply refuse_kept | split)

theorem serveCredBudget_kept {s : State} {t : State} {dirty : Bool} {target : Nat} {budget : Nat} (h : Kept s t) :
    Kept s (serveCredBudget t dirty target budget) := by
  unfold serveCredBudget
  repeat' (first
    | with_reducible assumption | with_reducible apply credBudgetTo_kept | with_reducible apply proceed_kept
    | with_reducible apply refuse_kept | split)

theorem serveRangeDefine_kept {s : State} {t : State} {dirty : Bool} {range : Nat} {start : Nat} {len : Nat} {flags : Nat} (h : Kept s t) :
    Kept s (serveRangeDefine t dirty range start len flags) := by
  unfold serveRangeDefine
  repeat' (first
    | with_reducible assumption | extract_lets | with_reducible apply takeKey_kept
    | with_reducible apply placeKey_kept | with_reducible apply proceed_kept | with_reducible apply refuse_kept
    | split)

theorem serveRangeDelete_kept {s : State} {t : State} {dirty : Bool} {range : Nat} (h : Kept s t) :
    Kept s (serveRangeDelete t dirty range) := by
  unfold serveRangeDelete
  repeat' (first
    | with_reducible assumption | extract_lets | with_reducible apply proceed_kept
    | with_reducible apply refuse_kept | split)

theorem serveRangeFlags_kept {s : State} {t : State} {dirty : Bool} {range : Nat} {flags : Nat} (h : Kept s t) :
    Kept s (serveRangeFlags t dirty range flags) := by
  unfold serveRangeFlags
  repeat' (first
    | with_reducible assumption | extract_lets | with_reducible apply holdKeys_kept
    | with_reducible apply proceed_kept | with_reducible apply refuse_kept | split)

theorem takeRekey_kept {s : State} {t : State} {dirty : Bool} {r : RangeIx} {level : Nat} {p : LanePolicy} {chunkSize : Nat} (h : Kept s t) :
    Kept s (takeRekey t dirty r level p chunkSize) := by
  unfold takeRekey
  repeat' (first
    | with_reducible assumption | extract_lets | with_reducible apply setJob_kept
    | with_reducible apply takeKey_kept | with_reducible apply placeKey_kept | with_reducible apply engine_kept
    | with_reducible apply proceed_kept | with_reducible apply refuse_kept | split)

theorem serveRangeRekey_kept {s : State} {t : State} {c : Option CredIx} {dirty : Bool} {range : Nat} {level : Nat} {policy : Nat} {chunkSize : Nat} (h : Kept s t) :
    Kept s (serveRangeRekey t c dirty range level policy chunkSize) := by
  unfold serveRangeRekey
  repeat' (first
    | with_reducible assumption | with_reducible apply refuse_kept | with_reducible apply takeRekey_kept | split)

theorem serveCeiling_kept {s : State} {t : State} {dirty : Bool} {value : Nat} {mode : Nat} (h : Kept s t) :
    Kept s (serveCeiling t dirty value mode) := by
  unfold serveCeiling
  repeat' (first
    | with_reducible assumption | with_reducible apply proceed_kept | with_reducible apply refuse_kept | split)

theorem serveReserveOpen_kept {s : State} {t : State} {c : Option CredIx} {dirty : Bool} (h : Kept s t) :
    Kept s (serveReserveOpen t c dirty) := by
  unfold serveReserveOpen
  repeat' (first
    | with_reducible assumption | exact id | exact fun _ => Nat.zero_le _ | extract_lets
    | with_reducible apply refuse_kept | with_reducible apply proceed_kept | split
    | with_reducible refine Kept.lit ?_ ?_ ?_ ?_ ?_)

theorem servePbw_kept {s : State} {t : State} {dirty : Bool} {len : Nat} {enabled : Nat} {writeOpen : Nat} (h : Kept s t) :
    Kept s (servePbw t dirty len enabled writeOpen) := by
  unfold servePbw
  repeat' (first
    | with_reducible assumption | with_reducible apply proceed_kept | with_reducible apply refuse_kept | split)

theorem recordPrepared_kept {s : State} {t : State} {c : CredIx} {set : List RangeIx} {purge : Option PurgeOpt} (h : Kept s t) :
    Kept s (recordPrepared t c set purge) := by
  unfold recordPrepared
  repeat' (first
    | with_reducible assumption | exact id | exact fun _ => Nat.zero_le _ | extract_lets | split
    | dsimp +zetaDelta only | with_reducible refine Kept.lit ?_ ?_ ?_ ?_ ?_)

theorem servePrepare_kept {s : State} {t : State} {c : Option CredIx} {dirty : Bool} {level : Nat} {pattern : Nat} {set : Option (List Nat)} (h : Kept s t) :
    Kept s (servePrepare t c dirty level pattern set) := by
  unfold servePrepare
  repeat' (first
    | with_reducible assumption | extract_lets | with_reducible apply refuse_kept
    | with_reducible apply carried_kept | with_reducible apply recordPrepared_kept | split)

theorem serveCommit_kept {s : State} {t : State} {prepared : Option Prepared} {c : Option CredIx} {dirty : Bool} {ticket : Nat} (h : Kept s t) :
    Kept s (serveCommit prepared t c dirty ticket) := by
  unfold serveCommit
  repeat' (first
    | with_reducible assumption | with_reducible apply proceed_kept | with_reducible apply refuse_kept | split)

theorem freeFinished_kept {s : State} {t : State} {j : JobNo} (h : Kept s t) :
    Kept s (freeFinished t j) := by
  unfold freeFinished
  repeat' (first
    | with_reducible assumption | with_reducible apply setJob_kept | split)

theorem freeReported_kept {s : State} {t : State} (h : Kept s t) :
    Kept s (freeReported t) := by
  unfold freeReported
  repeat' (first
    | with_reducible assumption | with_reducible refine Kept.foldl (fun _ _ _ => ?_) ?_
    | with_reducible refine Kept.foldlFst (fun _ _ _ => ?_) ?_ | with_reducible apply engine_kept
    | with_reducible apply freeFinished_kept | split)

theorem pauseByRequest_kept {s : State} {t : State} {j : JobNo} {b : Job} (h : Kept s t) :
    Kept s (pauseByRequest t j b) := by
  unfold pauseByRequest
  repeat' (first
    | with_reducible assumption | with_reducible apply setJob_kept | with_reducible apply pauseJob_kept
    | with_reducible apply engine_kept | split)

theorem resumeByRequest_kept {s : State} {t : State} {j : JobNo} {b : Job} (h : Kept s t) :
    Kept s (resumeByRequest t j b) := by
  unfold resumeByRequest
  repeat' (first
    | with_reducible assumption | with_reducible apply setJob_kept | with_reducible apply returnJob_kept
    | with_reducible apply engine_kept | split)

theorem cancelByRequest_kept {s : State} {t : State} {j : JobNo} {b : Job} (h : Kept s t) :
    Kept s (cancelByRequest t j b).1 := by
  unfold cancelByRequest
  repeat' (first
    | with_reducible assumption | extract_lets | with_reducible apply raiseAll_kept
    | with_reducible apply setJob_kept | with_reducible apply finishJob_kept | with_reducible apply engine_kept
    | split)

theorem serveTheft_kept {s : State} {t : State} {dirty : Bool} {limit : Nat} {threshold : Nat} {purge : Nat} {lines : List Nat} {minutes : Nat} {ack : Nat} (h : Kept s t) :
    Kept s (serveTheft t dirty limit threshold purge lines minutes ack) := by
  unfold serveTheft
  repeat' (first
    | with_reducible assumption | extract_lets | with_reducible apply proceed_kept
    | with_reducible apply refuse_kept | split)

theorem servePower_kept {s : State} {t : State} {dirty : Bool} {idle : Nat} {doze : Nat} (h : Kept s t) :
    Kept s (servePower t dirty idle doze) := by
  unfold servePower
  repeat' (first
    | with_reducible assumption | with_reducible apply proceed_kept | with_reducible apply refuse_kept | split)

theorem joinWaiting_kept {s : State} {t : State} {t₁ : FrontTag} (h : Kept s t) :
    Kept s (joinWaiting t t₁) :=
  Kept.lit h id id id id

theorem resetTimers_kept {s : State} {t : State} (h : Kept s t) :
    Kept s (resetTimers t) :=
  Kept.lit h id id id id

theorem passOn_kept {s : State} {t : State} {t₁ : FrontTag} (h : Kept s t) :
    Kept s (passOn t t₁) := by
  unfold passOn
  repeat' (first
    | with_reducible assumption | exact id | exact fun _ => Nat.zero_le _ | with_reducible apply complete_kept
    | with_reducible apply admit_kept | with_reducible apply enterPower_kept | with_reducible apply engine_kept
    | with_reducible apply joinWaiting_kept | split | with_reducible refine Kept.lit ?_ ?_ ?_ ?_ ?_)

theorem orphanSeg_kept {s : State} {t : State} {g : Segment} (h : Kept s t) :
    Kept s (orphanSeg t g) := by
  unfold orphanSeg
  repeat' (first
    | with_reducible assumption | exact id | exact fun _ => Nat.zero_le _ | with_reducible apply setSegs_kept
    | with_reducible apply retire_kept | split | with_reducible refine Kept.lit ?_ ?_ ?_ ?_ ?_)

theorem linkReset_kept {s t : State} (h : Kept s t) : Kept s (linkReset t) := by
  have k := abortAll_kept (keep := none) h
  unfold linkReset
  generalize abortAll t none = u at k ⊢
  extract_lets _ l v w
  have k : Kept s w := Kept.foldl (fun _ _ k => orphanSeg_kept k) (setSegs_kept k)
  clear_value w
  exact Kept.lit k id id id id

theorem actFor_kept {s : State} {t : State} {q : MediaReq} {a : Answer} (h : Kept s t) :
    Kept s (actFor t q a) := by
  unfold actFor
  repeat' (first
    | with_reducible assumption | exact id | exact fun _ => Nat.zero_le _ | extract_lets
    | with_reducible apply modSeg_kept | with_reducible apply complete_kept | with_reducible apply retire_kept
    | with_reducible apply chunkAnswer_kept | with_reducible apply recoveryAnswer_kept
    | with_reducible apply startUpGoesOn_kept | split | dsimp +zetaDelta only
    | with_reducible refine Kept.lit ?_ ?_ ?_ ?_ ?_)

theorem markIssued_kept {s : State} {t : State} {q : MediaReq} (h : Kept s t) :
    Kept s (markIssued t q) := by
  unfold markIssued
  repeat' (first
    | with_reducible assumption | with_reducible apply modSeg_kept | split)

theorem grantPass_kept {s : State} {t : State} {l : LaneIx} (h : Kept s t) :
    Kept s (grantPass t l) := by
  unfold grantPass
  repeat' (first
    | with_reducible assumption | exact id | exact fun _ => Nat.zero_le _ | extract_lets
    | with_reducible apply setLane_kept | split | dsimp +zetaDelta only
    | with_reducible refine Kept.lit ?_ ?_ ?_ ?_ ?_)

theorem grantSeg_kept {s t : State} {l : LaneIx} {n : Nat} {rest : List Nat} (h : Kept s t) :
    Kept s (grantSeg t l n rest) := by
  have k : Kept s (modSeg (setLane t l (.granted (.seg n))) n (fun g => { g with state := .inLane })) :=
    modSeg_kept (setLane_kept h)
  unfold grantSeg
  extract_lets
  refine Kept.lit k id (fun b => ?_) id id
  dsimp only
  split
  · exact Nat.min_le_left _ _
  · exact b

theorem laneClaim_kept {s : State} {t : State} {l : LaneIx} (h : Kept s t) :
    Kept s (laneClaim t l) := by
  unfold laneClaim
  repeat' (first
    | with_reducible assumption | exact id | exact fun _ => Nat.zero_le _ | extract_lets
    | with_reducible apply setLane_kept | with_reducible apply grantPass_kept | with_reducible apply grantSeg_kept
    | split | dsimp +zetaDelta only | with_reducible refine Kept.lit ?_ ?_ ?_ ?_ ?_)

theorem passEnd_kept {s : State} {t : State} {g : Segment} {data : List Block} (h : Kept s t) :
    Kept s (passEnd t g data) := by
  unfold passEnd
  repeat' (first
    | with_reducible assumption | extract_lets | with_reducible apply askTag_kept | with_reducible apply modSeg_kept
    | with_reducible apply retire_kept | split)

theorem issueRest_kept {s : State} {t : State} {w : Write} (h : Kept s t) :
    Kept s (issueRest t w) := by
  unfold issueRest
  repeat' (first
    | with_reducible assumption | with_reducible apply issue_kept)

theorem afterTheft_kept {s : State} {t : State} (h : Kept s t) :
    Kept s (afterTheft t) := by
  unfold afterTheft
  repeat' (first
    | with_reducible assumption | with_reducible apply takeNext_kept | with_reducible apply finishService_kept | split)

theorem storeDone_kept {s : State} {t : State} {d : Done} (h : Kept s t) :
    Kept s (storeDone t d) := by
  unfold storeDone
  repeat' (first
    | with_reducible assumption | extract_lets | with_reducible apply modDev_kept
    | with_reducible apply afterTheft_kept | with_reducible apply engine_kept | with_reducible apply theftStored_kept
    | with_reducible apply drained_kept | with_reducible apply chunkStored_kept | with_reducible apply raise_kept
    | with_reducible apply completingStored_kept | with_reducible apply purgedStored_kept | with_reducible apply finishService_kept | split)

theorem completeWrite_kept {s : State} {t : State} {w : Write} {rest : List Write} (h : Kept s t) :
    Kept s (completeWrite t w rest) := by
  unfold completeWrite
  repeat' (first
    | with_reducible assumption | exact id | exact fun _ => Nat.zero_le _ | extract_lets
    | with_reducible apply startUpGoesOn_kept | with_reducible apply issueRest_kept
    | with_reducible apply storeDone_kept | split | dsimp +zetaDelta only
    | with_reducible refine Kept.lit ?_ ?_ ?_ ?_ ?_)

theorem pauseForDoze_kept {s : State} {t : State} {j : JobNo} (h : Kept s t) :
    Kept s (pauseForDoze t j) := by
  unfold pauseForDoze
  repeat' (first
    | with_reducible assumption | with_reducible apply pauseJob_kept | split)

theorem backToActive_kept {s : State} {t : State} (h : Kept s t) :
    Kept s (backToActive t) := by
  unfold backToActive
  repeat' (first
    | with_reducible assumption | with_reducible apply enterPower_kept | with_reducible apply returnPower_kept
    | with_reducible apply engine_kept)

theorem becomeReady_kept {s : State} {t : State} (h : Kept s t) :
    Kept s (becomeReady t) :=
  Kept.lit (enterPower_kept (lockProcedure_kept h)) id id id id

theorem takeAction_kept {s : State} {t : State} {line : TamperLine} {edge : Edge} {a : Action} (h : Kept s t) :
    Kept s (takeAction t line edge a) := by
  unfold takeAction
  repeat' (first
    | with_reducible assumption | extract_lets | with_reducible apply raise_kept | with_reducible apply engine_kept
    | with_reducible apply lockProcedure_kept | with_reducible apply theftTamper_kept | split)

theorem judgeEdge_kept {s : State} {t : State} {line : TamperLine} {edge : Edge} (h : Kept s t) :
    Kept s (judgeEdge t line edge) := by
  unfold judgeEdge
  repeat' (first
    | with_reducible assumption | extract_lets | with_reducible apply raise_kept
    | with_reducible apply takeAction_kept | split)

theorem acceptEdge_kept {s : State} {t : State} {line : TamperLine} {l : Level} (h : Kept s t) :
    Kept s (acceptEdge t line l) := by
  unfold acceptEdge
  repeat' (first
    | with_reducible assumption | exact id | exact fun _ => Nat.zero_le _ | with_reducible apply judgeEdge_kept
    | split | with_reducible refine Kept.lit ?_ ?_ ?_ ?_ ?_)

theorem tick_kept {s : State} {t : State} (h : Kept s t) :
    Kept s (tick t) := by
  unfold tick
  split
  · exact Kept.lit h id id id id
  · exact h

end Sys2Proof.Machine
end

