-- ==== Sys2Proof/Laws/PerInstr.lean ====
section
/-! SUPPORT. The bounds of a well-formed command, per constructor: a command is well formed exactly when the data, the
parameters and the capacity it carries are within the bounds of R184 and R1. -/

namespace Sys2Proof.Laws

/-- The data blocks that a command carries. -/
def dataOf : Instr → List Block
  | .mediaCompletion _ (.ok data) => data
  | .lanePassEnd _ data => data
  | _ => []

/-- The parameter bytes that a command carries. -/
def paramsOf : Instr → List Byte
  | .frontTransaction d => d.block.params
  | _ => []

/-- The native capacity that a command carries. -/
def capacityOf : Instr → Nat
  | .powerGoodRise p => p.capacity
  | .restart p => p.capacity
  | _ => 0

/-- A command is well formed exactly when what it carries is within its bounds. -/
def WellFormed.Statement (i : Instr) : Prop :=
  i.wf = true ↔ (dataOf i).length ≤ 65536 ∧ (paramsOf i).length ≤ 255 ∧ capacityOf i < 2 ^ 48

/-- A command that carries nothing and is well formed. -/
theorem WellFormed.carriesNothing (i : Instr) (hw : i.wf = true) (hd : dataOf i = []) (hp : paramsOf i = [])
    (hc : capacityOf i = 0) : WellFormed.Statement i := by
  simp [WellFormed.Statement, hw, hd, hp, hc]

theorem WellFormed.frontTransaction (d : Descriptor) : WellFormed.Statement (.frontTransaction d) := by
  simp [WellFormed.Statement, Instr.wf, RequestBlock.wf, dataOf, paramsOf, capacityOf]

theorem WellFormed.linkReset : WellFormed.Statement .linkReset :=
  WellFormed.carriesNothing _ rfl rfl rfl rfl

theorem WellFormed.mediaCompletion (tag : MediaTag) (res : MediaResult) : WellFormed.Statement (.mediaCompletion tag res) := by
  cases res <;> simp [WellFormed.Statement, Instr.wf, MediaResult.wf, wfData, dataOf, paramsOf, capacityOf]

theorem WellFormed.lateCompletion (tag : MediaTag) : WellFormed.Statement (.lateCompletion tag) :=
  WellFormed.carriesNothing _ rfl rfl rfl rfl

theorem WellFormed.mediaTimeout (tag : MediaTag) : WellFormed.Statement (.mediaTimeout tag) :=
  WellFormed.carriesNothing _ rfl rfl rfl rfl

theorem WellFormed.mediaTagGrant (tag : MediaTag) : WellFormed.Statement (.mediaTagGrant tag) :=
  WellFormed.carriesNothing _ rfl rfl rfl rfl

theorem WellFormed.laneGrant (lane : LaneIx) : WellFormed.Statement (.laneGrant lane) :=
  WellFormed.carriesNothing _ rfl rfl rfl rfl

theorem WellFormed.lanePassEnd (lane : LaneIx) (data : List Block) : WellFormed.Statement (.lanePassEnd lane data) := by
  simp [WellFormed.Statement, Instr.wf, wfData, dataOf, paramsOf, capacityOf]

theorem WellFormed.chunkPassEnd : WellFormed.Statement .chunkPassEnd :=
  WellFormed.carriesNothing _ rfl rfl rfl rfl

theorem WellFormed.storeWriteCompletion : WellFormed.Statement .storeWriteCompletion :=
  WellFormed.carriesNothing _ rfl rfl rfl rfl

theorem WellFormed.fenceSet : WellFormed.Statement .fenceSet :=
  WellFormed.carriesNothing _ rfl rfl rfl rfl

theorem WellFormed.drainFinish (range : RangeIx) : WellFormed.Statement (.drainFinish range) :=
  WellFormed.carriesNothing _ rfl rfl rfl rfl

theorem WellFormed.idleRelockExpiry : WellFormed.Statement .idleRelockExpiry :=
  WellFormed.carriesNothing _ rfl rfl rfl rfl

theorem WellFormed.stepToIdle : WellFormed.Statement .stepToIdle :=
  WellFormed.carriesNothing _ rfl rfl rfl rfl

theorem WellFormed.dozeStepDue : WellFormed.Statement .dozeStepDue :=
  WellFormed.carriesNothing _ rfl rfl rfl rfl

theorem WellFormed.stepToDoze : WellFormed.Statement .stepToDoze :=
  WellFormed.carriesNothing _ rfl rfl rfl rfl

theorem WellFormed.wakeFromDozeComplete : WellFormed.Statement .wakeFromDozeComplete :=
  WellFormed.carriesNothing _ rfl rfl rfl rfl

theorem WellFormed.sleepRequestRise : WellFormed.Statement .sleepRequestRise :=
  WellFormed.carriesNothing _ rfl rfl rfl rfl

theorem WellFormed.sleepReady : WellFormed.Statement .sleepReady :=
  WellFormed.carriesNothing _ rfl rfl rfl rfl

theorem WellFormed.sleepRequestFall : WellFormed.Statement .sleepRequestFall :=
  WellFormed.carriesNothing _ rfl rfl rfl rfl

theorem WellFormed.wakeFromSleepComplete : WellFormed.Statement .wakeFromSleepComplete :=
  WellFormed.carriesNothing _ rfl rfl rfl rfl

theorem WellFormed.powerGoodRise (p : StartInputs) : WellFormed.Statement (.powerGoodRise p) := by
  simp [WellFormed.Statement, Instr.wf, StartInputs.wf, dataOf, paramsOf, capacityOf]

theorem WellFormed.powerGoodFall : WellFormed.Statement .powerGoodFall :=
  WellFormed.carriesNothing _ rfl rfl rfl rfl

theorem WellFormed.acceptedEdge (line : TamperLine) : WellFormed.Statement (.acceptedEdge line) :=
  WellFormed.carriesNothing _ rfl rfl rfl rfl

theorem WellFormed.query : WellFormed.Statement .query :=
  WellFormed.carriesNothing _ rfl rfl rfl rfl

theorem WellFormed.restart (p : StartInputs) : WellFormed.Statement (.restart p) := by
  simp [WellFormed.Statement, Instr.wf, StartInputs.wf, dataOf, paramsOf, capacityOf]

theorem WellFormed.freeze : WellFormed.Statement .freeze :=
  WellFormed.carriesNothing _ rfl rfl rfl rfl

theorem WellFormed.journalRead : WellFormed.Statement .journalRead :=
  WellFormed.carriesNothing _ rfl rfl rfl rfl

theorem WellFormed.journalMask : WellFormed.Statement .journalMask :=
  WellFormed.carriesNothing _ rfl rfl rfl rfl

theorem WellFormed.unlock : WellFormed.Statement .unlock :=
  WellFormed.carriesNothing _ rfl rfl rfl rfl

theorem WellFormed.unlockAbsent : WellFormed.Statement .unlockAbsent :=
  WellFormed.carriesNothing _ rfl rfl rfl rfl

theorem WellFormed.lock : WellFormed.Statement .lock :=
  WellFormed.carriesNothing _ rfl rfl rfl rfl

theorem WellFormed.credSet : WellFormed.Statement .credSet :=
  WellFormed.carriesNothing _ rfl rfl rfl rfl

theorem WellFormed.credClear : WellFormed.Statement .credClear :=
  WellFormed.carriesNothing _ rfl rfl rfl rfl

theorem WellFormed.credDisable : WellFormed.Statement .credDisable :=
  WellFormed.carriesNothing _ rfl rfl rfl rfl

theorem WellFormed.credEnable : WellFormed.Statement .credEnable :=
  WellFormed.carriesNothing _ rfl rfl rfl rfl

theorem WellFormed.credGrant : WellFormed.Statement .credGrant :=
  WellFormed.carriesNothing _ rfl rfl rfl rfl

theorem WellFormed.credRevoke : WellFormed.Statement .credRevoke :=
  WellFormed.carriesNothing _ rfl rfl rfl rfl

theorem WellFormed.credBudget : WellFormed.Statement .credBudget :=
  WellFormed.carriesNothing _ rfl rfl rfl rfl

theorem WellFormed.rangeDefine : WellFormed.Statement .rangeDefine :=
  WellFormed.carriesNothing _ rfl rfl rfl rfl

theorem WellFormed.rangeDelete : WellFormed.Statement .rangeDelete :=
  WellFormed.carriesNothing _ rfl rfl rfl rfl

theorem WellFormed.rangeFlags : WellFormed.Statement .rangeFlags :=
  WellFormed.carriesNothing _ rfl rfl rfl rfl

theorem WellFormed.rangeRekey : WellFormed.Statement .rangeRekey :=
  WellFormed.carriesNothing _ rfl rfl rfl rfl

theorem WellFormed.ceilingSet : WellFormed.Statement .ceilingSet :=
  WellFormed.carriesNothing _ rfl rfl rfl rfl

theorem WellFormed.reserveOpen : WellFormed.Statement .reserveOpen :=
  WellFormed.carriesNothing _ rfl rfl rfl rfl

theorem WellFormed.reserveClose : WellFormed.Statement .reserveClose :=
  WellFormed.carriesNothing _ rfl rfl rfl rfl

theorem WellFormed.pbwSet : WellFormed.Statement .pbwSet :=
  WellFormed.carriesNothing _ rfl rfl rfl rfl

theorem WellFormed.wipePrepare : WellFormed.Statement .wipePrepare :=
  WellFormed.carriesNothing _ rfl rfl rfl rfl

theorem WellFormed.wipeCommit : WellFormed.Statement .wipeCommit :=
  WellFormed.carriesNothing _ rfl rfl rfl rfl

theorem WellFormed.sweepStatus : WellFormed.Statement .sweepStatus :=
  WellFormed.carriesNothing _ rfl rfl rfl rfl

theorem WellFormed.sweepPause : WellFormed.Statement .sweepPause :=
  WellFormed.carriesNothing _ rfl rfl rfl rfl

theorem WellFormed.sweepResume : WellFormed.Statement .sweepResume :=
  WellFormed.carriesNothing _ rfl rfl rfl rfl

theorem WellFormed.sweepCancel : WellFormed.Statement .sweepCancel :=
  WellFormed.carriesNothing _ rfl rfl rfl rfl

theorem WellFormed.theftSet : WellFormed.Statement .theftSet :=
  WellFormed.carriesNothing _ rfl rfl rfl rfl

theorem WellFormed.powerSet : WellFormed.Statement .powerSet :=
  WellFormed.carriesNothing _ rfl rfl rfl rfl

theorem WellFormed.unknownRequest : WellFormed.Statement .unknownRequest :=
  WellFormed.carriesNothing _ rfl rfl rfl rfl

theorem WellFormed.tamperSample (line : TamperLine) (level : Level) : WellFormed.Statement (.tamperSample line level) :=
  WellFormed.carriesNothing _ rfl rfl rfl rfl

end Sys2Proof.Laws
end

