-- ==== Sys2Proof/Laws/Requests.lean ====
section
/-! SUPPORT. The words of Safety.lean about requests, tied once to the operations that serve them: a request whose proof
check passes, a refusal, an answer, the store writes a request waits for, and the completion of the last of them. -/

namespace Sys2Proof.Machine

/-! ## Answers and waiting -/

@[simp] theorem respond_setAfter (s : State) (a : After) (r : Response) : respond (setAfter s a) r = respond s r := by
  cases hv : s.control.service with
  | some v => simp [respond, setAfter, hv]
  | none =>
    have e : setAfter s a = s := by
      unfold setAfter
      rw [hv, Option.map_none, ← hv]
    rw [e]

/-- What a request does with `.respond` is to answer. -/
theorem finish_respond (s : State) (r : Response) (h : s.control.service.isSome = true) :
    finishService (setAfter s (.respond r)) = respond s r := by
  obtain ⟨v, hv⟩ := Option.isSome_iff_exists.1 h
  have e : (setAfter s (.respond r)).control.service = some { v with after := .respond r } := by simp [setAfter, hv]
  unfold finishService
  rw [e]
  exact respond_setAfter s _ r

theorem waited_append (l : List StoreOp) (x : StoreOp) :
    waited (l ++ [x]) = l.map (fun op => (op, Done.nothing)) ++ [(x, .control)] := by
  induction l with
  | nil => rfl
  | cons a l ih =>
    cases l with
    | nil => rfl
    | cons b l => simpa [waited] using ih

/-- The writes of a request, chained. -/
theorem issueChain_waited (s : State) (l : List StoreOp) : issueChain s l .control = issue s (waited l) := by
  rcases List.eq_nil_or_concat l with rfl | ⟨l, x, rfl⟩
  · rfl
  · simp [issueChain, waited_append]

/-- A request with a store write to make waits for it. -/
theorem proceed_stored (s : State) (dirty : Bool) (ops : List StoreOp) (a : After) (h : dirty = true ∨ ops ≠ []) :
    proceed s dirty ops a = stored s dirty ops a := by
  have hn : ((if dirty = true then [StoreOp.device { strikes := some 0 }] else []) ++ ops) ≠ [] := by
    rcases h with h | h <;> simp [h]
  unfold proceed stored dueOps
  dsimp only
  rw [if_neg (by simpa using hn), issueChain_waited]
  cases hw : waited ((if dirty = true then [StoreOp.device { strikes := some 0 }] else []) ++ ops) with
  | nil =>
    rcases List.eq_nil_or_concat ((if dirty = true then [StoreOp.device { strikes := some 0 }] else []) ++ ops) with e | ⟨l, x, e⟩
    · exact absurd e hn
    · rw [e, List.concat_eq_append, waited_append] at hw
      simp at hw
  | cons x rest => rfl

/-- The writes that one event issues stand behind those in flight, in their order. -/
theorem issueEach_eq (s : State) (l : List StoreOp) :
    issueEach s l = { s with writes := s.writes ++ l.map (fun op => ⟨op, .nothing, []⟩) } := by
  induction l generalizing s with
  | nil => simp [issueEach]
  | cons a l ih =>
    rw [show issueEach s (a :: l) = issueEach (issue s [(a, .nothing)]) l from rfl, ih]
    simp [issue]

theorem together_append (last : Done) (l : List StoreOp) (x : StoreOp) :
    together last (l ++ [x]) = l.map (fun op => ⟨op, .nothing, []⟩) ++ [⟨x, last, []⟩] := by
  induction l with
  | nil => rfl
  | cons a l ih =>
    cases l with
    | nil => rfl
    | cons b l => simpa [together] using ih

theorem issueAll_eq (s : State) (l : List StoreOp) (last : Done) :
    issueAll s l last = { s with writes := s.writes ++ together last l } := by
  rcases List.eq_nil_or_concat l with rfl | ⟨l, x, rfl⟩
  · simp [issueAll, together]
  · simp [issueAll, together_append, issueEach_eq, issue]

/-- An answer that has writes to wait for waits for the last of them. -/
theorem respondAfter_eq (s : State) (ops : List StoreOp) (r : Response) : respondAfter s ops r = answerWith s ops r := by
  unfold respondAfter answerWith
  cases ops with
  | nil => rfl
  | cons x l => exact issueAll_eq _ _ _

/-- A request with no store write to make goes on at once. -/
theorem proceed_now (s : State) (a : After) : proceed s false [] a = finishService (setAfter s a) := rfl

theorem refuse_eq (s : State) (dirty : Bool) (st : RespStatus) (h : s.control.service.isSome = true) :
    refuse s dirty st = refusedWith s dirty st := by
  unfold refuse refusedWith answerAfter refusal
  cases dirty with
  | true => exact proceed_stored s true [] _ (.inl rfl)
  | false => exact finish_respond s _ h

theorem carried_eq (s : State) (dirty : Bool) (r : Results) (h : s.control.service.isSome = true) :
    carried s dirty r = answerAfter s dirty ⟨.done, r⟩ := by
  unfold carried answerAfter
  cases dirty with
  | true => exact proceed_stored s true [] _ (.inl rfl)
  | false => exact finish_respond s _ h

/-! ## Proof checking -/

/-- A credential is ABSENT only without a match. -/
theorem checkProof_none (s : State) (b : RequestBlock) (owner m : Bool) (h : checkProof s b owner = .passed none m) :
    m = false := by
  unfold checkProof at h
  repeat' split at h
  all_goals first | (cases h; rfl) | cases h

theorem starting_service (s : State) (x : RequestBlock × Request) (h : starting s = some x) :
    ∃ v, s.control.service = some v ∧ v.after = .start ∧ v.block = x.1 ∧ parse x.1 = some x.2 := by
  unfold starting atStart at h
  cases hv : s.control.service with
  | none => simp [hv] at h
  | some v =>
    by_cases hs : v.after = .start
    · cases ht : theftOutstanding s with
      | true => simp [hv, hs, ht] at h
      | false =>
        simp only [hv, hs, ht, decide_true, Bool.not_false, Bool.and_self, if_true, Option.map_eq_some_iff] at h
        obtain ⟨r, hr, rfl⟩ := h
        exact ⟨v, rfl, hs, rfl, hr⟩
    · simp [hv, hs] at h

/-- No request's checks begin while a theft wipe's store writes are outstanding (R174). -/
theorem starting_quiet (s : State) (x : RequestBlock × Request) (h : starting s = some x) : theftOutstanding s = false := by
  unfold starting atStart at h
  cases hv : s.control.service with
  | none => simp [hv] at h
  | some v =>
    cases ht : theftOutstanding s with
    | true => simp [hv, ht] at h
    | false => rfl

theorem passedState_control (s : State) (c : Option CredIx) (m : Bool) : (passedState s c m).control = s.control := by
  cases c <;> cases m <;> rfl

/-- A request that names no credential passes its proof check (R66). -/
theorem serves_absent {s : State} {b : RequestBlock} {r : Request} (owner : Bool) (h : starting s = some (b, r))
    (hc : b.cred = 255) : Serves s b r owner none (endPrepared s) false :=
  ⟨h, false, by simp [checkProof, namedCred, hc], rfl, rfl⟩

/-- While credential 0 is EMPTY, a request of OWNER authority that names it passes its proof check (R65, R66). -/
theorem serves_unowned {s : State} {b : RequestBlock} {r : Request} (h : starting s = some (b, r)) (hc : b.cred = 0)
    (he : s.creds[(0 : CredIx)].state = .empty) : Serves s b r true (some 0) (endPrepared s) false := by
  refine ⟨h, false, ?_, rfl, rfl⟩
  have h2 : toIndex 8 (0 : Byte).toNat = some 0 := rfl
  have he' : (endPrepared s).creds[(0 : CredIx)].state = .empty := he
  have h1 : ((0 : Byte) = 255) = False := by decide
  simp only [checkProof, namedCred, hc, h1, if_false, h2, he']
  rfl

/-- A request whose proof matches the verifier of the SET credential it names passes its proof check (R66, R68). -/
theorem serves_match {s : State} {b : RequestBlock} {r : Request} (owner : Bool) (c : CredIx) (v : Secret)
    (h : starting s = some (b, r)) (hc : b.cred.toNat = c.val) (hs : s.creds[c].state = .set)
    (hv : s.creds[c].verifier = some v) (hm : Config.proofMatches b.proof v = true) :
    Serves s b r owner (some c) (passedState (endPrepared s) (some c) true) (passedDirty s true) := by
  refine ⟨h, true, ?_, rfl, rfl⟩
  have h1 : b.cred ≠ 255 := by
    intro he
    rw [he] at hc
    have := c.2
    simp at hc
    omega
  have h2 : toIndex 8 b.cred.toNat = some c := by simp [hc, toIndex]
  have hs' : (endPrepared s).creds[c].state = .set := hs
  have hv' : (endPrepared s).creds[c].verifier = some v := hv
  simp only [checkProof, namedCred, if_neg h1, h2, hs', hv', hm, if_true]

/-- A request whose proof check passes is in service still. -/
theorem Serves.service {s u : State} {b : RequestBlock} {r : Request} {owner d : Bool} {c : Option CredIx}
    (h : Serves s b r owner c u d) : u.control.service.isSome = true := by
  obtain ⟨v, hv, -⟩ := starting_service s _ h.starts
  obtain ⟨m, -, rfl, -⟩ := h.passes
  rw [passedState_control]
  simp [endPrepared, hv]

/-- A request whose proof check passes goes on from `u` with the credential. -/
theorem Serves.withProof {s u : State} {b : RequestBlock} {r : Request} {owner d : Bool} {c : Option CredIx}
    (h : Serves s b r owner c u d) (go : State → Option CredIx → Bool → State) :
    withProof (endPrepared s) b owner go = go u c d := by
  obtain ⟨m, hm, rfl, rfl⟩ := h.passes
  unfold Machine.withProof
  rw [hm]
  cases m with
  | false => cases c <;> simp [passedState, passedDirty]
  | true =>
    cases c with
    | none => exact absurd (checkProof_none _ _ _ _ hm) (by decide)
    | some c =>
      simp only [passedState, passedDirty, Bool.true_and]
      rfl

/-- A request that needs OWNER, of OWNER, taken when the part is not frozen or the request is taken while frozen. -/
theorem Serves.ownerRequest {s u : State} {b : RequestBlock} {r : Request} {d config : Bool}
    (h : Serves s b r true (some 0) u d) (hf : (config && u.control.frozen) = false) (go : State → Bool → State) :
    ownerRequest (endPrepared s) b config go = go u d := by
  unfold Machine.ownerRequest
  rw [h.withProof]
  simp [hf]

/-! ## The last write -/

theorem startUpGoesOn_none (s : State) (h : s.startUp = none) : startUpGoesOn s = s := by
  simp [startUpGoesOn, advance, h]

@[simp] theorem takeNext_startUp (s : State) : (takeNext s).startUp = s.startUp := by
  unfold takeNext
  repeat' split
  all_goals rfl

@[simp] theorem respond_startUp (s : State) (r : Response) : (respond s r).startUp = s.startUp := by
  unfold respond
  repeat' split
  all_goals simp

theorem raise_startUp (s : State) (e : Event) (h : s.startUp = none) : (raise s e).startUp = none :=
  (raise_spared Spared.refl).started h

theorem settled_startUp (s : State) (range : Option RangeIx) (cred : Option CredIx) (v : Service) (r : Results)
    (h : s.startUp = none) : (settled s range cred v r).startUp = none := by
  unfold settled
  rw [respond_startUp]
  exact raise_startUp s _ h

/-- The completion of the write a request waits for is the request's going on. -/
theorem LastWrite.goesOn {s t : State} {v : Service} {a : After} (h : LastWrite s v a t) :
    exec .storeWriteCompletion s = .next (startUpGoesOn (finishService t)) := by
  obtain ⟨op, rest, hw, rfl⟩ := h.write
  simp only [exec, execStoreWriteCompletion, hw]
  rfl

theorem LastWrite.startUp {s t : State} {v : Service} {a : After} (h : LastWrite s v a t) : t.startUp = none := by
  obtain ⟨op, rest, -, rfl⟩ := h.write
  exact h.started

theorem LastWrite.inService {s t : State} {v : Service} {a : After} (h : LastWrite s v a t) :
    t.control.service = some v ∧ v.after = a := by
  obtain ⟨op, rest, -, rfl⟩ := h.write
  exact ⟨h.service, h.goes⟩

/-- What a request does at the completion of the last write it waits for. -/
theorem LastWrite.finish {s t w : State} {v : Service} {a : After} (h : LastWrite s v a t) (hw : finishService t = w)
    (hn : w.startUp = none) : exec .storeWriteCompletion s = .next w := by
  rw [h.goesOn, hw, startUpGoesOn_none w hn]

end Sys2Proof.Machine
end

