-- ==== Sys2Proof/Laws/Slots.lean ====
section
/-! SUPPORT. Key slots of the request in service: what taking up held slots does when none, or one, is held, and what a load
of one range's key does. -/

namespace Sys2Proof.Machine

/-- A slot that is not held is passed over. -/
theorem takeUpSlot_free (want : RangeIx → Bool) (s : State) (i : SlotIx) (h : s.slots[i].held = false) :
    takeUpSlot want s i = s := by
  unfold takeUpSlot
  simp only [h]
  rfl

theorem takeUpSlot_fold (want : RangeIx → Bool) (l : List SlotIx) (s : State) (h : ∀ i ∈ l, s.slots[i].held = false) :
    l.foldl (takeUpSlot want) s = s := by
  induction l with
  | nil => rfl
  | cons a l ih =>
    rw [List.foldl_cons, takeUpSlot_free _ _ _ (h a (by simp))]
    exact ih (fun i hi => h i (by simp [hi]))

/-- With no slot held, the take-up changes nothing. -/
theorem takeUp_none (s : State) (want : RangeIx → Bool) (h : ∀ i : SlotIx, s.slots[i].held = false) :
    takeUp s want = s := takeUpSlot_fold want _ s (fun i _ => h i)

/-- Taking up a slot leaves the hold of every other slot. -/
theorem takeUpSlot_other (want : RangeIx → Bool) (s : State) (i k : SlotIx) (h : k ≠ i) :
    (takeUpSlot want s i).slots[k] = s.slots[k] := by
  unfold takeUpSlot nameSlot
  dsimp only
  have hv : i.val ≠ k.val := fun e => h (Fin.ext e.symm)
  repeat' split
  all_goals simp [modSlot, modRange, hv]

/-- With one media slot held, the take-up is that slot's. -/
theorem takeUp_one (s : State) (want : RangeIx → Bool) (i : SlotIx) (hi : i ≠ 0)
    (h : ∀ k : SlotIx, k ≠ i → s.slots[k].held = false) : takeUp s want = takeUpSlot want s i := by
  have hm : i ∈ mediaSlots := (mem_mediaSlots i).2 hi
  obtain ⟨pre, post, e⟩ := List.append_of_mem hm
  have hn : mediaSlots.Nodup := by decide
  rw [e] at hn
  unfold takeUp
  rw [e, List.foldl_append, List.foldl_cons]
  rw [takeUpSlot_fold want pre s]
  · apply takeUpSlot_fold
    intro k hk
    have hki : k ≠ i := by
      rintro rfl
      have := (List.nodup_append.1 hn).2.1
      simp at this
      exact this.1 hk
    rw [takeUpSlot_other _ _ _ _ hki]
    exact h k hki
  · intro k hk
    refine h k ?_
    rintro rfl
    have := (List.nodup_append.1 hn).2.2 k hk k (by simp)
    exact this rfl

/-- The slots that a load takes are media slots. -/
theorem emptyMediaSlots_ne_zero (s : State) (i : SlotIx) (h : i ∈ emptyMediaSlots s) : i ≠ 0 :=
  (mem_mediaSlots i).1 (List.mem_of_mem_filter h)

end Sys2Proof.Machine
end

