-- ==== Sys2Proof/Laws/Wipes.lean ====
section
/-! SUPPORT. The dedicated lane when a HOLD job leaves RUNNING, and what the reach of a wipe leaves on a second reach. -/

namespace Sys2Proof.Machine

/-- `undedicate` changes the arbiter alone. -/
theorem undedicate_eq (s : State) : undedicate s = { s with arb := undedicated s.arb } := by
  unfold undedicate undedicated
  cases h : s.arb.dedicated with
  | none => rfl
  | some l =>
    dsimp only
    split <;> rfl

/-- An arbiter that has no dedicated lane stays as it is. -/
theorem undedicated_none {a : Arbiter} (h : a.dedicated = none) : undedicated a = a := by
  unfold undedicated
  rw [h]

theorem undedicated_dedicated (a : Arbiter) : (undedicated a).dedicated = none := by
  unfold undedicated
  cases h : a.dedicated with
  | none => exact h
  | some l => rfl

/-- A second HOLD job that leaves RUNNING finds no dedicated lane. -/
theorem undedicated_twice (a : Arbiter) : undedicated (undedicated a) = undedicated a :=
  undedicated_none (undedicated_dedicated a)

/-- A job that remembers a set remembers it once. -/
theorem remembered_twice (l set : List RangeIx) :
    let m := l ++ set.filter (fun q => !l.contains q)
    m ++ set.filter (fun q => !m.contains q) = m := by
  have h : set.filter (fun q => !(l ++ set.filter (fun q => !l.contains q)).contains q) = [] := by
    refine List.filter_eq_nil_iff.2 (fun q hq hn => ?_)
    by_cases hl : q ∈ l
    · simp [hl] at hn
    · simp [hl, hq] at hn
  show _ ++ set.filter _ = _
  rw [h, List.append_nil]

end Sys2Proof.Machine
end

