-- ==== Sys2Proof/Tests/Slice0.lean ====
section
/-! SUPPORT. The model's own tests: ill-formed commands that the check refuses, formats spelled byte by byte from R184, a few
single steps from the spec's worked examples, and for every statement with hypotheses a concrete state and operands that
meet them, clause by clause. -/

namespace Sys2Proof.Tests

open Sys2Proof Sys2Proof.Machine

/-! ## States -/

/-- A part in ACTIVE on a medium of 1,048,576 blocks: range 0 unguarded and OPEN under slot 1 (the worked examples'). -/
def awake : State :=
  { State.reset with
    powered := true
    regions := ⟨1048576, 1048576, 1015744, false, 1015744, false, false, false⟩
    ranges := State.reset.ranges.set 0 ⟨true, 0, 0, .opened, .steady, some 1, none, 1, factoryFlags true, false⟩
    slots := (State.reset.slots.set 0 ⟨.loaded, some 7, none, none, false, 0⟩).set 1
      ⟨.loaded, some 8, some (0, 1), some .current, false, 1⟩ }

/-- An entry [start, start + len) with a lock state and a condition, under slot 2. -/
def entry (start len : Nat) (lock : LockState) (cond : Condition) : RangeEntry :=
  ⟨true, start, len, lock, cond, if lock = .locked then none else some 2,
    if cond = .migrating then some ⟨start + 8, some 3, none, some 0, 2, .yielding, 8⟩ else none, 1, factoryFlags false, false⟩

/-- `awake` with an entry 1. -/
def withEntry (x : RangeEntry) : State := { awake with ranges := awake.ranges.set 1 x }

/-- A state with a credential. -/
def withCred (s : State) (c : CredIx) (x : Cred) : State := { s with creds := s.creds.set c x }

/-- A state whose range 1 credential 2 guards. -/
def guardedBy2 (s : State) (a : Access) : State := withCred s 2 ⟨.set, some 5, 5, 3, [⟨1, a⟩]⟩

/-- A state in a power state, with an operation in progress. -/
def inPower (s : State) (p : PowerState) (op : PowerOp) : State := { s with power := ⟨p, op, 0, 0, false⟩ }

/-- A request block. -/
def block (code cred : Nat) (params : List Byte) : RequestBlock := ⟨BitVec.ofNat 16 code, BitVec.ofNat 8 cred, 0, params⟩

/-- A descriptor of a tag, a class, a start and a count. -/
def io (tag : FrontTag) (cls : Byte) (start : BitVec 40) (count : BitVec 32) : Descriptor := ⟨tag, cls, start, count, block 0 0 []⟩

/-- A state whose request in service, of tag 0, has not begun its checks. -/
def asked (s : State) (b : RequestBlock) : State :=
  { s with
    front := { s.front with tags := s.front.tags.set 0 (some ⟨.control, 0, 0, b, .control⟩) }
    control := { s.control with service := some ⟨some 0, b, .start⟩ } }

/-- A state whose request in service waits for the one store write in flight. -/
def ending (s : State) (op : StoreOp) (a : After) : State :=
  { s with writes := [⟨op, .control, []⟩], control := { s.control with service := some ⟨some 0, block 1 0 [], a⟩ } }

/-- A re-key job of range 1 at level 2, in a state. -/
def rekeyJob (st : JobState) : Job :=
  { kind := .rekey, level := 2, policy := .yielding, ranges := [1], pos := 0, lba := 16, chunkSize := 8, pattern := none
    state := st, pause := none, pending := .noAction, stamp := 0, stall := none, wipeSet := [], recreated := false }

/-- A state with a job in entry 0. -/
def withJob (s : State) (b : Job) : State := { s with sweep := { s.sweep with jobs := s.sweep.jobs.set 0 (.job b) } }

/-- The chunk of the re-key job, or of a purge, over 8 blocks from 16. -/
def chunk (k : JobKind) (p : ChunkPhase) : Chunk :=
  { job := 0, kind := k, range := 1, start := 16, len := 8, runs := [⟨16, 8⟩], phase := p, outstanding := 1, blocks := []
    fresh := [], fail := none, failedTwice := false, homeOk := [], newDamage := [], curSlot := none, nextSlot := none }

/-- A state with a chunk in motion. -/
def withChunk (s : State) (c : Chunk) : State := { s with sweep := { s.sweep with chunk := some c } }

/-- A segment of tag 3 in range 0, of a class and in a state. -/
def segment (cls : FrontClass) (st : SegState) : Segment := ⟨0, some 3, cls, 0, 8, .range 0, none, some 1, 0, st, .ok, []⟩

/-- `awake` with tag 3 admitted and its one segment. -/
def withSegment (cls : FrontClass) (st : SegState) : State :=
  { awake with front := { awake.front with
      tags := awake.front.tags.set 3 (some ⟨cls, 0, 8, block 0 0 [], .admitted⟩)
      segs := [segment cls st], nextSeg := 1 } }

/-- A state with media tag 0 in a state. -/
def withTag (s : State) (x : TagState) : State := { s with media := { s.media with tags := s.media.tags.set 0 x } }

/-- A media request. -/
def request (op : MediaOp) (who : Requester) : MediaReq := ⟨op, 0, 8, [], who⟩

/-! ## Well-formedness -/

theorem test_wf_accepts_parameters_of_255_bytes :
    (Instr.frontTransaction ⟨0, 4, 0, 0, block 1 0 (List.replicate 255 0)⟩).wf = true := by decide +kernel

theorem test_wf_refuses_parameters_of_256_bytes :
    (Instr.frontTransaction ⟨0, 4, 0, 0, block 1 0 (List.replicate 256 0)⟩).wf = false := by decide +kernel

theorem test_wf_refuses_read_data_of_65537_blocks :
    (Instr.mediaCompletion 0 (.ok (List.replicate 65537 0))).wf = false := by
  show decide ((List.replicate 65537 (0 : Block)).length ≤ 65536) = false
  rw [List.length_replicate]
  rfl

theorem test_wf_refuses_pass_data_of_65537_blocks : (Instr.lanePassEnd 0 (List.replicate 65537 0)).wf = false := by
  show decide ((List.replicate 65537 (0 : Block)).length ≤ 65536) = false
  rw [List.length_replicate]
  rfl

theorem test_wf_refuses_a_capacity_of_7_bytes :
    (Instr.powerGoodRise ⟨2 ^ 48, .released, .released, .released⟩).wf = false ∧
    (Instr.restart ⟨2 ^ 48, .released, .released, .released⟩).wf = false ∧
    (Instr.powerGoodRise ⟨2 ^ 48 - 1, .released, .released, .released⟩).wf = true := by decide +kernel

theorem test_no_word_spells_a_command (s : State) (n w : Nat) :
    decodeTableWord n w = none ∧ s.withFetchWord n w = s := ⟨rfl, rfl⟩

/-! ## Formats -/

theorem test_descriptor_bytes : descriptorBytes (io 7 1 0x0102030405 0x0A0B0C0D) =
    [7, 1, 5, 4, 3, 2, 1, 0, 0x0D, 0x0C, 0x0B, 0x0A, 0, 0, 0, 0] := by decide +kernel

theorem test_block_header_bytes : (blockBytes ⟨0x0030, 255, 0x0201, [9, 8]⟩).take 7 = [0x30, 0, 255, 2, 1, 2, 0] ∧
    (blockBytes ⟨0x0030, 255, 0x0201, [9, 8]⟩).drop 36 = [9, 8] := by decide +kernel

theorem test_completion_bytes : completionBytes ⟨12, .retry, true, [], none⟩ = [12, 7, 1, 0] := by decide +kernel

theorem test_entry_bytes :
    entryBytes ⟨0x0102, { kind := .damageRecorded, range := some 5, job := some 3, detail := .lba 0x0304050607 }⟩ true =
      [2, 1, 16, 11, 5, 0, 3, 0, 7, 6, 5, 4, 3, 0, 0, 0] := by decide +kernel

theorem test_response_bytes : responseBytes ⟨.done, .lockStates [.locked, .opened]⟩ = [0, 0, 3, 0, 2, 0, 2] := by decide +kernel

theorem test_requests_are_read :
    parse (block 48 0 [6, 0, 0, 15, 0, 0, 0xC0, 0x7F, 0, 0, 0, 8]) = some (.rangeDefine 6 983040 32704 8) ∧
    parse (block 81 0 [0x34, 0x12]) = some (.wipeCommit 0x1234) ∧
    parse (block 80 0 [0, 9, 255]) = some (.wipePrepare 0 9 none) ∧
    parse (block 16 255 [2, 3]) = none ∧ parse (block 6 0 []) = none := by decide +kernel

/-! ## Single steps -/

/-- The entries of the worked example of chapter 2. -/
def nested : State :=
  { awake with
    ranges := (((((awake.ranges.set 2 (entry 100000 200000 .opened .steady)).set 4 (entry 290000 20000 .opened .steady)).set 5
      (entry 150000 20000 .opened .steady)).set 7 (entry 150000 10000 .locked .steady)).set 9
      (entry 150000 10000 .opened .steady)) }

theorem test_nested_ranges_resolve_as_in_chapter_2 :
    [0, 99999, 100000, 149999, 150000, 159999, 160000, 169999, 170000, 289999, 290000, 309999, 310000].map (resolve nested) =
      [0, 0, 2, 2, 7, 7, 5, 5, 2, 2, 4, 4, 0] := by decide +kernel

theorem test_a_read_across_nested_ranges_is_cut_in_three :
    (pieces nested .read 145000 165000).map (fun p => (p.start, p.len)) = [(145000, 5000), (150000, 10000), (160000, 5000)] := by
  decide +kernel

/-- Range 3 of the worked example of chapter 1. -/
def watermark : State :=
  { awake with
    ranges := awake.ranges.set 3 { entry 20480 8192 .opened .migrating with
      mig := some ⟨24576, some 9, some ⟨24576, 64⟩, some 0, 2, .yielding, 64⟩ } }

theorem test_a_write_across_a_watermark_is_cut_there :
    (pieces watermark .write 24000 25024).map (fun p => (p.start, p.len, p.side)) =
      [(24000, 576, some .below), (24576, 448, some .above)] ∧
    (pieces watermark .write 24000 25024).map (decidePiece watermark .write) = [.bound (some 9), .hold] := by decide +kernel

theorem test_slot_zero_serves_the_preboot_span :
    let s := { awake with
      dev := { awake.dev with pbwEnabled := true, pbwLen := 64 }
      ranges := awake.ranges.set 0 ⟨true, 0, 0, .locked, .steady, none, none, 1, factoryFlags true, false⟩ }
    (pieces s .read 0 72).map (fun p => (p.len, decidePiece s .read p, mediaAddr s p)) =
      [(64, .bound (some 0), 1015744), (8, .refused .locked, 64)] := by decide +kernel

theorem test_power_good_rise_creates_the_system_key_first :
    ∃ t, exec (.powerGoodRise ⟨1048576, .released, .released, .released⟩) State.reset = .next t ∧
      t.writes.length = 1 ∧ t.startUp.isSome = true := ⟨_, rfl, rfl, rfl⟩

theorem test_an_unissued_completion_stops :
    exec (.mediaCompletion 0 .error) awake = .fault .completionWithoutRequest := rfl

theorem test_an_empty_queue_counts_a_microsecond :
    ∃ t, step awake = .next t ∧ t.power.stepTimer = 1 ∧ t.theft.elapsed = 1 := ⟨_, rfl, rfl, rfl⟩

theorem test_three_samples_make_an_edge :
    ∃ t, exec (.tamperSample .bayLine .asserted)
        { awake with theft := { awake.theft with sampling := true, bayLine := ⟨.released, 2, 1000, 1000⟩ } } = .next t ∧
      t.theft.bayLine.level = .asserted ∧ t.journal.ring = [] := ⟨_, rfl, rfl, rfl⟩

theorem test_a_fourth_waiting_request_is_the_last :
    ∃ t, exec (.frontTransaction ⟨9, 4, 0, 0, block 1 255 []⟩)
        { asked awake (block 3 255 []) with
          control := { (asked awake (block 3 255 [])).control with
            queue := List.replicate 4 (1, block 1 255 []) } } = .next t ∧
      t.front.sent.map (fun c => (c.tag, c.status)) = [(9, .retry)] := ⟨_, rfl, rfl⟩

/-! ## Hypotheses of the statements: arrival, admission, segments -/

theorem asked_service (s : State) (b : RequestBlock) : (asked s b).control.service = some ⟨some 0, b, .start⟩ := rfl

theorem starts_asked (s : State) (b : RequestBlock) (r : Request) (ht : theftOutstanding s = false) (h : parse b = some r) :
    starting (asked s b) = some (b, r) := by
  have e : theftOutstanding (asked s b) = false := ht
  simp [starting, atStart, e, asked_service, h]

/-- A request that names no credential is served. -/
theorem absent_asked (s : State) (owner : Bool) (b : RequestBlock) (r : Request) (ht : theftOutstanding s = false)
    (h : parse b = some r) (hc : b.cred = 255) :
    Serves (asked s b) b r owner none (endPrepared (asked s b)) false := serves_absent owner (starts_asked s b r ht h) hc

/-- A request of OWNER authority that names credential 0 while it is EMPTY is served. -/
theorem owner_asked (s : State) (b : RequestBlock) (r : Request) (ht : theftOutstanding s = false) (h : parse b = some r)
    (hc : b.cred = 0) (he : s.creds[(0 : CredIx)].state = .empty) :
    Serves (asked s b) b r true (some 0) (endPrepared (asked s b)) false :=
  serves_unowned (starts_asked s b r ht h) hc he

/-- A request whose proof matches is served, the device record write being due exactly while strikes are counted. -/
theorem matched_asked (s : State) (owner : Bool) (b : RequestBlock) (r : Request) (c : CredIx) (v : Secret)
    (ht : theftOutstanding s = false) (h : parse b = some r) (hc : b.cred.toNat = c.val) (hs : s.creds[c].state = .set) (hv : s.creds[c].verifier = some v)
    (hm : Config.proofMatches b.proof v = true) :
    Serves (asked s b) b r owner (some c) (passedState (endPrepared (asked s b)) (some c) true)
      (decide (s.dev.strikes ≠ 0)) := serves_match owner c v (starts_asked s b r ht h) hc hs hv hm

/-- The last store write of the request in service. -/
theorem last_ending (s : State) (op : StoreOp) (a : After) (h : s.startUp = none) :
    LastWrite (ending s op a) ⟨some 0, block 1 0 [], a⟩ a
      { ending s op a with store := applyOp (ending s op a) op, writes := [] } :=
  ⟨h, rfl, rfl, op, [], rfl, rfl⟩

/-- A descriptor that arrives in ACTIVE. -/
theorem arrives (s : State) (d : Descriptor) (c : FrontClass)
    (h : s.powered = true ∧ s.sleepLine = false ∧ s.startUp = none ∧ s.power.op = .noOp ∧ s.power.state = .active ∧
      s.front.tags[d.tag].isSome = false ∧ d.cls.toNat ≤ 4 ∧ (2 < d.cls.toNat ∨
        (1 ≤ d.count.toNat ∧ d.count.toNat ≤ 65536 ∧ d.start.toNat + d.count.toNat ≤ 2 ^ 40)) ∧ classOf d.cls = some c) :
    ArrivesActive s d c := by
  obtain ⟨h1, h2, h3, h4, h5, h6, h7, h8, h9⟩ := h
  refine ⟨h1, h2, h3, h4, h5, ?_, h9⟩
  rintro (h | h | ⟨h, k⟩)
  · exact Bool.noConfusion (h6.symm.trans h)
  · omega
  · omega

theorem test_hyp_idle_step :
    (State.reset.pending = [] ∧ State.reset.powered = false) ∧ (awake.pending = [] ∧ awake.powered = true) ∧
    (awake.startUp = none ∧ awake.power.op = .noOp ∧ awake.power.state = .active) ∧
    ((inPower awake .idle .noOp).power.op = .noOp ∧ (inPower awake .idle .noOp).power.state = .idle) ∧
    (inPower awake .doze .wakeDoze).power.op = .wakeDoze ∧ (inPower awake .sleep .wakeSleep).power.op = .wakeSleep ∧
    ({ awake with startUp := some ⟨.powerOn, ⟨0, .released, .released, .released⟩, .load, none, []⟩ } : State).startUp.isSome =
      true := by decide +kernel

theorem test_hyp_invariants : TriesBounded awake ∧ SlotsClean awake ∧ Bounded awake ∧ ∃ t, step awake = .next t := by
  refine ⟨?_, ?_, ⟨?_, ?_, ?_, ?_⟩, _, rfl⟩
  · unfold TriesBounded
    decide +kernel
  · unfold SlotsClean
    decide +kernel
  all_goals decide +kernel

/-- A RUNNING re-key job in entry 0, alone on the stack. -/
def running : State :=
  let s := withJob (withEntry (entry 8 64 .opened .migrating)) (rekeyJob .running)
  { s with sweep := { s.sweep with stack := [0] } }

theorem jobAt_running (j : JobNo) (b : Job) (h : jobAt running j = some b) : j = 0 ∧ b = rekeyJob .running := by
  have h1 : ∀ i : JobNo, i ≠ 0 → jobAt running i = none := by decide +kernel
  have h0 : jobAt running 0 = some (rekeyJob .running) := by decide +kernel
  by_cases e : j = 0
  · subst e
    exact ⟨rfl, Option.some.inj (h.symm.trans h0)⟩
  · cases (h1 j e).symm.trans h

theorem test_hyp_stack : StackOrdered running ∧ jobAt running 0 = some (rekeyJob .running) ∧ (rekeyJob .running).level ≤ 3 ∧
    ∃ t, step running = .next t := by
  refine ⟨⟨by decide +kernel, List.pairwise_singleton _ _, ?_, ?_, ?_, ?_⟩, by decide +kernel, by decide, _, rfl⟩
  · intro j b h _
    exact congrArg some (jobAt_running j b h).1.symm
  · intro j b h hp
    rw [(jobAt_running j b h).2] at hp
    exact JobState.noConfusion hp
  · intro j h
    obtain rfl := List.mem_singleton.1 h
    exact ⟨rekeyJob .running, by decide +kernel, .inl rfl⟩
  · intro v r j l p k h
    cases h

theorem test_hyp_reached : Reached State.reset ∧
    ∃ t, step { State.reset with pending := [.powerGoodRise ⟨1048576, .released, .released, .released⟩] } = .next t ∧
      Reached t :=
  ⟨.reset, _, rfl, .step [.powerGoodRise ⟨1048576, .released, .released, .released⟩] .reset rfl⟩

theorem test_hyp_malformed :
    Malformed awake (io 0 5 0 1) ∧ Malformed awake (io 0 0 0 0) ∧ Malformed awake (io 0 1 0 65537) ∧
    Malformed awake (io 0 2 0xFFFFFFFFFF 2) ∧ Malformed (withSegment .read .onMedia) (io 3 3 0 0) ∧
    ¬ Malformed awake (io 0 0 0 1) ∧ ¬ Malformed awake (io 0 1 0 65536) ∧ ¬ Malformed awake (io 0 2 0xFFFFFFFFFE 2) ∧
    ¬ Malformed awake (io 0 4 0 0) := by
  unfold Malformed
  decide +kernel

theorem test_hyp_arrival_clauses :
    awake.powered = true ∧ classOf (io 0 0 0 1).cls = some .read ∧ awake.sleepLine = false ∧
    ({ awake with sleepLine := true } : State).sleepLine = true ∧
    (inPower awake .doze .noOp).power.state = .doze ∧ (inPower awake .idle .noOp).power.state = .idle ∧
    (inPower awake .doze .wakeDoze).power.op = .wakeDoze := by decide +kernel

theorem test_hyp_refused_beyond_the_user_space :
    ArrivesActive awake (io 3 0 1015744 1) .read ∧ ¬ SpanPasses awake (io 3 0 1015744 1) ∧
    SpanPasses awake (io 3 0 1015743 1) := by
  refine ⟨arrives _ _ _ (by decide +kernel), ?_⟩
  unfold SpanPasses
  decide +kernel

theorem test_hyp_refused_beyond_the_ceiling :
    let s := { awake with regions := { awake.regions with c := 983040 } }
    let o := { awake with regions := { awake.regions with c := 983040, reserveView := true } }
    ¬ SpanPasses s (io 3 0 983039 2) ∧ SpanPasses s (io 3 0 983039 1) ∧ SpanPasses o (io 3 0 983039 2) := by
  unfold SpanPasses
  decide +kernel

theorem test_hyp_refused_segment :
    ArrivesActive nested (io 3 0 145000 20000) .read ∧ SpanPasses nested (io 3 0 145000 20000) ∧
    piecesOf nested (io 3 0 145000 20000) .read =
      [⟨145000, 5000, .range 2, none⟩] ++ ⟨150000, 10000, .range 7, none⟩ :: [⟨160000, 5000, .range 5, none⟩] ∧
    decidePiece nested .read ⟨150000, 10000, .range 7, none⟩ = .refused .locked ∧
    decidePiece nested .read ⟨145000, 5000, .range 2, none⟩ = .bound (some 2) := by
  refine ⟨arrives _ _ _ (by decide +kernel), ?_, by decide +kernel⟩
  unfold SpanPasses
  decide +kernel

theorem test_hyp_held :
    ArrivesActive watermark (io 7 1 24000 1024) .write ∧ SpanPasses watermark (io 7 1 24000 1024) ∧
    (piecesOf watermark (io 7 1 24000 1024) .write).map (decidePiece watermark .write) = [.bound (some 9), .hold] ∧
    watermark.front.held.length < 8 ∧
    8 ≤ ({ watermark with front := { watermark.front with held := List.replicate 8 0 } } : State).front.held.length := by
  refine ⟨arrives _ _ _ (by decide +kernel), ?_, by decide +kernel⟩
  unfold SpanPasses
  decide +kernel

theorem test_hyp_bound :
    ArrivesActive awake (io 3 0 0 8) .read ∧ ArrivesActive awake (io 3 1 0 8) .write ∧ ArrivesActive awake (io 3 2 0 8) .trim ∧
    SpanPasses awake (io 3 0 0 8) ∧
    (piecesOf awake (io 3 0 0 8) .read).map (decidePiece awake .read) = [.bound (some 1)] ∧
    (piecesOf awake (io 3 1 0 8) .write).map (decidePiece awake .write) = [.bound (some 1)] := by
  refine ⟨arrives _ _ _ (by decide +kernel), arrives _ _ _ (by decide +kernel), arrives _ _ _ (by decide +kernel), ?_,
    by decide +kernel⟩
  unfold SpanPasses
  decide +kernel

/-- Range 1 is LOCKED with read style BLANK. -/
def blanked : State := withEntry { entry 8 64 .locked .steady with flags := ⟨.blank, false, false, false, false⟩ }

theorem test_hyp_blank :
    ArrivesActive blanked (io 3 0 8 64) .read ∧ SpanPasses blanked (io 3 0 8 64) ∧ blanked.front.segs = [] ∧
    (piecesOf blanked (io 3 0 8 64) .read).map (decidePiece blanked .read) = [.blank] := by
  refine ⟨arrives _ _ _ (by decide +kernel), ?_, by decide +kernel⟩
  unfold SpanPasses
  decide +kernel

/-- `awake` with an idle unit and a theft wipe's last write outstanding. -/
def theftWaits : State := { awake with writes := [⟨.device {}, .theftClear, []⟩] }

theorem test_hyp_flush_and_control :
    ArrivesActive (withSegment .write .onMedia) (io 4 3 0 0) .flush ∧ ArrivesActive awake (io 4 4 0 0) .control ∧
    awake.control.service = none ∧ awake.control.queue = [] ∧ theftOutstanding awake = false ∧
    (asked awake (block 1 255 [])).control.service.isSome = true ∧
    (asked awake (block 1 255 [])).control.queue.length < 4 ∧
    ArrivesActive (asked awake (block 1 255 [])) (io 4 4 0 0) .control ∧
    ArrivesActive theftWaits (io 4 4 0 0) .control ∧ theftWaits.control.service = none ∧ theftOutstanding theftWaits = true ∧
    theftWaits.control.queue.length < 4 ∧ 4 ≤ (List.replicate 4 ((5 : FrontTag), block 1 255 [])).length := by
  refine ⟨arrives _ _ _ (by decide +kernel), arrives _ _ _ (by decide +kernel), ?_, ?_, ?_, ?_, ?_,
    arrives _ _ _ (by decide +kernel), arrives _ _ _ (by decide +kernel), ?_, ?_, ?_, ?_⟩
  all_goals decide +kernel

theorem test_hyp_segment_table :
    let p : Piece := ⟨8, 8, .range 1, none⟩
    let at' := fun (l : LockState) (c : Condition) => withEntry (entry 8 64 l c)
    let bad := { at' .opened .steady with damaged := [⟨1, 15⟩] }
    hasSpan .trim = true ∧ decidePiece bad .read p = .damaged ∧ decidePiece bad .write p = .bound (some 2) ∧
    decidePiece { at' .opened .steady with damaged := [⟨1, 16⟩] } .read p = .bound (some 2) ∧
    decidePiece (at' .opened .draining) .read p = .refused .rangeBusy ∧
    decidePiece (at' .locked .purging) .read p = .refused .rangeBusy ∧
    decidePiece (at' .locked .steady) .read p = .refused .locked ∧ decidePiece blanked .read p = .blank ∧
    decidePiece blanked .trim p = .refused .locked ∧
    decidePiece (at' .readOnly .steady) .write p = .refused .locked ∧
    decidePiece (at' .readOnly .steady) .read p = .bound (some 2) ∧
    decidePiece (at' .opened .migrating) .read ⟨8, 8, .range 1, some .below⟩ = .bound (some 3) ∧
    decidePiece (at' .opened .migrating) .read ⟨16, 8, .range 1, some .above⟩ = .bound (some 2) := by decide +kernel

theorem test_hyp_preboot :
    let s := { awake with dev := { awake.dev with pbwEnabled := true, pbwLen := 64 } }
    let w := { s with regions := { s.regions with writeOpen := true } }
    let p : Piece := ⟨0, 64, .preboot, none⟩
    windowOpen s = false ∧ w.regions.writeOpen = true ∧ w.dev.pbwLen = 64 ∧ pieces w .write 0 64 = [p] ∧
    pieces w .trim 56 72 = [⟨56, 8, .preboot, none⟩, ⟨64, 8, .range 0, none⟩] ∧ decidePiece w .write p = .bound (some 0) ∧
    decidePiece w .trim p = .refused .locked ∧ decidePiece s .write p = .refused .locked ∧
    decidePiece s .read p = .bound (some 0) ∧ pieces w .read 0 64 = [⟨0, 64, .range 0, none⟩] := by decide +kernel

theorem test_hyp_window_open :
    let s := fun (l : LockState) (len : Nat) => { awake with
      dev := { awake.dev with pbwEnabled := true, pbwLen := len }
      ranges := awake.ranges.set 0 { awake.ranges[0] with lock := l } }
    windowOpen (s .locked 8) = true ∧ windowOpen (s .readOnly 8) = true ∧ windowOpen (s .opened 8) = false ∧
    windowOpen (s .locked 0) = false := by decide +kernel

theorem test_hyp_resolution :
    (∃ r : RangeIx, r ≠ 0 ∧ containsLba nested r 150000 = true) ∧
    (∀ r : RangeIx, r ≠ 0 → containsLba nested r 99999 = false) ∧ containsLba nested 9 159999 = true ∧
    containsLba nested 9 160000 = false := by
  refine ⟨⟨7, ?_⟩, ?_⟩
  all_goals decide +kernel

/-! ## Hypotheses of the statements: media, lanes, segments, store -/

theorem test_hyp_media_completion :
    let s := withTag (withSegment .read .onMedia) (.busy (request .read (.seg 0)) 5)
    let k := withTag (withChunk awake (chunk .rekey .reading)) (.busy (request .read (.sweep (.read ⟨16, 8⟩))) 0)
    s.media.tags[(0 : MediaTag)] = .busy (request .read (.seg 0)) 5 ∧ segOf s 0 = some (segment .read .onMedia) ∧
    (segment .read .onMedia).owner.isSome = true ∧ (segment .write .onMedia).cls ≠ .read ∧
    k.sweep.chunk = some (chunk .rekey .reading) ∧
    (withTag awake .quarantined).media.tags[(0 : MediaTag)] = .quarantined ∧ awake.media.tags[(47 : MediaTag)] = .free ∧
    (withTag awake (.busy (request .flush (.flush 3)) 0)).media.tags[(0 : MediaTag)] =
      .busy (request .flush (.flush 3)) 0 := by decide +kernel

theorem test_hyp_last_segment :
    let s := withTag (withSegment .write .onMedia) (.busy (request .write (.seg 0)) 5)
    s.media.tags[(0 : MediaTag)] = .busy (request .write (.seg 0)) 5 ∧ segOf s 0 = some (segment .write .onMedia) ∧
    segsOf s 3 = [segment .write .onMedia] ∧
    s.front.tags[(3 : FrontTag)] = some ⟨.write, 0, 8, block 0 0 [], .admitted⟩ := by decide +kernel

theorem test_hyp_retire :
    let a := segment .write .onMedia
    let b := { segment .write .laneWait with id := 1, start := 8, addr := 8 }
    let s := withSegment .write .onMedia
    let two := { s with front := { s.front with
      segs := [a, b], nextSeg := 2, tags := s.front.tags.set 5 (some ⟨.flush, 0, 0, block 0 0 [], .flushWait [0]⟩) } }
    segOf two 0 = some a ∧ a.owner = some 3 ∧
    two.front.tags[(3 : FrontTag)] = some ⟨.write, 0, 8, block 0 0 [], .admitted⟩ ∧ segsOf two 3 = [a, b] ∧
    b.state ≠ .retired ∧ two.front.tags[(5 : FrontTag)] = some ⟨.flush, 0, 0, block 0 0 [], .flushWait [0]⟩ := by
  decide +kernel

theorem test_hyp_link_reset :
    let s := withSegment .write .laneWait
    State.reset.powered = false ∧ s.powered = true ∧ (s.front.segs.map (·.id)).Nodup ∧
    (segment .write .laneWait).owner.isSome = true := by decide +kernel

theorem test_hyp_timeout :
    let s := fun (age : Nat) => withTag (withSegment .read .onMedia) (.busy (request .read (.seg 0)) age)
    (∃ q, (s 1999999).media.tags[(0 : MediaTag)] = .busy q 1999999) ∧
    (∃ q, (s 2000000).media.tags[(0 : MediaTag)] = .busy q 2000000) ∧ awake.startUp = none ∧
    segOf (s 2000000) 0 = some (segment .read .onMedia) ∧
    (withTag (withChunk awake (chunk .rekey .reading)) (.busy (request .read (.sweep (.read ⟨16, 8⟩))) 2000000)).sweep.chunk =
      some (chunk .rekey .reading) := ⟨⟨_, rfl⟩, ⟨_, rfl⟩, rfl, rfl, rfl⟩

theorem test_hyp_media_tag_grant :
    let q := request .read (.sweep (.read ⟨16, 8⟩))
    let busy := { awake.media with tags := (List.finRange 48).foldl (fun v (i : MediaTag) =>
      if i.val < 8 then v.set i (.busy q 0) else v) awake.media.tags }
    let s := { awake with media := { busy with waiting := [q, request .trim (.seg 0)] } }
    s.media.tags[(8 : MediaTag)] = .free ∧ s.media.waiting = [q] ++ request .trim (.seg 0) :: [] ∧ isSweep q = true ∧
    sweepBusy s = 8 ∧ isSweep (request .trim (.seg 0)) = false ∧ sweepBusy awake = 0 := by decide +kernel

theorem test_hyp_lane_grant :
    let free := fun (s : State) => s.arb.lanes[(0 : LaneIx)] = .free
    let hold := withJob (withEntry (entry 8 64 .opened .migrating)) { rekeyJob .running with policy := .holding }
    let pass := { withChunk awake (chunk .rekey .pass) with arb := { awake.arb with waitingPass := true, guard := 64 } }
    let full := { pass with arb := { pass.arb with lanes := (pass.arb.lanes.set 1 (.granted .pass)).set 2 (.granted .pass) } }
    free awake ∧ free hold ∧ free pass ∧ free full ∧ holdRunning hold = true ∧ hold.arb.dedicated = none ∧
    passAsked hold = false ∧ passAsked pass = true ∧ passLanes pass = 0 ∧ holdRunning pass = false ∧
    sweepLanes pass < sweepCap pass ∧ ¬ sweepLanes full < sweepCap full ∧ passLanes full = 2 ∧
    sweepLanes full < sweepCap (inPower full .idle .noOp) ∧ pass.arb.wait = [] ∧
    ({ full with arb := { full.arb with wait := [4] } } : State).arb.wait = 4 :: [] ∧
    (inPower awake .doze .noOp).power.state = .doze ∧ awake.arb.waitingPass = false ∧ passLanes awake = 0 := by decide +kernel

theorem test_hyp_lane_pass_end :
    let s := fun (g : Segment) => { withSegment .write .inLane with
      front := { (withSegment .write .inLane).front with segs := [g] }
      arb := { awake.arb with lanes := awake.arb.lanes.set 3 (.granted (.seg 0)) } }
    let orphan := { segment .write .inLane with owner := none }
    (s (segment .write .inLane)).arb.lanes[(3 : LaneIx)] = .granted (.seg 0) ∧
    segOf (s (segment .write .inLane)) 0 = some (segment .write .inLane) ∧
    segOf (s (segment .read .inLane)) 0 = some (segment .read .inLane) ∧ segOf (s orphan) 0 = some orphan := by decide +kernel

/-- The re-key job's chunk in a phase, over a range whose length tells whether the chunk is its last. -/
def rekeying (len : Nat) (p : ChunkPhase) (n : Nat) : State :=
  let s := withJob (withEntry (entry 8 len .opened .migrating)) (rekeyJob .running)
  { s with
    slots := s.slots.set 3 ⟨.loaded, some 9, some (1, 1), some .next, false, 1⟩
    sweep := { s.sweep with stack := [0], chunk := some { chunk .rekey p with outstanding := n } }
    arb := { s.arb with lanes := s.arb.lanes.set 0 (.granted .pass) } }

theorem test_hyp_rekey_chunk :
    let s := rekeying 64 .pass 0
    let d : List Damage := (List.range 16).map (fun n => ⟨2, n⟩)
    let bad := { chunk .rekey .reading with outstanding := 0, blocks := [(16, none)] }
    s.sweep.chunk = some { chunk .rekey .pass with outstanding := 0 } ∧ jobAt s 0 = some (rekeyJob .running) ∧
    (0 < passLanes s ∧ (rekeying 64 .reading 1).sweep.chunk = some (chunk .rekey .reading)) ∧
    16 < ({ s with damaged := d } : State).damaged.length + (neededDamage { s with damaged := d } bad).length ∧
    s.damaged.length + (neededDamage s bad).length ≤ 16 ∧ RekeyFails (.home ⟨16, 8⟩ true) .error .mediaError ∧
    readSpans { chunk .rekey .home with blocks := [(16, some 0)] } ⟨16, 1⟩ ≠ [] ∧
    s.ranges[(1 : RangeIx)].mig = some ⟨16, some 3, none, some 0, 2, .yielding, 8⟩ ∧ 24 < clippedEnd s 1 ∧
    clippedEnd (rekeying 16 .checkpoint 0) 1 ≤ 24 ∧ s.ranges[(1 : RangeIx)].cond = .migrating ∧
    s.ranges[(1 : RangeIx)].slot = some 2 ∧ s.slots[(3 : SlotIx)].state = .loaded ∧
    s.slots[(3 : SlotIx)].held = false ∧ s.slots[(2 : SlotIx)].held = false := by
  refine ⟨?_, ?_, ?_, ?_, ?_, .home _, ?_⟩
  all_goals decide +kernel

theorem test_hyp_purge_chunk :
    let b : Job := { rekeyJob .running with kind := .purge, pattern := some .random }
    let s := fun (len : Nat) (p : ChunkPhase) =>
      { withChunk (withJob (withEntry (entry 8 len .locked .purging)) b) { chunk .purge p with outstanding := 0 } with
        arb := { awake.arb with lanes := awake.arb.lanes.set 0 (.granted .pass) } }
    (s 64 .pass).sweep.chunk = some { chunk .purge .pass with outstanding := 0 } ∧ jobAt (s 64 .pass) 0 = some b ∧
    0 < passLanes (s 64 .pass) ∧ 24 < clippedEnd (s 64 .fillWrite) 1 ∧ clippedEnd (s 16 .fillWrite) 1 ≤ 24 ∧
    purgeNames (s 16 .fillWrite) (some 0) 1 = false ∧ cursorRange b = some 1 ∧
    (s 16 (.fillStore true)).ranges[(1 : RangeIx)].cond = .purging ∧
    (s 16 (.fillStore false)).ranges[(1 : RangeIx)].cond = .purging ∧ 24 < clippedEnd (s 64 (.fillStore false)) 1 ∧
    cursorRange { b with ranges := [2] } ≠ some 1 := by decide +kernel

/-- The last checkpoint of a PURGE job is in flight, and the job that also named the range has ended since. -/
def leftAlone (final : Bool) : State :=
  { withChunk (withJob (withEntry (entry 8 16 .locked .purging))
      { rekeyJob .running with kind := .purge, pattern := some .zeros })
      { chunk .purge (.fillStore final) with outstanding := 0 } with
    writes := [⟨if final then .rangeSteady 1 else .rangePurge 1 ⟨24, ⟨2, .yielding, .zeros⟩⟩, .chunk, []⟩] }

theorem test_a_range_that_no_other_job_names_any_more_gets_its_steady_record :
    (match exec .storeWriteCompletion (leftAlone false) with
      | .next t => decide (t.writes = [⟨.rangeSteady 1, .chunk, []⟩] ∧ t.ranges[(1 : RangeIx)].cond = .purging ∧
          (t.sweep.chunk.map (·.phase)) = some (.fillStore true))
      | _ => false) = true ∧
    (match exec .storeWriteCompletion (leftAlone true) with
      | .next t => decide (t.writes = [] ∧ t.ranges[(1 : RangeIx)].cond = .steady ∧ t.sweep.chunk = none ∧
          (jobAt t 0).map (·.state) = some .done)
      | _ => false) = true := by decide +kernel

/-- A state whose entry 2 lies over [16, 24) of entry 1, so that a chunk there has no runs. -/
def covered (s : State) : State := { s with ranges := s.ranges.set 2 (entry 16 8 .locked .steady) }

theorem test_hyp_purge_chunk_is_taken :
    let b : Job := { rekeyJob .running with kind := .purge, pattern := some .zeros }
    let s := fun (len : Nat) => withJob (withEntry (entry 8 len .locked .purging)) b
    let d := { awake with arb := { awake.arb with lanes := awake.arb.lanes.set 0 .dedicated, dedicated := some 0 } }
    runsOf (s 64) 1 16 24 = [⟨16, 8⟩] ∧ runsOf (covered (s 64)) 1 16 24 = [] ∧ 24 < clippedEnd (covered (s 64)) 1 ∧
    runsOf (covered (s 16)) 1 16 24 = [] ∧ clippedEnd (covered (s 16)) 1 ≤ 24 ∧
    purgeNames (covered (s 16)) (some 0) 1 = false ∧ b.pattern = some .zeros ∧
    (d.arb.dedicated = some 0 ∧ d.arb.lanes[(0 : LaneIx)] = .dedicated) ∧ awake.arb.dedicated = none ∧
    { chunk .purge .fillWrite with outstanding := 1 }.outstanding ≠ 0 := by decide +kernel

theorem test_hyp_store_write :
    awake.writes = [] ∧
    ({ awake with writes := [⟨.rangeFree 1, .nothing, []⟩] } : State).writes = ⟨.rangeFree 1, .nothing, []⟩ :: [] ∧
    ({ awake with writes := [⟨.rangeFree 1, .nothing, [(.rangeFree 2, .nothing)]⟩] } : State).writes =
      ⟨.rangeFree 1, .nothing, (.rangeFree 2, .nothing) :: []⟩ :: [] ∧
    (let m : StoredMig := ⟨9, 16, 2, .yielding, 8, none⟩
     let s := { awake with store := { awake.store with
       ranges := awake.store.ranges.set 1 ⟨true, 8, 64, factoryFlags false, 1, some 8, .migrating, some m, none⟩ } }
     s.store.ranges[(1 : RangeIx)].mig = some m ∧ s.ranges[(1 : RangeIx)].cond ≠ .draining ∧
     s.store.ranges[(1 : RangeIx)].active = true) ∧
    (withEntry (entry 8 64 .locked .draining)).ranges[(1 : RangeIx)].cond = .draining ∧
    awake.store.ranges[(1 : RangeIx)].active = false ∧
    ((ending awake (.device {}) .query).writes = ⟨.device {}, .control, []⟩ :: [] ∧ awake.control.service = none) := by
  decide +kernel

/-- Range 1 drains, and the list in force has entries of range 0, added first, and of range 1. -/
def twoIntents : State :=
  { withEntry (entry 8 64 .locked .draining) with intents := [⟨0, 1, none, false⟩, ⟨1, 1, none, false⟩] }

theorem test_hyp_intent_write :
    let order := twoIntents.intents.map (·.range)
    let left : List Intent := [⟨1, 1, none, true⟩]
    let brought : List Intent := [⟨0, 1, none, true⟩]
    (order.Nodup ∧ (left.map (·.range)).Sublist order ∧ ((left ++ brought).map (·.range)).Nodup ∧
      (∀ e ∈ brought, e.range ∈ order) ∧ ∀ e ∈ brought, twoIntents.ranges[e.range].active = true) ∧
    ((∀ e ∈ left, ∀ x ∈ brought, ¬ [e.range, x.range].Sublist order) ∧
      (brought ++ left).Pairwise (fun a b => ¬ [b.range, a.range].Sublist order) ∧
      [(0 : RangeIx), 1].Sublist order) := by decide +kernel

/-- R109: a commit's list write that completes before that of an earlier theft wipe. -/
theorem test_stored_intents_keep_the_order_of_adding :
    let s := twoIntents
    let t := { s with store := applyOp s (.intents [] [] [⟨1, 1, none, false⟩]) }
    t.store.intents.map (·.range) = [1] ∧
    (applyOp t (.intents [] [] [⟨0, 1, none, false⟩])).intents = [⟨0, 1, none, true⟩, ⟨1, 1, none, true⟩] := by decide +kernel

theorem test_hyp_stores_with_no_chunk :
    let w := fun (s : State) (op : StoreOp) (d : Done) =>
      { s with writes := [⟨op, d, []⟩], sweep := { s.sweep with completing := [1] } }
    let p := fun (ranges : List RangeIx) => withJob (withEntry (entry 8 8 .locked .purging))
      { rekeyJob .running with kind := .purge, ranges := ranges, pattern := some .zeros }
    let c := w running (.rangeComplete 1 72) (.completing 1 72)
    let wiped := w (withJob (withEntry { entry 8 64 .locked .migrating with cond := .draining }) (rekeyJob .running))
      (.rangeComplete 1 72) (.completing 1 72)
    (c.startUp = none ∧ c.writes = ⟨.rangeComplete 1 72, .completing 1 72, []⟩ :: [] ∧ rekeyOf c 1 = some 0 ∧
      jobAt c 0 = some (rekeyJob .running) ∧ c.ranges[(1 : RangeIx)].mig = some ⟨16, some 3, none, some 0, 2, .yielding, 8⟩ ∧
      c.ranges[(1 : RangeIx)].cond = .migrating ∧ rekeyOf awake 1 = none) ∧
    (rekeyOf wiped 1 = some 0 ∧ wiped.ranges[(1 : RangeIx)].mig.isSome = true ∧
      wiped.ranges[(1 : RangeIx)].cond ≠ .migrating) ∧
    (∀ l ∈ [([1] : List RangeIx), [1, 2]],
      let s := w (p l) (.rangeSteady 1) (.purged 1 0)
      s.startUp = none ∧ s.writes = ⟨.rangeSteady 1, .purged 1 0, []⟩ :: [] ∧ s.ranges[(1 : RangeIx)].cond = .purging ∧
      purgeNames s (some 0) 1 = false ∧ ∃ b, jobAt s 0 = some b ∧ b.kind = .purge ∧ finished b = false ∧
        cursorRange b = some 1 ∧ b.ranges = l) ∧
    (jobAt (w (withEntry (entry 8 8 .locked .purging)) (.rangeSteady 1) (.purged 1 0)) 0 = none ∧
      (withEntry (entry 8 8 .locked .draining)).ranges[(1 : RangeIx)].cond ≠ .purging) := by
  refine ⟨?_, ?_, ?_, ?_⟩
  · decide +kernel
  · decide +kernel
  · intro l h
    refine ⟨rfl, rfl, rfl, ?_, _, rfl, rfl, rfl, ?_, rfl⟩
    all_goals revert l
    all_goals decide +kernel
  · decide +kernel

theorem test_hyp_fence :
    let s := withJob (withEntry (entry 8 64 .opened .migrating)) (rekeyJob .running)
    freeToRun s = true ∧ s.sweep.chunk = none ∧ s.power.dozeDue = false ∧
    runningJob s = some 0 ∧ jobAt s 0 = some (rekeyJob .running) ∧ cursorRange (rekeyJob .running) = some 1 ∧
    s.ranges[(1 : RangeIx)].cond = .migrating ∧ s.ranges[(1 : RangeIx)].lock ≠ .locked ∧
    s.ranges[(1 : RangeIx)].mig = some ⟨16, some 3, none, some 0, 2, .yielding, 8⟩ ∧
    (rekeyJob .running).lba < clippedEnd s 1 ∧ s.front.segs = [] ∧ runsOf s 1 16 24 = [⟨16, 8⟩] ∧
    (runsOf (covered s) 1 16 24 = [] ∧ readyFence (covered s) = some (0, rekeyJob .running, 1)) ∧
    (let g := { segment .write .onMedia with place := .range 1, start := 23 }
     g.state ≠ .retired ∧ g.place = .range 1 ∧ g.start < 24 ∧ 16 < g.start + g.len) := by decide +kernel

/-- Range 1 drains, its committed intent entry stored. -/
def drained : State :=
  { withEntry { entry 8 64 .locked .draining with slot := none } with intents := [⟨1, 1, none, true⟩] }

theorem test_hyp_drain :
    (drained.ranges[(1 : RangeIx)].active = true ∧ drained.ranges[(1 : RangeIx)].cond = .draining ∧
      drained.ranges[(1 : RangeIx)].finishing = false ∧ ownsSlot drained 1 = false ∧ chunkOn drained 1 = false ∧
      intentOf drained 1 = some ⟨1, 1, none, true⟩) ∧ drainDue drained 1 = true ∧ drainDue awake 1 = false ∧
    (let s := { drained with writes := [⟨.intents [1] [] [], .drained 1 2 false, []⟩] }
     s.startUp = none ∧ s.writes = ⟨.intents [1] [] [], .drained 1 2 false, []⟩ :: [] ∧
     s.ranges[(1 : RangeIx)].finishing = false ∧
     (modRange s 1 (fun x => { x with finishing := true })).ranges[(1 : RangeIx)].finishing = true ∧
     s.ranges[(1 : RangeIx)].active = true ∧ s.ranges[(1 : RangeIx)].slot = none ∧ guarded s 1 = false ∧
     guarded (guardedBy2 s .read) 1 = true ∧ (emptyMediaSlots s).head? = some 2 ∧ awake.ranges[(1 : RangeIx)].active = false ∧
     purgeFollows s 1 = false ∧ purgeFollows { s with intents := [⟨1, 1, some ⟨1, .yielding, .zeros⟩, true⟩] } 1 = true ∧
     (inPower s .sleep .noOp).power.state = .sleep) := by decide +kernel

theorem test_the_damaged_list_is_stored_in_the_finish_where_it_names_the_range :
    ∀ x ∈ [(([] : List Damage), ([] : List (StoreOp × Done))), ([⟨1, 16⟩], [(.damagedRange 1, .nothing)]), ([⟨2, 16⟩], [])],
      (startDrainFinish { drained with damaged := x.1 } 1).writes.map (·.rest) =
        [x.2 ++ [(.intents [1] [] [], .drained 1 2 false)]] := by decide +kernel

/-! ## Hypotheses of the statements: power, tamper, start-up -/

theorem test_hyp_idle_relock :
    let s := fun (n : Nat) => { awake with
      dev := { awake.dev with policy := { awake.dev.policy with relockMinutes := 1 } }
      theft := { awake.theft with elapsed := n } }
    (s 60000000).powered = true ∧ (s 60000000).startUp = none ∧ (s 60000000).power.state ≠ .sleep ∧
    (s 60000000).power.op ≠ .wakeSleep ∧ (s 60000000).dev.policy.relockMinutes ≠ 0 ∧ (s 60000000).theft.expired = false ∧
    (s 60000000).dev.policy.relockMinutes * 60 * 1000000 ≤ (s 60000000).theft.elapsed ∧
    ¬ (s 59999999).dev.policy.relockMinutes * 60 * 1000000 ≤ (s 59999999).theft.elapsed ∧
    awake.dev.policy.relockMinutes = 0 := by decide +kernel

theorem test_hyp_lock_procedure : awake.startUp = none ∧ guarded (guardedBy2 (withEntry (entry 8 64 .opened .steady)) .read) 1 =
    true ∧ guarded awake 0 = false ∧
    (let s := guardedBy2 running .read
     guarded s 1 = true ∧ s.ranges[(1 : RangeIx)].lock ≠ .locked ∧ s.ranges[(1 : RangeIx)].slot = some 2 ∧
     nextSlotOf s.ranges[(1 : RangeIx)] = some 3 ∧ namings s 2 = 1 ∧ namings s 3 = 1 ∧ rekeyOf s 1 = some 0 ∧
     jobAt s 0 = some (rekeyJob .running) ∧ (rekeyJob .running).policy = .yielding) := by decide +kernel

theorem test_hyp_steps :
    let at' := fun (p : PowerState) (n : Nat) => { awake with power := ⟨p, .noOp, 0, n, false⟩ }
    (awake.dev.idle ≠ 0 ∧ awake.dev.idle * 10 * 1000 ≤ (at' .active 500000).power.stepTimer) ∧
    (at' .active 499999).power.stepTimer < awake.dev.idle * 10 * 1000 ∧
    (awake.dev.doze ≠ 0 ∧ awake.dev.doze * 1000 * 1000 ≤ (at' .idle 30000000).power.stepTimer) ∧
    (at' .idle 29999999).power.stepTimer < awake.dev.doze * 1000 * 1000 := by decide +kernel

theorem test_hyp_step_to_doze :
    let s := { withJob awake (rekeyJob .queued) with power := ⟨.idle, .noOp, 0, 0, true⟩ }
    s.powered = true ∧ s.startUp = none ∧ s.power.op = .noOp ∧ s.power.state = .idle ∧ s.power.dozeDue = true ∧
    (∀ x : FrontTag, s.front.tags[x] = none) ∧ s.front.held = [] ∧ laneGranted s = false ∧ s.sweep.chunk = none ∧
    s.control.service = none ∧ s.control.queue = [] ∧ level0Demand s = false ∧
    (let h := withJob s { rekeyJob .running with policy := .holding }
     jobAt h 0 = some { rekeyJob .running with policy := .holding } ∧ laneGranted h = false ∧ level0Demand h = false) ∧
    awake.power.state ≠ .idle := by decide +kernel

theorem test_hyp_wakes :
    let at' := fun (p : PowerState) (op : PowerOp) (n : Nat) => { awake with power := ⟨p, op, n, 0, false⟩ }
    150 ≤ (at' .doze .wakeDoze 150).power.opTimer ∧ (at' .doze .wakeDoze 149).power.opTimer < 150 ∧
    2000 ≤ (at' .sleep .wakeSleep 2000).power.opTimer ∧ (at' .sleep .wakeSleep 1999).power.opTimer < 2000 ∧
    (at' .doze .wakeDoze 150).power.op = .wakeDoze ∧ (at' .sleep .wakeSleep 2000).power.op = .wakeSleep ∧
    jobAt (withJob awake { rekeyJob .paused with pause := some .power }) 0 =
      some { rekeyJob .paused with pause := some .power } := by decide +kernel

theorem test_hyp_sleep :
    let up := { awake with sleepLine := true }
    let s := inPower up .active .sleepEntry
    (awake.sleepLine = false ∧ awake.powered = true ∧ awake.startUp = none ∧ awake.front.waiting = [] ∧
      runningJob awake = none) ∧ (State.reset.sleepLine = false ∧ State.reset.powered = false) ∧
    ({ awake with front := { awake.front with waiting := [5, 3] } } : State).front.waiting = [5, 3] ∧
    (runningJob running = some 0 ∧ hasChunk running 0 = false ∧ (rekeyJob .running).policy = .yielding) ∧
    hasChunk (withChunk running (chunk .rekey .reading)) 0 = true ∧
    ((inPower awake .sleep .wakeSleep).power.op = .wakeSleep ∧ (inPower awake .sleep .wakeSleep).power.state = .sleep) ∧
    (up.sleepLine = true ∧ s.power.op = .sleepEntry ∧ s.power.state ≠ .sleep) ∧
    ((inPower up .sleep .noOp).power.op = .noOp ∧ (inPower up .sleep .noOp).power.state = .sleep) ∧
    (∀ x : FrontTag, s.front.tags[x] = none) ∧ s.front.segs = [] ∧ s.writes = [] ∧ s.control.service = none ∧
    s.control.queue = [] ∧ s.sweep.chunk = none ∧ (∀ r, drainDue s r = false) := by decide +kernel

theorem test_regions_follow_a_reported_capacity :
    ((readRegions (2 ^ 18 - 1) 0 false).capFault = true ∧ (readRegions (2 ^ 18 - 1) 0 false).c = 0) ∧
    ((readRegions (2 ^ 18) 0 false).u = 229312 ∧ (readRegions (2 ^ 18) 229312 false).c = 229312) ∧
    ((readRegions (2 ^ 18 + 7) 229313 false).c = 229312 ∧ (readRegions (2 ^ 18) 1 true).c = 1) ∧
    (readRegions (2 ^ 40 + 8) 0 false).n = 2 ^ 40 := by decide +kernel

theorem test_hyp_power_on :
    let s := { State.reset with store := { State.reset.store with
      device := { State.reset.store.device with systemKey := some 7 } } }
    State.reset.powered = false ∧ State.reset.store.device.systemKey = none ∧ awake.powered = true ∧
    s.store.device.systemKey = some 7 ∧ s.store.device.policy.threshold = 0 ∧ s.store.intents = [] ∧
    (∀ r : RangeIx, s.store.ranges[r].mig = none) ∧ s.front.waiting = [] ∧ s.sleepLine = false ∧ s.writes = [] ∧
    s.power = ⟨.active, .noOp, 0, 0, false⟩ ∧ s.journal = ⟨[], false, 0, 1 <<< 19⟩ ∧ s.control.queue = [] ∧
    s.sweep = ⟨Vector.replicate 6 .free, [], 0, none, []⟩ ∧ (∀ i : SlotIx, s.slots[i].state = .empty) := by decide +kernel

/-- Start-up in a phase. -/
def inPhase (ph : Phase) (v : Option Recovery) : State :=
  { awake with startUp := some ⟨.powerOn, ⟨1048576, .released, .released, .released⟩, ph, v, []⟩ }

theorem test_hyp_start_up_phases :
    let g : Staged := ⟨1, 16, 8, [⟨16, 8⟩]⟩
    let v : Recovery := ⟨1, g, 1, [], []⟩
    let m : StoredMig := ⟨9, 16, 2, .yielding, 8, some g⟩
    let q : MediaReq := ⟨.read, 0, 8, [], .recovery ⟨16, 8⟩ false false⟩
    let stage := { inPhase .staging none with store := { awake.store with
      ranges := awake.store.ranges.set 1 ⟨true, 8, 64, factoryFlags false, 1, some 8, .migrating, some m, none⟩ } }
    let counts := { guardedBy2 (withEntry (entry 8 64 .locked .steady)) .read with
      dev := { awake.dev with policy := { awake.dev.policy with threshold := 2 }, lockedStarts := 2 } }
    (inPhase .intents none).startUp.isSome = true ∧
    ({ inPhase .keys none with writes := [⟨.rangeFree 1, .nothing, []⟩] } : State).writes =
      ⟨.rangeFree 1, .nothing, []⟩ :: [] ∧
    (withTag (inPhase .staging (some v)) (.busy q 0)).media.tags[(0 : MediaTag)] = .busy q 0 ∧
    v.outstanding ≠ 0 ∧ (inPhase .keys none).writes = [] ∧
    (stage.store.ranges[(1 : RangeIx)].active = true ∧ stage.store.ranges[(1 : RangeIx)].gen = 1 ∧
      awake.store.ranges[(1 : RangeIx)].active = false) ∧
    (stage.regions.capFault = false ∧ stage.store.ranges[(1 : RangeIx)].cond = .migrating ∧
      stage.store.ranges[(1 : RangeIx)].mig = some m ∧ m.staged = some g ∧ awake.store.ranges[(0 : RangeIx)].mig = none) ∧
    (counts.dev.policy.threshold ≠ 0 ∧ counts.ranges[(1 : RangeIx)].active = true ∧ guarded counts 1 = true ∧
      counts.dev.lockedStarts = counts.dev.policy.threshold ∧ awake.dev.policy.threshold = 0) ∧
    (drainDue drained 1 = true ∧ ∀ r, drainDue awake r = false) := by decide +kernel

theorem test_hyp_start_up_jobs :
    let p : PurgeCkpt := ⟨8, ⟨1, .yielding, .zeros⟩⟩
    let s := withEntry { entry 8 64 .locked .migrating with mig := some ⟨16, none, none, none, 2, .yielding, 8⟩ }
    let x := { withEntry (entry 8 64 .locked .purging) with store := { awake.store with
      ranges := awake.store.ranges.set 1 ⟨true, 8, 64, factoryFlags false, 1, some 8, .purging, none, some p⟩ } }
    (s.ranges[(1 : RangeIx)].active = true ∧ s.ranges[(1 : RangeIx)].cond = .migrating ∧ rekeyOf s 1 = none ∧
      freeEntry s = some 0 ∧ s.ranges[(1 : RangeIx)].mig = some ⟨16, none, none, none, 2, .yielding, 8⟩) ∧
    freeEntry x = some 0 ∧ lacksPurge x 0 = none ∧ lacksPurge x 1 = some p := by decide +kernel

theorem test_hyp_power_loss : awake.powered = true ∧ State.reset.powered = false := by decide +kernel

theorem test_hyp_tamper :
    let s := fun (run age period : Nat) => { awake with
      theft := { awake.theft with sampling := true, caseLine := ⟨.released, run, age, period⟩ } }
    sampleDue (s 2 1000 1000) .caseLine = true ∧ sampleDue (s 2 999 1000) .caseLine = false ∧
    sampleDue (s 2 7999 8000) .caseLine = false ∧ sampleDue (s 2 8000 8000) .caseLine = true ∧
    sampleDue (inPower (s 2 1000 1000) .doze .noOp) .caseLine = true ∧
    (filterOf (s 1 1000 1000).theft .caseLine).run < 2 ∧ (filterOf (s 2 1000 1000).theft .caseLine).run = 2 := by
  decide +kernel

theorem test_hyp_edges :
    let s := fun (cfg : LineConfig) (l : Level) => { awake with
      dev := { awake.dev with policy := { awake.dev.policy with caseLine := cfg } }
      theft := { awake.theft with sampling := true, caseLine := ⟨.released, 2, 1000, 1000⟩, serviceLine := ⟨l, 0, 0, 1000⟩ } }
    let c : LineConfig := ⟨.both, .wipe, some .serviceLine⟩
    sampleDue (s c .released) .caseLine = true ∧ (filterOf (s c .released).theft .caseLine).run = 2 ∧
    triggers .onRelease .assert = false ∧ triggers c.trigger .assert = true ∧ c.action ≠ .ignore ∧
    (filterOf (s c .asserted).theft .serviceLine).level = .asserted ∧
    (filterOf (s c .released).theft .serviceLine).level = .released := by decide +kernel

theorem test_hyp_theft_wipe : awake.startUp = none ∧
    allRanges.filter (fun r => awake.ranges[r].active && awake.ranges[r].flags.wipeOnTheft &&
      awake.ranges[r].cond ≠ .draining && (intentOf awake r).isNone) = [0] := by decide +kernel

theorem test_hyp_theft_writes :
    let w := fun (d : Done) => (⟨.device {}, d, []⟩ : Write)
    let free : Write := ⟨.rangeFree 1, .nothing, []⟩
    let s := fun (d : Done) => { awake with writes := [w d, free] }
    let r : After := .restart ⟨1048576, .released, .released, .released⟩
    let u := { awake with dev := { awake.dev with policy := { awake.dev.policy with purge := some .zeros } } }
    theftOutstanding awake = false ∧ theftWrite (w .theftClear) = true ∧ theftWrite free = false ∧
    (s (.theftDevice .tamper false)).writes = [] ++ w (.theftDevice .tamper false) :: [free] ∧
    (s (.theftIntents .tamper [0])).startUp = none ∧ (s .theftClear).control.service = none ∧
    (ending awake (.rangeFree 1) (.respond ⟨.denied, .none⟩)).control.service =
      some ⟨some 0, block 1 0 [], .respond ⟨.denied, .none⟩⟩ ∧
    (ending awake (.rangeFree 1) r).control.service = some ⟨some 0, block 1 0 [], r⟩ ∧
    u.dev.policy.purge = some .zeros ∧ u.startUp = none := by decide +kernel

/-! ## Hypotheses of the statements: admission later, the ready event, start-up, wipes -/

/-- A transaction of tag 9 at a stage. -/
def later (s : State) (d : Descriptor) (c : FrontClass) (stage : Stage) : State := standing s { d with tag := 9 } c stage

theorem test_hyp_admission_later :
    let bad := { blanked with damaged := [⟨0, 3⟩] }
    let d := io 9 0 0 16
    (Stands (later blanked d .read .held) d .read ∧ Stands (later awake (io 9 3 0 0) .flush .waiting) (io 9 3 0 0) .flush ∧
      Stands (later awake (io 9 4 0 0) .control .waiting) (io 9 4 0 0) .control) ∧
    (SpanPasses blanked d ∧ ¬ SpanPasses blanked (io 9 0 1099511627768 8)) ∧
    ((piecesOf blanked d .read).map (decidePiece blanked .read) = [.bound (some 1), .blank] ∧
      (piecesOf bad d .read).map (decidePiece bad .read) = [.damaged, .blank] ∧
      (∀ g ∈ bad.front.segs, g.owner ≠ some d.tag)) ∧
    (let h := withEntry { entry 8 64 .opened .migrating with mig := some ⟨16, some 3, some ⟨16, 8⟩, some 0, 2, .yielding, 8⟩ }
     (piecesOf h (io 9 0 16 8) .read).map (decidePiece h .read) = [.hold]) ∧
    (piecesOf blanked (io 9 1 8 8) .write).map (decidePiece blanked .write) = [.refused .locked] := by
  refine ⟨⟨⟨_, rfl⟩, ⟨_, rfl⟩, ⟨_, rfl⟩⟩, ?_, ?_, ?_, ?_⟩
  · unfold SpanPasses
    decide +kernel
  all_goals decide +kernel

theorem test_hyp_ready_event :
    let s := { awake with sleepLine := true, power := ⟨.sleep, .sleepEntry, 0, 0, false⟩ }
    s.powered = true ∧ s.sleepLine = true ∧ s.power.op = .sleepEntry ∧ s.power.state = .sleep ∧
    (∀ x : FrontTag, s.front.tags[x] = none) ∧ s.front.segs = [] ∧ s.sweep.chunk = none ∧ s.writes = [] ∧
    s.control.service = none ∧ s.control.queue = [] ∧ (∀ r, drainDue s r = false) ∧ awake.sleepLine = false := by
  decide +kernel

theorem test_hyp_recovery_answers :
    let q : MediaReq := ⟨.read, 0, 8, [], .recovery ⟨16, 8⟩ false false⟩
    let v : Recovery := ⟨1, ⟨1, 16, 8, [⟨16, 8⟩]⟩, 1, [], []⟩
    let s := withTag (inPhase .stagingStore (some v)) (.busy q 2000000)
    s.media.tags[(0 : MediaTag)] = .busy q 2000000 ∧ q.who = .recovery ⟨16, 8⟩ false false ∧
    (s.startUp.map (·.recovery)) = some (some v) := by decide +kernel

theorem test_hyp_unguarded_ranges_are_opened :
    let s := withEntry { entry 8 64 .locked .steady with slot := none }
    let m := withEntry { entry 8 64 .locked .migrating with
      slot := none, mig := some ⟨16, none, none, none, 2, .yielding, 8⟩ }
    (s.ranges[(1 : RangeIx)].active = true ∧ guarded s 1 = false ∧ s.ranges[(1 : RangeIx)].cond ≠ .draining ∧
      s.ranges[(1 : RangeIx)].slot = none ∧ nextSlotOf s.ranges[(1 : RangeIx)] = none ∧
      (wantedKeys s [1]).length ≤ (emptyMediaSlots s).length) ∧
    (m.ranges[(1 : RangeIx)].cond = .migrating ∧ m.ranges[(1 : RangeIx)].mig.isSome = true ∧
      (wantedKeys m [1]).length = 2 ∧ 2 ≤ (emptyMediaSlots m).length) ∧ guarded (guardedBy2 s .read) 1 = true := by
  decide +kernel

/-- Range 1 migrates under a RUNNING HOLD job with a dedicated lane. -/
def holding : State :=
  let s := withJob (withEntry (entry 8 64 .opened .migrating)) { rekeyJob .running with policy := .holding }
  { s with
    arb := { s.arb with lanes := s.arb.lanes.set 1 .dedicated, dedicated := some 1 }
    sweep := { s.sweep with stack := [0] } }

/-- The part is `holding`; range 1 and a PURGING range 2 are flagged, and a QUEUED PURGE names range 2 and a PURGING
range 3. -/
def flagged : State :=
  let wipe := fun (x : RangeEntry) => { x with flags := { x.flags with wipeOnTheft := true } }
  let b : Job := { rekeyJob .queued with kind := .purge, ranges := [2, 3], pattern := some .ones, stamp := 1 }
  { holding with
    ranges := ((holding.ranges.set 1 (wipe holding.ranges[1])).set 2 (wipe (entry 80 8 .locked .purging))).set 3
      (entry 96 8 .locked .purging)
    sweep := { holding.sweep with jobs := holding.sweep.jobs.set 1 (.job b), nextStamp := 2 } }

theorem test_a_paused_hold_job_gives_up_its_lane :
    let s := guardedBy2 holding .read
    guarded s 1 = true ∧ rekeyOf s 1 = some 0 ∧ hasChunk s 0 = false ∧ runningJob s = some 0 ∧
    (lockProcedure s [1] .idle).arb = undedicated s.arb ∧ undedicated s.arb ≠ s.arb := by decide +kernel

theorem test_a_theft_wipe_cancels_a_hold_job_and_leaves_a_purging_range_steady :
    let x := theftTrigger flagged .tamper
    flagged.startUp = none ∧ x.2.1 = [0, 1, 2] ∧ theftPending flagged = [] ∧ namings flagged 2 = 1 ∧
    x.1.arb = undedicated flagged.arb ∧ x.1.ranges[(3 : RangeIx)].cond = .steady ∧
    x.1.writes = [⟨.rangeSteady 3, .nothing, []⟩] ∧ x.1.slots[(2 : SlotIx)].state = .empty ∧
    (jobAt x.1 0).map (·.state) = some .cancelled ∧ (jobAt x.1 1).map (·.state) = some .cancelled := by decide +kernel

theorem test_hyp_wiped_jobs :
    let b : Job := { rekeyJob .running with policy := .holding }
    let moving := withChunk holding (chunk .rekey .reading)
    let pending := { flagged with intents := [⟨2, 1, none, false⟩] }
    (jobAt holding 0 = some b ∧ finished b = false ∧ (1 : RangeIx) ∈ b.ranges ∧ b.kind = .rekey ∧
      hasChunk holding 0 = false ∧ hasChunk moving 0 = true ∧ (2 : RangeIx) ∉ b.ranges) ∧
    theftPending pending = [2] ∧ (drained.ranges[(1 : RangeIx)].cond = .draining ∧
      holding.ranges[(1 : RangeIx)].cond ≠ .draining) ∧
    (holding.ranges[(1 : RangeIx)].slot = some 2 ∧ nextSlotOf holding.ranges[(1 : RangeIx)] = some 3) := by decide +kernel

theorem test_hyp_displaced_jobs :
    let b : Job := { rekeyJob .queued with kind := .purge, ranges := [2], pattern := some .zeros, stamp := 3 }
    let full := fun (b : Job) => { awake with
      dev := { awake.dev with policy := { awake.dev.policy with purge := some .zeros } }
      sweep := { awake.sweep with jobs := Vector.replicate 6 (.job b) } }
    (oldestDisplaceable (full b) = some 0 ∧ oldestDisplaceable (full { b with level := 1 }) = none ∧ jobRoom (full b) = 0 ∧
      jobRoom awake = 6) ∧ (freeEntry (full b) = none ∧ freeEntry awake = some 0) ∧
    ((theftPurge (full b) .tamper [1]).2.2 = [1] ∧ (theftPurge (full { b with level := 1 }) .tamper [1]).2.2 = [] ∧
      awake.dev.policy.purge = none) ∧ groupsOf4 [0, 1, 2, 3, 5] = [[0, 1, 2, 3], [5]] := by decide +kernel

theorem test_a_commit_cancels_a_hold_job_and_leaves_a_purging_range_steady :
    let s := { flagged with intents := [⟨1, 1, none, false⟩, ⟨2, 1, none, false⟩] }
    let x := commitStored s [1, 2] (some ⟨1, .yielding, .zeros⟩)
    (∀ r ∈ [(1 : RangeIx), 2], (intentOf s r).isSome = true) ∧ x.2.1.ops = [.rangeSteady 3] ∧
    x.1.arb = undedicated s.arb ∧ x.2.2 = .committed [1, 1] [0] ∧ x.1.slots[(3 : SlotIx)].state = .empty ∧
    x.1.intents = [⟨1, 1, none, true⟩, ⟨2, 1, none, true⟩] := by decide +kernel

/-! ## Hypotheses of the statements: requests

`owner_asked`, `absent_asked` and `matched_asked` show the request served; each theorem below shows its block read as the
request and the conditions of the clauses met in the state it is served in. -/

/-- The state that a request of OWNER or of no credential is served in. -/
def served (s : State) (b : RequestBlock) : State := endPrepared (asked s b)

/-- A state whose part is frozen. -/
def frozen (s : State) : State := { s with control := { s.control with frozen := true } }

/-- A state with no EMPTY media slot. -/
def noSlots (s : State) : State := { s with slots := vmap (fun x => { x with state := .loaded }) s.slots }

/-- A block and the request it makes, for every request that OWNER authority serves. -/
def ownerBlocks : List (RequestBlock × Request) :=
  [(block 2 0 [], .restart), (block 33 0 [2], .credClear 2), (block 34 0 [2], .credDisable 2), (block 35 0 [7], .credEnable 7),
    (block 36 0 [2, 1, 1], .credGrant 2 1 1), (block 37 0 [2, 1], .credRevoke 2 1), (block 38 0 [2, 15], .credBudget 2 15),
    (block 48 0 [6, 0, 0, 15, 0, 0, 0xC0, 0x7F, 0, 0, 0, 8], .rangeDefine 6 983040 32704 8),
    (block 49 0 [1], .rangeDelete 1), (block 50 0 [0, 16], .rangeFlags 0 16), (block 51 0 [1, 2, 0, 64], .rangeRekey 1 2 0 64),
    (block 64 0 [0, 0, 15, 0, 0, 1], .ceilingSet 983040 1), (block 65 0 [], .reserveOpen), (block 66 0 [], .reserveClose)] ++
  [(block 67 0 [0, 0x80, 1, 1], .pbwSet 32768 1 1), (block 80 0 [1, 2, 1, 1], .wipePrepare 1 2 (some [1])),
    (block 81 0 [0x34, 0x12], .wipeCommit 0x1234), (block 97 0 [0], .sweepPause 0), (block 98 0 [5], .sweepResume 5),
    (block 99 0 [0], .sweepCancel 0),
    (block 112 0 [250, 15, 3, 0, 3, 2, 0, 2, 255, 2, 1, 255, 255, 1], .theftSet 250 15 3 [0, 3, 2, 0, 2, 255, 2, 1, 255] 255 1),
    (block 113 0 [0, 255], .powerSet 0 255), (block 32 0 (2 :: List.replicate 32 0), .credSet 2 0)]

theorem test_hyp_served_by_owner (s : State) (ht : theftOutstanding s = false)
    (he : s.creds[(0 : CredIx)].state = .empty) :
    ∀ x ∈ ownerBlocks, Serves (asked s x.1) x.1 x.2 true (some 0) (served s x.1) false := by
  intro x hx
  have h : ∀ x ∈ ownerBlocks, parse x.1 = some x.2 ∧ x.1.cred = 0 := by decide +kernel
  exact owner_asked s x.1 x.2 ht (h x hx).1 (h x hx).2 he

theorem test_hyp_served_without_a_credential (s : State) (ht : theftOutstanding s = false) :
    ∀ x ∈ ([(block 3 255 [], .freeze), (block 4 255 [], .journalRead), (block 5 255 [0, 0, 0, 0], .journalMask 0),
        (block 17 255 [1, 1], .lock [1]), (block 96 255 [], .sweepStatus)] : List (RequestBlock × Request)),
      Serves (asked s x.1) x.1 x.2 false none (served s x.1) false := by
  intro x hx
  have h : ∀ x ∈ ([(block 3 255 [], .freeze), (block 4 255 [], .journalRead), (block 5 255 [0, 0, 0, 0], .journalMask 0),
      (block 17 255 [1, 1], .lock [1]), (block 96 255 [], .sweepStatus)] : List (RequestBlock × Request)),
      parse x.1 = some x.2 ∧ x.1.cred = 255 := by decide +kernel
  exact absent_asked s false x.1 x.2 ht (h x hx).1 (h x hx).2

theorem test_hyp_proof_cases :
    let s := fun (st : CredState) => withCred awake 3 ⟨st, some 5, 5, 2, []⟩
    parse (block 34 255 [2]) = some (.credDisable 2) ∧ (block 34 255 [2]).cred = 255 ∧
    (block 34 8 [2]).cred ≠ 255 ∧ 8 ≤ (block 34 8 [2]).cred.toNat ∧ 8 ≤ (block 34 254 [2]).cred.toNat ∧
    (block 34 7 [2]).cred.toNat = (7 : CredIx).val ∧ takesOwner (.credDisable 2) = true ∧ takesOwner .query = false ∧
    awake.creds[(0 : CredIx)].state = .empty ∧ (s .disabled).creds[(3 : CredIx)].state = .disabled ∧
    (s .exhausted).creds[(3 : CredIx)].state = .exhausted ∧ (s .set).creds[(3 : CredIx)].state = .set ∧
    (s .set).creds[(3 : CredIx)].verifier = some 5 := by decide +kernel

theorem test_hyp_mismatch :
    let s := fun (tries strikes limit : Nat) => withCred { asked awake (block 1 3 []) with
      dev := { awake.dev with strikes := strikes, policy := { awake.dev.policy with strikeLimit := limit } } } 3
        ⟨.set, some 5, 5, tries, []⟩
    (s 1 250 0).startUp = none ∧ (s 1 250 0).control.service = some ⟨some 0, block 1 3 [], .start⟩ ∧
    (s 1 250 0).creds[(3 : CredIx)].state = .set ∧ (s 1 250 0).creds[(3 : CredIx)].tries - 1 = 0 ∧
    (s 5 2 3).dev.policy.strikeLimit ≠ 0 ∧ (s 5 2 3).dev.strikes + 1 = (s 5 2 3).dev.policy.strikeLimit ∧
    (s 5 1 3).dev.strikes + 1 ≠ (s 5 1 3).dev.policy.strikeLimit := by decide +kernel

theorem test_hyp_owner_requests :
    parse (block 34 255 [2]) = some (.credDisable 2) ∧ (block 34 255 [2]).cred = 255 ∧
    parse (block 34 0 [2]) = some (.credDisable 2) ∧ (block 34 0 [2]).cred = 0 ∧
    awake.creds[(0 : CredIx)].state = .empty ∧ needsOwner (.credDisable 2) = some true ∧ needsOwner .restart = some false ∧
    (asked (frozen awake) (block 34 0 [2])).control.frozen = true := by decide +kernel

theorem test_hyp_answer :
    let s := asked awake (block 1 255 [])
    let q := { s with control := { s.control with queue := [(5, block 3 255 [])] } }
    let w := { q with writes := [⟨.device {}, .theftClear, []⟩] }
    s.control.service = some ⟨some 0, block 1 255 [], .start⟩ ∧ theftOutstanding s = false ∧ s.control.queue = [] ∧
    theftOutstanding q = false ∧ q.control.queue = (5, block 3 255 []) :: [] ∧ theftOutstanding w = true := by decide +kernel

theorem test_hyp_journal :
    let j := fun (n : Nat) => ({ awake.journal with ring := List.replicate n ⟨0, { kind := .tamper }⟩ } : Journal)
    masked (j 0).mask .powerStep = true ∧ masked (j 0).mask .startUp = false ∧ (j 31).ring.length < 32 ∧
    (j 32).ring.length = 32 ∧ (j 32).ring = ⟨0, { kind := .tamper }⟩ :: (j 31).ring ∧
    parse (block 4 255 []) = some .journalRead ∧ parse (block 5 255 [0xFF, 0xFF, 0xFF, 0xFF]) = some (.journalMask 4294967295) ∧
    (block 5 255 [0xFF, 0xFF, 0xFF, 0xFF]).cred = 255 := by decide +kernel

theorem test_hyp_query :
    let b := block 1 255 []
    starting (asked awake b) = some (b, .query) ∧ checkProof (asked awake b) b false = .passed none false ∧
    passedDirty (asked awake b) false = false ∧
    passedDirty { awake with dev := { awake.dev with strikes := 1 } } true = true ∧
    (let s := ending awake (.device { strikes := some 0 }) .query
     s.startUp = none ∧ s.control.service = some ⟨some 0, block 1 0 [], .query⟩ ∧
     s.writes = ⟨.device { strikes := some 0 }, .control, []⟩ :: []) := by decide +kernel

theorem test_hyp_freeze_and_unknown :
    parse (block 3 255 []) = some .freeze ∧ parse (block 0 255 []) = none ∧ parse (block 34 0 []) = none ∧
    (asked awake (block 0 255 [])).control.service = some ⟨some 0, block 0 255 [], .start⟩ ∧
    theftOutstanding (asked awake (block 0 255 [])) = false := by decide +kernel

theorem test_hyp_restart :
    parse (block 2 0 []) = some .restart ∧ (block 2 0 []).cred = 0 ∧
    (let s := ending awake (.device { strikes := some 0 }) (.restart ⟨1048576, .released, .released, .released⟩)
     theftOutstanding s = false ∧
     theftOutstanding { s with writes := s.writes ++ [⟨.device {}, .theftClear, []⟩] } = true) := by decide +kernel

theorem test_hyp_unlock :
    let b := block 16 2 [1, 1]
    let u := fun (s : State) => passedState (served s b) (some 2) true
    let s := guardedBy2 (withEntry (entry 8 64 .locked .steady)) .readWrite
    parse b = some (.unlock [1]) ∧ b.cred.toNat = (2 : CredIx).val ∧ s.creds[(2 : CredIx)].verifier = some 5 ∧
    toRangeSet (u s) [1] = some [1] ∧ toRangeSet (u s) [] = none ∧ toRangeSet (u s) [1, 1] = none ∧
    toRangeSet (u s) [16] = none ∧
    toRangeSet (u s) [16] = none ∧ toRangeSet (u s) [2] = none ∧ toRangeSet (u s) [15] = none ∧
    grantOf (u s).creds[(2 : CredIx)] 1 = some .readWrite ∧ grantOf (u s).creds[(2 : CredIx)] 0 = none ∧
    (u (guardedBy2 (withEntry (entry 8 64 .locked .draining)) .read)).ranges[(1 : RangeIx)].cond = .draining ∧
    (emptyMediaSlots (u (noSlots s))).length < keyNeed (u (noSlots s)) [1] ∧
    (u s).ranges[(1 : RangeIx)].cond = .steady ∧ (u s).ranges[(1 : RangeIx)].lock = .locked ∧
    (u s).ranges[(1 : RangeIx)].slot = none ∧ (emptyMediaSlots (u s)).head? = some 2 ∧
    (∀ k : SlotIx, (u s).slots[k].held = false) ∧ rekeyOf (u s) 1 = none ∧ (u s).dev.lockedStarts = 0 ∧
    ({ s with dev := { s.dev with lockedStarts := 1 } } : State).dev.lockedStarts ≠ 0 := by decide +kernel

/-- Entry 1 is MIGRATING and LOCKED, entry 2 STEADY and READ_ONLY, and entry 3 STEADY and LOCKED. -/
def threeLocked : State :=
  let s := withEntry { entry 8 64 .locked .migrating with mig := some ⟨16, none, none, none, 2, .yielding, 8⟩ }
  { s with ranges := (s.ranges.set 2 (entry 80 8 .readOnly .steady)).set 3 (entry 88 8 .locked .steady)
           slots := s.slots.set 2 ⟨.loaded, some 3, some (2, 1), some .current, false, 1⟩ }

/-- The state in which an UNLOCK of the three is served, naming credential 2, which guards them, or none. -/
def unlocking (c : Nat) : State :=
  served (withCred threeLocked 2
    ⟨.set, some 5, 5, 3, if c = 2 then [⟨1, .read⟩, ⟨2, .readWrite⟩, ⟨3, .readWrite⟩] else []⟩) (block 16 c [3, 3, 1, 2])

theorem test_hyp_unlock_of_several_ranges :
    parse (block 16 2 [3, 3, 1, 2]) = some (.unlock [3, 1, 2]) ∧
    (∀ c ∈ [2, 255], toRangeSet (unlocking c) [3, 1, 2] = some [3, 1, 2]) ∧
    (∀ c ∈ [2, 255], ([3, 1, 2] : List RangeIx).filter (fun r => (unlocking c).ranges[r].lock = .locked) = [3, 1]) ∧
    (∀ c ∈ [2, 255], wantedKeys (unlocking c) [3, 1] = [(1, .current), (1, .next), (3, .current)]) ∧
    (∀ c ∈ [2, 255], (wantedKeys (unlocking c) [3, 1]).length ≤ (emptyMediaSlots (unlocking c)).length) ∧
    (∀ c ∈ [2, 255], ∀ k : SlotIx, (unlocking c).slots[k].held = false) := by decide +kernel

theorem test_hyp_unlock_of_several_ranges_each :
    (∀ c ∈ [2, 255], ∀ r ∈ ([3, 1, 2] : List RangeIx),
      (unlocking c).ranges[r].cond ≠ .draining ∧ (unlocking c).ranges[r].cond ≠ .purging) ∧
    (∀ r ∈ ([3, 1, 2] : List RangeIx), (grantOf (unlocking 2).creds[(2 : CredIx)] r).isSome = true) ∧
    (∀ r ∈ ([3, 1, 2] : List RangeIx), guarded (unlocking 255) r = false) := by decide +kernel

theorem test_hyp_unlock_keyless : ∀ c ∈ [2, 255], Keyless (unlocking c) [3, 1] := by
  intro c hc
  refine ⟨?_, ?_, ?_⟩
  all_goals revert c
  all_goals decide +kernel

theorem test_hyp_keys_held : ∃ t, KeysHeld threeLocked t [1] ∧ Keyless threeLocked [1] ∧ t ≠ threeLocked := by
  have hw : wantedKeys threeLocked [1] = [(1, .current), (1, .next)] := by decide +kernel
  have he : (emptyMediaSlots threeLocked).take 2 = [3, 4] := by decide +kernel
  have h0 : (emptyMediaSlots threeLocked)[0]? = some 3 := by decide +kernel
  have h1 : (emptyMediaSlots threeLocked)[1]? = some 4 := by decide +kernel
  let slots := (threeLocked.slots.set 3 (keyedSlot threeLocked (1, .current) true)).set 4
    (keyedSlot threeLocked (1, .next) true)
  refine ⟨{ threeLocked with slots := slots }, ⟨rfl, ⟨?_, ?_⟩⟩, ⟨?_, ?_, ?_⟩, ?_⟩
  · intro k x i hx hi
    rw [hw] at hx
    match k with
    | 0 =>
      cases hx
      cases h0.symm.trans hi
      decide +kernel
    | 1 =>
      cases hx
      cases h1.symm.trans hi
      decide +kernel
    | k + 2 => simp at hx
  · rw [hw]
    change ∀ i : SlotIx, i ∉ (emptyMediaSlots threeLocked).take 2 → _
    rw [he]
    decide +kernel
  all_goals decide +kernel

theorem test_hyp_take_up :
    let s := fun (role : Role) (o : Option (RangeIx × Gen)) =>
      { threeLocked with slots := threeLocked.slots.set 5 ⟨.loaded, some 4, o, some role, true, 0⟩ }
    (∀ role ∈ [Role.current, .next], (s role (some (1, 1))).slots[(5 : SlotIx)].held = true ∧
      (s role (some (1, 1))).slots[(5 : SlotIx)].owner = some (1, 1) ∧ (s role none).slots[(5 : SlotIx)].owner = none) ∧
    (threeLocked.ranges[(1 : RangeIx)].slot = none ∧ threeLocked.ranges[(2 : RangeIx)].slot ≠ none ∧
      threeLocked.ranges[(1 : RangeIx)].mig = some ⟨16, none, none, none, 2, .yielding, 8⟩ ∧
      threeLocked.ranges[(3 : RangeIx)].mig = none) ∧
    (threeLocked.ranges[(2 : RangeIx)].lock = .readOnly ∧ running.ranges[(1 : RangeIx)].lock = .opened) ∧
    (let p : Job := { rekeyJob .paused with pause := some .locked }
     rekeyOf (withJob threeLocked p) 1 = some 0 ∧ jobAt (withJob threeLocked p) 0 = some p ∧ rekeyOf threeLocked 1 = none) := by
  decide +kernel

theorem test_hyp_unlock_absent :
    let b := block 16 255 [1, 1]
    let s := withEntry (entry 8 64 .locked .steady)
    starting (asked s b) = some (b, .unlock [1]) ∧ b.cred = 255 ∧ toRangeSet (asked s b) [1] = some [1] ∧
    guarded (asked s b) 1 = false ∧ guarded (asked (guardedBy2 s .read) b) 1 = true ∧
    (asked (withEntry (entry 8 64 .locked .purging)) b).ranges[(1 : RangeIx)].cond = .purging ∧
    (emptyMediaSlots (asked (noSlots s) b)).length < keyNeed (asked (noSlots s) b) [1] ∧
    (asked (withEntry (entry 8 64 .opened .steady)) b).ranges[(1 : RangeIx)].lock = .opened ∧
    (asked s b).ranges[(1 : RangeIx)].slot = none ∧ (emptyMediaSlots (asked s b)).head? = some 2 ∧
    (∀ k : SlotIx, (asked s b).slots[k].held = false) ∧ rekeyOf (asked s b) 1 = none := by decide +kernel

theorem test_hyp_lock :
    let b := block 17 255 [1, 1]
    let s := withEntry (entry 8 64 .opened .steady)
    parse b = some (.lock [1]) ∧ b.cred = 255 ∧ toRangeSet (served s b) [1] = some [1] ∧
    toRangeSet (served s b) [3] = none ∧ guarded (served s b) 1 = false ∧
    guarded (served (guardedBy2 s .read) b) 1 = true := by decide +kernel

theorem test_hyp_cred_set :
    let v : List Byte := List.replicate 32 1
    let b := block 32 0 (2 :: v)
    parse b = some (.credSet 2 (leNat v)) ∧ b.cred = 0 ∧ (2 : Nat) = (2 : CredIx).val ∧
    (served awake b).control.frozen = false ∧ (served (frozen awake) b).control.frozen = true ∧
    parse (block 32 255 (2 :: v)) = some (.credSet 2 (leNat v)) ∧ parse (block 32 0 (8 :: v)) = some (.credSet 8 (leNat v)) ∧
    (let s := withCred awake 3 ⟨.set, some 5, 5, 5, []⟩
     parse (block 32 3 (2 :: v)) = some (.credSet 2 (leNat v)) ∧ (block 32 3 (2 :: v)).cred.toNat = (3 : CredIx).val ∧
     s.creds[(3 : CredIx)].state = .set ∧ s.creds[(3 : CredIx)].verifier = some 5 ∧
     (frozen s).creds[(3 : CredIx)].state = .set ∧ (frozen s).control.frozen = true ∧
     parse (block 32 3 (3 :: v)) = some (.credSet 3 (leNat v)) ∧ parse (block 32 3 (8 :: v)) = some (.credSet 8 (leNat v)) ∧
     parse (block 32 1 (0 :: v)) = some (.credSet 0 (leNat v)) ∧ (block 32 1 (0 :: v)).cred.toNat = (1 : CredIx).val) := by
  decide +kernel

theorem test_hyp_cred_states :
    let s := guardedBy2 (withEntry (entry 8 64 .locked .steady)) .read
    parse (block 34 0 [2]) = some (.credDisable 2) ∧ parse (block 34 0 [8]) = some (.credDisable 8) ∧
    parse (block 35 0 [7]) = some (.credEnable 7) ∧ parse (block 34 0 [0]) = some (.credDisable 0) ∧
    (served s (block 34 0 [2])).control.frozen = false ∧ (served s (block 34 0 [2])).creds[(2 : CredIx)].state ≠ .empty ∧
    (served s (block 35 0 [7])).creds[(7 : CredIx)].state = .empty ∧
    (withCred s 2 ⟨.exhausted, some 5, 5, 0, []⟩).creds[(2 : CredIx)].state = .exhausted := by decide +kernel

theorem test_hyp_cred_budget :
    parse (block 38 0 [2, 1]) = some (.credBudget 2 1) ∧ parse (block 38 0 [2, 15]) = some (.credBudget 2 15) ∧
    parse (block 38 0 [2, 0]) = some (.credBudget 2 0) ∧ parse (block 38 0 [2, 16]) = some (.credBudget 2 16) ∧
    parse (block 38 0 [8, 5]) = some (.credBudget 8 5) ∧ parse (block 38 255 [2, 5]) = some (.credBudget 2 5) ∧
    (served awake (block 38 0 [2, 1])).control.frozen = false := by decide +kernel

theorem test_hyp_grants :
    let s := guardedBy2 (withEntry (entry 8 64 .locked .steady)) .read
    let barred := { s with ranges := s.ranges.set 1 { s.ranges[1] with flags := ⟨.refuse, false, false, false, true⟩ } }
    let u := fun (s : State) => served s (block 36 0 [2, 1, 1])
    parse (block 36 0 [2, 1, 1]) = some (.credGrant 2 1 1) ∧ parse (block 36 0 [2, 1, 2]) = some (.credGrant 2 1 2) ∧
    parse (block 36 0 [1, 1, 0]) = some (.credGrant 1 1 0) ∧ parse (block 37 0 [2, 1]) = some (.credRevoke 2 1) ∧
    parse (block 33 0 [2]) = some (.credClear 2) ∧ parse (block 33 0 [8]) = some (.credClear 8) ∧
    (u s).control.frozen = false ∧ (u s).creds[(2 : CredIx)].state = .set ∧ (u s).ranges[(1 : RangeIx)].active = true ∧
    (∃ g ∈ (u s).creds[(2 : CredIx)].grants, g.range = 1) ∧ (∀ g ∈ (u s).creds[(2 : CredIx)].grants, g.range ≠ 0) ∧
    (u s).ranges[(2 : RangeIx)].active = false ∧ (u s).creds[(3 : CredIx)].state = .empty ∧
    (withCred barred 1 ⟨.set, some 5, 5, 5, []⟩).ranges[(1 : RangeIx)].flags.recoveryBarred = true ∧
    openedByLoss (u s) 2 [1] = [1] ∧ keyNeed (u s) [1] ≤ (emptyMediaSlots (u s)).length ∧
    (emptyMediaSlots (u (noSlots s))).length < keyNeed (u (noSlots s)) (openedByLoss (u (noSlots s)) 2 [1]) ∧
    guarded (u awake) 0 = false ∧ (u awake).ranges[(0 : RangeIx)].slot.isSome = true := by decide +kernel

theorem test_hyp_grants_complete :
    let s := guardedBy2 (withEntry (entry 8 64 .readOnly .steady)) .read
    let t := { s with creds := s.creds.set 2 { s.creds[(2 : CredIx)] with grants := [] } }
    parse (block 36 0 [2, 16, 1]) = some (.credGrant 2 16 1) ∧ parse (block 37 0 [2, 16]) = some (.credRevoke 2 16) ∧
    (∃ g ∈ (ending s (.device {}) (.credGrant 2 1 .readWrite)).creds[(2 : CredIx)].grants, g.range = 1) ∧
    (t.ranges[(1 : RangeIx)].active = true ∧ guarded t 1 = false ∧ t.ranges[(1 : RangeIx)].cond ≠ .draining ∧
      t.ranges[(1 : RangeIx)].lock ≠ .opened ∧ t.ranges[(1 : RangeIx)].slot.isSome = true) ∧ guarded s 1 = true := by
  decide +kernel

theorem test_hyp_range_define :
    let b := block 48 0 [6, 0, 0, 15, 0, 0, 0xC0, 0x7F, 0, 0, 0, 8]
    let u := fun (s : State) => served s b
    parse b = some (.rangeDefine 6 983040 32704 8) ∧ 983040 + 32704 = (u awake).regions.u ∧ 983040 % 8 = 0 ∧ 32704 % 8 = 0 ∧
    parse (block 48 0 [0, 8, 0, 0, 0, 0, 8, 0, 0, 0, 0, 0]) = some (.rangeDefine 0 8 8 0) ∧
    parse (block 48 0 [16, 8, 0, 0, 0, 0, 8, 0, 0, 0, 0, 0]) = some (.rangeDefine 16 8 8 0) ∧
    parse (block 48 0 [15, 8, 0, 0, 0, 0, 0, 0, 0, 0, 0, 0]) = some (.rangeDefine 15 8 0 0) ∧
    (u awake).control.frozen = false ∧ (u awake).ranges[(6 : RangeIx)].active = false ∧
    (∀ q ∈ rangesOfSpan (u awake) 983040 1015744, (u awake).ranges[q].cond = .steady) ∧
    (u (withEntry (entry 8 64 .opened .steady))).ranges[(1 : RangeIx)].active = true ∧
    rangesOfSpan (u (withEntry (entry 8 64 .opened .migrating))) 8 16 = [1] ∧
    emptyMediaSlots (u (noSlots awake)) = [] ∧ (emptyMediaSlots (u awake)).head? = some 2 ∧
    (let s := { awake with slots := awake.slots.set 2 ⟨.loaded, some 9, some (6, 1), some .current, true, 0⟩ }
     (ending s (.rangeFree 6) (.rangeDefine 6 983040 32704 (toFlags 8) 1)).slots[(2 : SlotIx)] =
       ⟨.loaded, some 9, some (6, 1), some .current, true, 0⟩ ∧ ∀ k : SlotIx, k ≠ 2 → s.slots[k].held = false) := by
  decide +kernel

theorem test_hyp_range_delete_and_flags :
    let s := guardedBy2 (withEntry (entry 8 64 .locked .steady)) .read
    let r := withCred s 1 ⟨.set, some 5, 5, 5, [⟨1, .read⟩]⟩
    parse (block 49 0 [1]) = some (.rangeDelete 1) ∧ parse (block 49 0 [0]) = some (.rangeDelete 0) ∧
    parse (block 49 0 [16]) = some (.rangeDelete 16) ∧ parse (block 50 0 [0, 16]) = some (.rangeFlags 0 16) ∧
    (served s (block 49 0 [1])).control.frozen = false ∧ (served s (block 49 0 [1])).ranges[(1 : RangeIx)].active = true ∧
    (served s (block 49 0 [1])).ranges[(1 : RangeIx)].cond = .steady ∧ s.ranges[(15 : RangeIx)].active = false ∧
    (withEntry (entry 8 64 .locked .purging)).ranges[(1 : RangeIx)].cond ≠ .steady ∧ intentOf s 1 = none ∧
    intentOf { s with intents := [⟨1, 1, none, false⟩] } 1 ≠ none ∧ (∀ j : JobNo, jobAt s j = none) ∧
    (toFlags 16).recoveryBarred = true ∧ (grantOf r.creds[(1 : CredIx)] 1).isSome = true ∧
    openedByLoss r 1 [1] = [] ∧
    (let x := withCred (noSlots (withEntry (entry 8 64 .locked .steady))) 1 ⟨.set, some 5, 5, 5, [⟨1, .read⟩]⟩
     (emptyMediaSlots x).length < keyNeed x (openedByLoss x 1 [1])) := by decide +kernel

theorem test_hyp_range_delete_and_flags_complete :
    let s := withCred (withEntry (entry 8 64 .opened .steady)) 1 ⟨.set, some 5, 5, 5, [⟨1, .read⟩]⟩
    let d := ending s (.rangeFree 1) (.rangeDelete 1)
    let f := ending s (.rangeFlags 1 (toFlags 16)) (.rangeFlags 1 (toFlags 16) true)
    (d.startUp = none ∧ nextSlotOf d.ranges[(1 : RangeIx)] = none ∧ d.ranges[(1 : RangeIx)].slot = some 2) ∧
    (f.startUp = none ∧ (grantOf f.creds[(1 : CredIx)] 1).isSome = true) := by decide +kernel

theorem test_hyp_rekey :
    let b := block 51 0 [1, 2, 0, 64]
    let s := withEntry (entry 8 64 .opened .steady)
    let full := { s with sweep := { s.sweep with jobs := Vector.replicate 6 .reserved } }
    parse b = some (.rangeRekey 1 2 0 64) ∧ parse (block 51 0 [1, 1, 1, 8]) = some (.rangeRekey 1 1 1 8) ∧
    parse (block 51 0 [16, 2, 0, 64]) = some (.rangeRekey 16 2 0 64) ∧ parse (block 51 255 [1, 4, 0, 65]) =
      some (.rangeRekey 1 4 0 65) ∧ (served s b).control.frozen = false ∧ (served (frozen s) b).control.frozen = true ∧
    (served s b).ranges[(1 : RangeIx)].active = true ∧ (served s b).ranges[(1 : RangeIx)].lock = .opened ∧
    (served s b).ranges[(1 : RangeIx)].cond = .steady ∧ (served s b).ranges[(2 : RangeIx)].active = false ∧
    freeEntry (served s b) = some 0 ∧ (emptyMediaSlots (served s b)).head? = some 2 ∧ freeEntry (served full b) = none ∧
    emptyMediaSlots (served (noSlots s) b) = [] ∧
    (let h := fun (l : LockState) (c : Condition) =>
       { withEntry (entry 8 64 l c) with slots := awake.slots.set 4 ⟨.loaded, some 9, some (1, 1), some .next, true, 0⟩ }
     (h .opened .steady).slots[(4 : SlotIx)] = ⟨.loaded, some 9, some (1, 1), some .next, true, 0⟩ ∧
     (∀ k : SlotIx, k ≠ 4 → (h .opened .steady).slots[k].held = false) ∧
     (h .locked .draining).ranges[(1 : RangeIx)].cond = .draining ∧ (h .locked .steady).ranges[(1 : RangeIx)].lock = .locked ∧
     (h .locked .steady).ranges[(1 : RangeIx)].cond ≠ .draining) := by decide +kernel

theorem test_hyp_regions :
    let s := { awake with regions := { awake.regions with persistentWritten := true } }
    parse (block 64 0 [0, 0, 15, 0, 0, 1]) = some (.ceilingSet 983040 1) ∧
    parse (block 64 0 [0, 0, 0, 0, 0, 0]) = some (.ceilingSet 0 0) ∧ parse (block 64 0 [1, 0, 0, 0, 0, 0]) = some (.ceilingSet 1 0) ∧
    parse (block 64 0 [0xC0, 0x7F, 15, 0, 0, 1]) = some (.ceilingSet 1015744 1) ∧
    parse (block 64 0 [0xC1, 0x7F, 15, 0, 0, 2]) = some (.ceilingSet 1015745 2) ∧ awake.regions.u = 1015744 ∧
    awake.control.frozen = false ∧ awake.regions.persistentWritten = false ∧ s.regions.persistentWritten = true ∧
    parse (block 65 0 []) = some .reserveOpen ∧ parse (block 65 255 []) = some .reserveOpen ∧
    parse (block 66 0 []) = some .reserveClose ∧ parse (block 67 0 [0, 0x80, 1, 1]) = some (.pbwSet 32768 1 1) ∧
    parse (block 67 0 [8, 0x80, 1, 1]) = some (.pbwSet 32776 1 1) ∧ parse (block 67 0 [4, 0, 2, 0]) = some (.pbwSet 4 2 0) := by
  decide +kernel

theorem test_hyp_wipe :
    let b := block 80 0 [1, 2, 1, 1]
    let s := withEntry (entry 8 64 .opened .steady)
    parse b = some (.wipePrepare 1 2 (some [1])) ∧ parse (block 80 0 [4, 0, 1, 1]) = some (.wipePrepare 4 0 (some [1])) ∧
    parse (block 80 0 [3, 3, 1, 1]) = some (.wipePrepare 3 3 (some [1])) ∧
    parse (block 80 0 [0, 9, 1, 1]) = some (.wipePrepare 0 9 (some [1])) ∧
    parse (block 80 255 [0, 9, 1, 1]) = some (.wipePrepare 0 9 (some [1])) ∧
    toRangeSet (served s b) [1] = some [1] ∧ toRangeSet (served s b) [2] = none ∧
    parse (block 80 0 [1, 2, 255]) = some (.wipePrepare 1 2 none) ∧ toRangeSet (served s b) [0, 1] = some [0, 1] ∧
    (∀ r ∈ [(1 : RangeIx)], s.ranges[r].cond ≠ .draining) ∧
    (served s b).ranges[(1 : RangeIx)].cond ≠ .draining ∧
    (served (withEntry (entry 8 64 .locked .draining)) b).ranges[(1 : RangeIx)].cond = .draining ∧
    (let p : Prepared := ⟨0x1234, 0, [1], some ⟨1, .yielding, .zeros⟩⟩
     let c := { s with control := { s.control with prepared := some p } }
     parse (block 81 0 [0x34, 0x12]) = some (.wipeCommit 0x1234) ∧ parse (block 81 0 [0, 0]) = some (.wipeCommit 0) ∧
     (asked c (block 81 0 [0x34, 0x12])).control.prepared = some p ∧ p.ticket.toNat = 0x1234 ∧
     commitRoom (served c (block 81 0 [0x34, 0x12])) p.set p.purge = true ∧
     commitRoom { c with sweep := { c.sweep with jobs := Vector.replicate 6 .reserved } } p.set p.purge = false) ∧
    (intentOf { s with intents := [⟨1, 1, none, false⟩] } 1).isSome = true := by decide +kernel

theorem test_a_commit_finds_room_in_the_entry_of_a_job_that_it_cancels :
    let full := fun (b : Job) => { awake with sweep := { awake.sweep with jobs := Vector.replicate 6 (.job b) } }
    let o : Option PurgeOpt := some ⟨1, .yielding, .zeros⟩
    commitRoom (full (rekeyJob .queued)) [1] o = true ∧ commitRoom (full (rekeyJob .queued)) [2] o = false ∧
    commitRoom (full (rekeyJob .done)) [2] o = true ∧ commitRoom (full (rekeyJob .queued)) [2] none = true ∧
    commitRoom (full { rekeyJob .queued with kind := .purge, level := 0 }) [1] o = false := by decide +kernel

theorem test_hyp_sweep :
    let s := fun (st : JobState) => withJob (withEntry (entry 8 64 .opened .migrating)) (rekeyJob st)
    let p := fun (lv : Nat) => withJob awake { rekeyJob .queued with kind := .purge, level := lv }
    let moving := withChunk (s .running) (chunk .rekey .reading)
    parse (block 96 255 []) = some .sweepStatus ∧ parse (block 97 0 [0]) = some (.sweepPause 0) ∧
    parse (block 98 0 [5]) = some (.sweepResume 5) ∧ parse (block 99 0 [6]) = some (.sweepCancel 6) ∧
    (∀ j : JobNo, jobAt awake j = none) ∧ jobAt (s .done) 0 = some (rekeyJob .done) ∧ finished (rekeyJob .done) = true ∧
    jobAt (s .running) 0 = some (rekeyJob .running) ∧ finished (rekeyJob .running) = false ∧
    (rekeyJob .running).level ≠ 0 ∧ hasChunk moving 0 = true ∧ hasChunk (s .running) 0 = false ∧
    finished (rekeyJob .paused) = false ∧ finished (rekeyJob .stalled) = false ∧ finished (rekeyJob .queued) = false ∧
    jobAt (p 0) 0 = some { rekeyJob .queued with kind := .purge, level := 0 } ∧
    jobAt (p 3) 0 = some { rekeyJob .queued with kind := .purge, level := 3 } ∧ hasChunk (p 3) 0 = false := by decide +kernel

theorem test_hyp_return_rule :
    let s := withJob (withEntry (entry 8 64 .locked .migrating)) (rekeyJob .paused)
    let o := withJob (withEntry (entry 8 64 .opened .migrating)) (rekeyJob .stalled)
    (jobAt s 0 = some (rekeyJob .paused) ∧ cursorRange (rekeyJob .paused) = some 1 ∧ s.ranges[(1 : RangeIx)].lock = .locked) ∧
    (jobAt o 0 = some (rekeyJob .stalled) ∧ o.ranges[(1 : RangeIx)].lock ≠ .locked ∧ (rekeyJob .stalled).level ≠ 0 ∧
      (inPower o .doze .noOp).power.state = .doze ∧ o.sleepLine = false ∧ o.power.op = .noOp ∧ o.power.state = .active) := by
  decide +kernel

theorem test_hyp_job_ends :
    let b : Job := { rekeyJob .running with kind := .purge, ranges := [1, 2], pattern := some .zeros }
    let s := fun (fin : Bool) => withJob
      { withEntry (entry 8 64 .locked .purging) with
        ranges := (withEntry (entry 8 64 .locked .purging)).ranges.set 2
          { entry 80 8 .locked .draining with finishing := fin }
        intents := [⟨2, 1, none, true⟩] } b
    jobAt (s true) 0 = some b ∧ b.kind = .purge ∧ unfinished b = [1, 2] ∧
    (∀ i : JobNo, i ≠ 0 → jobAt (s true) i = none) ∧ (s true).ranges[(1 : RangeIx)].cond = .purging ∧
    (s true).ranges[(2 : RangeIx)].cond = .draining ∧ (s true).ranges[(2 : RangeIx)].finishing = true ∧
    (finishJob (s true) 0 .failed []).2.ops = [.rangeSteady 1, .rangeSteady 2, .intents [] [2] []] ∧
    (finishJob running 0 .failed []).2.ops = [] ∧
    ([2, 1] : List RangeIx).find? b.ranges.contains = some 2 ∧
    (finishJob (s true) 0 .cancelled ([2, 1].filter (wipeSpares (s true)))).2.steady = [1, 2] ∧
    (finishJob (s false) 0 .cancelled ([2, 1].filter (wipeSpares (s false)))).2.steady = [1] := by decide +kernel

/-- Range 1 drains with a length; the PURGE job of entry 0, with its cursor on range 1, is PREEMPTED at level 2, and that of entry 1
is QUEUED at that level with its cursor on range 0, which is PURGING. -/
def resumes (len : Nat) : State :=
  let b : Job := { rekeyJob .preempted with kind := .purge, lba := 8, pattern := some .zeros }
  let s := withJob (withEntry (entry 8 len .locked .draining)) b
  { s with
    ranges := s.ranges.set 0 { s.ranges[(0 : RangeIx)] with cond := .purging }
    sweep := { s.sweep with
      jobs := s.sweep.jobs.set 1 (.job { b with state := .queued, ranges := [0], lba := 0, stamp := 1 }), stack := [0] } }

/-- R124, case 6: a job resumed from the stack waits on the drain of its range, and the engine chooses the other. -/
theorem test_a_resumed_job_that_waits_on_a_drain_is_queued :
    let t := engine (resumes 64)
    (jobAt t 0).map (·.state) = some .queued ∧ (jobAt t 1).map (·.state) = some .running ∧ t.sweep.stack = [1] ∧
    t.sweep.chunk.map (fun c => (c.job, c.range)) = some (1, 0) := by decide +kernel

theorem test_hyp_engine :
    let b : Job := { rekeyJob .running with kind := .purge, lba := 16, pattern := some .zeros }
    let s := fun (len : Nat) (b : Job) => withJob (withEntry (entry 8 len .locked .purging)) b
    let two := { s 8 b with sweep := { (s 8 b).sweep with stack := [0], jobs := (s 8 b).sweep.jobs.set 1 (.job
      { b with state := .queued, stamp := 1 }) } }
    (inPhase .load none).startUp.isSome = true ∧ (freeToRun running = true ∧ running.sweep.chunk = none) ∧
    (freeToRun (inPower awake .sleep .noOp) = false ∧ (withChunk running (chunk .rekey .pass)).sweep.chunk.isSome = true) ∧
    (∀ r, lacksRekey awake r = false ∧ lacksPurge awake r = none) ∧
    (passesRange (choose (createUnscheduled (settleTurn two 0 .went))) = some 0 ∧
      passesRange (choose (createUnscheduled (settleTurn running 0 .went))) = none ∧ runningJob two = some 0) ∧
    (runningWaits (choose (createUnscheduled (settleTurn two 0 .went))) = false ∧
      runningJob (resumes 8) = none ∧ runningWaits (choose (createUnscheduled (resumes 8))) = true) ∧
    (runningJob (s 64 b) = some 0 ∧ cursorRange b = some 1 ∧ 16 < clippedEnd (s 64 b) 1 ∧ clippedEnd (s 8 b) 1 ≤ 16 ∧
      clippedEnd (s 8 (rekeyJob .running)) 1 ≤ 16 ∧ b.level ≠ 0) := by decide +kernel

/-- Two jobs: the one of entry 0 at level 2 in a state, the one of entry 1 QUEUED at a level. -/
def twoJobs (st : JobState) (level : Nat) (stack : List JobNo) : State :=
  let s := withJob (withEntry (entry 8 64 .opened .migrating)) (rekeyJob st)
  { s with sweep := { s.sweep with
      jobs := s.sweep.jobs.set 1 (.job { rekeyJob .queued with level := level, stamp := 1 }), stack := stack } }

theorem test_hyp_choice :
    let most := fun (s : State) => (mostUrgent s).map (fun x => (x.1, x.2.level))
    (runningJob (twoJobs .running 1 [0]) = some 0 ∧ most (twoJobs .running 1 [0]) = some (1, 1)) ∧
    most (twoJobs .running 2 [0]) = some (1, 2) ∧
    (runningJob (twoJobs .preempted 1 [0]) = none ∧ (twoJobs .preempted 1 [0]).sweep.stack = 0 :: [] ∧
      jobAt (twoJobs .preempted 1 [0]) 0 = some (rekeyJob .preempted)) ∧
    (runningJob (twoJobs .paused 1 []) = none ∧ (twoJobs .paused 1 []).sweep.stack = []) := by decide +kernel

theorem test_hyp_settle :
    let b := rekeyJob .running
    let p : Job := { b with kind := .purge }
    jobAt running 0 = some b ∧ running.startUp = none ∧ cursorRange b = some 1 ∧ cursorRange { b with pos := 1 } = none ∧
    ({ b with wipeSet := [1] } : Job).wipeSet ≠ [] ∧ b.ranges = [1] ∧ b.wipeSet = [] ∧ b.pending ≠ .cancel ∧
    ({ b with pending := .pause } : Job).pending = .pause ∧ running.ranges[(1 : RangeIx)].lock ≠ .locked ∧
    (withEntry (entry 8 64 .locked .migrating)).ranges[(1 : RangeIx)].lock = .locked ∧ running.sleepLine = false ∧
    ({ running with sleepLine := true } : State).sleepLine = true ∧ p.kind = .purge ∧ p.policy = .yielding ∧
    ({ p with pending := .cancel } : Job).pending = .cancel := by decide +kernel

theorem test_hyp_most_urgent :
    let s := fun (a b : Nat) => { awake with sweep := { awake.sweep with
      jobs := (awake.sweep.jobs.set 1 (.job { rekeyJob .queued with stamp := a })).set 4
        (.job { rekeyJob .queued with stamp := b }) } }
    (mostUrgent (s 0 1)).map (·.1) = some 1 ∧ (mostUrgent (s 1 0)).map (·.1) = some 4 ∧ (mostUrgent awake).isNone = true := by
  decide +kernel

theorem test_hyp_policies :
    let ps : List Byte := [250, 15, 3, 0, 3, 2, 0, 2, 255, 2, 1, 255, 255, 1]
    let lines := [0, 3, 2, 0, 2, 255, 2, 1, 255]
    parse (block 112 0 ps) = some (.theftSet 250 15 3 lines 255 1) ∧ (toTheftPolicy 250 15 3 lines 255).isSome = true ∧
    toTheftPolicy 251 15 3 lines 255 = none ∧ toTheftPolicy 250 16 3 lines 255 = none ∧ toTheftPolicy 250 15 4 lines 255 = none ∧
    toTheftPolicy 250 15 3 [0, 3, 0, 0, 2, 255, 2, 1, 255] 255 = none ∧ awake.control.frozen = false ∧
    parse (block 113 0 [0, 255]) = some (.powerSet 0 255) := by decide +kernel

theorem test_the_bounds_of_a_theft_policy :
    (toTheftPolicy 250 15 3 [2, 3, 255, 2, 3, 2, 2, 3, 1] 255).isSome = true ∧
    (∀ l ∈ [[3, 0, 255, 0, 0, 255, 0, 0, 255], [0, 0, 255, 0, 4, 255, 0, 0, 255], [0, 0, 255, 0, 0, 255, 0, 0, 3],
      [0, 0, 255, 0, 0, 1, 0, 0, 255]], toTheftPolicy 0 0 0 l 0 = none) ∧
    toTheftPolicy 0 0 0 [0, 0, 255, 0, 0, 255, 0, 0, 255] 256 = none := by decide +kernel

theorem test_hyp_formats : (block 1 0 (List.replicate 255 7)).wf = true := by decide +kernel

end Sys2Proof.Tests
end

section
/-! One step on an empty queue, the state at reset, and the answer of the control unit. -/

namespace Sys2Proof.Machine

/-! ## A step (O1) -/

theorem tickTag_eq (x : TagState) : tickTag x =
    match x with
    | .busy q age => .busy q (age + 1)
    | .free => .free
    | .quarantined => .quarantined := by
  cases x <;> rfl

/-- The timers of the theft monitor in one microsecond of a powered part. -/
theorem tickTheft_eq {s : State} (hp : s.powered = true) : tickTheft s =
    let aged := fun (f : Filter) => if s.theft.sampling then { f with age := f.age + 1 } else f
    { s.theft with
      caseLine := aged s.theft.caseLine, bayLine := aged s.theft.bayLine, serviceLine := aged s.theft.serviceLine
      elapsed := s.theft.elapsed +
        if s.startUp = none ∧ s.power.state ≠ .sleep ∧ s.power.op ≠ .wakeSleep then 1 else 0 } := by
  have hr : relockRuns s = true ↔ s.startUp = none ∧ s.power.state ≠ .sleep ∧ s.power.op ≠ .wakeSleep := by
    simp [relockRuns, hp, and_assoc]
  unfold tickTheft
  simp only [hr]
  generalize s.theft = t
  obtain ⟨a, b, c, sampling, elapsed, expired⟩ := t
  cases sampling <;> split <;> rfl

/-- Settles O1: the queue decides between the command at its front and one microsecond. -/
theorem stepRunsTheFrontCommand : Obligations.StepRunsTheFrontCommand := by
  refine ⟨fun c q s => rfl, fun s hq hp => ?_, fun s hq hp => ?_⟩
  · simp [step, hq, tick, hp]
  · refine ⟨vmap tickTag s.media.tags, ?_, fun i => ?_⟩
    · simp only [step, hq, tick, hp, if_true, tickTheft_eq hp, tickPower, Bool.or_eq_true, Bool.and_eq_true,
        decide_eq_true_eq]
    · exact (vmap_getElem tickTag s.media.tags i).trans (tickTag_eq _)

/-! ## Reset (O2) -/

theorem reset_jobAt (j : JobNo) : jobAt State.reset j = none := by
  revert j; decide

theorem reset_stackOrdered : StackOrdered State.reset where
  once := List.nodup_nil
  ordered := List.Pairwise.nil
  running j b h := by simp [reset_jobAt] at h
  preempted j b h := by simp [reset_jobAt] at h
  onStack j h := by cases h
  entryHeld v r j l p k h := by cases h

theorem reset_slots (i : SlotIx) : State.reset.slots[i] = emptySlot := by
  simp [State.reset]

theorem reset_namings (i : SlotIx) : namings State.reset i = 0 := by
  have h : ∀ r : RangeIx, State.reset.ranges[r].slot = none ∧ nextSlotOf State.reset.ranges[r] = none := by decide
  simp [namings, h, -Fin.getElem_fin]

theorem reset_referencesCounted : ReferencesCounted State.reset where
  counted i := by rw [reset_slots, reset_namings]; rfl
  once i := by simp [reset_namings]
  named i h := by simp [reset_namings] at h
  inUse i _ h := by rw [reset_slots] at h; cases h
  waits i h := by rw [reset_slots] at h; cases h

theorem reset_masked (k : Kind) : masked State.reset.journal.mask k = true ↔ k = .powerStep := by
  cases k <;> decide

theorem reset_triesBounded : TriesBounded State.reset := by
  unfold TriesBounded; decide

theorem reset_bounded : Bounded State.reset := ⟨by decide, by decide, by decide, by decide⟩

theorem reset_slotsClean : SlotsClean State.reset := fun i => by rw [reset_slots]; rfl

/-- Settles O2: the fields of the reset state one by one, and the invariants on its empty tables. -/
theorem invariantsHoldAtReset : Obligations.InvariantsHoldAtReset := by
  refine ⟨rfl, rfl, rfl, rfl, rfl, by decide, rfl, rfl, by decide, rfl, rfl, rfl, rfl, by decide, rfl, reset_slots,
    by decide, by decide, by decide, rfl, rfl, rfl, rfl, rfl, rfl, rfl, rfl, rfl, rfl, by decide, rfl, rfl, rfl, rfl,
    rfl, rfl, rfl, rfl, rfl, rfl, reset_masked, ⟨rfl, rfl, rfl, by decide, ⟨Config.newKey 0, rfl⟩, by decide⟩,
    reset_triesBounded, reset_slotsClean, reset_bounded, reset_stackOrdered, reset_referencesCounted⟩

/-! ## The answer of the request in service (O42) -/

/-- A unit with no request in service takes the oldest waiting one, where no theft wipe's store write is outstanding. -/
theorem takeNext_idle {s : State} (hv : s.control.service = none) :
    ((theftOutstanding s = true ∨ s.control.queue = []) → takeNext s = s) ∧
    (theftOutstanding s = false → ∀ x q, s.control.queue = x :: q → takeNext s =
      { s with control := { s.control with service := some ⟨some x.1, x.2, .start⟩, queue := q } }) := by
  unfold takeNext
  refine ⟨fun h => ?_, fun ht x q hq => ?_⟩
  · rcases h with ht | hq
    · rw [if_neg (by simp [ht])]
    · rw [hq]
      split <;> rfl
  · rw [if_pos (by simp [hv, ht]), hq]

/-- Settles O42: the completion leaves the queue and the store's writes to the unit's next choice. -/
theorem answerCompletesTheTransaction : Obligations.AnswerCompletesTheTransaction := by
  intro s v r hv a
  have hr : respond s r = takeNext { a with control := { s.control with service := none } } := by
    unfold respond
    rw [hv]
    cases hv' : v.tag with
    | none => simp only [a, hv']
    | some x => simp only [a, hv']; rfl
  have ha : theftOutstanding { a with control := { s.control with service := none } } = theftOutstanding s := by
    simp only [a]
    cases v.tag <;> rfl
  have hn := takeNext_idle (s := { a with control := { s.control with service := none } }) rfl
  rw [ha] at hn
  rw [hr]
  exact ⟨hn.1, hn.2⟩

end Sys2Proof.Machine
end

section
/-! Arrival and admission: the arrival checks, the power state's part, and what admission makes of a span's decided pieces. -/

namespace Sys2Proof.Machine

/-! ## Completions and stages -/

/-- A completion is what the statements call a closed transaction. -/
theorem complete_eq_closed (s : State) (t : FrontTag) (st : Status) (data : List Block) (resp : Option Response) :
    complete s t st data resp = closed s t st data resp := rfl

theorem closed_standing (s : State) (d : Descriptor) (c : FrontClass) (stage : Stage) (st : Status) (data : List Block)
    (resp : Option Response) : closed (standing s d c stage) d.tag st data resp = closed s d.tag st data resp := by
  simp [closed, standing, Vector.set_set]

theorem standing_taken (s : State) (d : Descriptor) (c : FrontClass) (stage stage' : Stage) :
    standing (taken s d c stage) d c stage' = taken s d c stage' := by
  simp [taken, standing, Vector.set_set]

/-- The stage of an arriving transaction is gone with its completion. -/
theorem closed_taken (s : State) (d : Descriptor) (c : FrontClass) (stage stage' : Stage) (st : Status) (data : List Block)
    (resp : Option Response) :
    closed (taken s d c stage) d.tag st data resp = closed (taken s d c stage') d.tag st data resp := by
  simp [closed, taken, Vector.set_set]

theorem taken_stands (s : State) (d : Descriptor) (c : FrontClass) (stage : Stage) : Stands (taken s d c stage) d c :=
  ⟨stage, by simp [taken]⟩

/-- A transaction that holds its tag moves to a stage. -/
theorem Stands.setStage {s : State} {d : Descriptor} {c : FrontClass} (h : Stands s d c) (stage : Stage) :
    setStage s d.tag stage = standing s d c stage := by
  obtain ⟨stage', h⟩ := h
  simp only [Machine.setStage, h]
  rfl

/-! ## The arrival checks (R2, R185) -/

theorem classOf_eq_none_iff (n : Byte) : classOf n = none ↔ 4 < n.toNat := by
  unfold classOf
  split <;> simp_all
  omega

/-- READ, WRITE and TRIM are the classes with a span. -/
theorem hasSpan_of_classOf {n : Byte} {c : FrontClass} (h : classOf n = some c) : hasSpan c = true ↔ n.toNat ≤ 2 := by
  unfold classOf at h
  split at h <;> cases h <;> simp [hasSpan, *]

/-- The arrival checks fail exactly on the descriptors that the statements call malformed. -/
theorem arrivalClass_eq_none_iff (s : State) (d : Descriptor) : arrivalClass s d = none ↔ Malformed s d := by
  unfold arrivalClass Malformed
  cases hc : classOf d.cls with
  | none => simp [(classOf_eq_none_iff _).1 hc]
  | some c =>
    have h4 : ¬ 4 < d.cls.toNat := fun h => by simp [(classOf_eq_none_iff _).2 h] at hc
    have hspan : (hasSpan c && (d.count.toNat < 1 || 65536 < d.count.toNat || 2 ^ 40 < d.start.toNat + d.count.toNat)) = true ↔
        d.cls.toNat ≤ 2 ∧ (d.count.toNat < 1 ∨ 65536 < d.count.toNat ∨ 2 ^ 40 < d.start.toNat + d.count.toNat) := by
      simp only [Bool.and_eq_true, Bool.or_eq_true, decide_eq_true_eq, hasSpan_of_classOf hc, or_assoc]
    rw [← hspan]
    dsimp only
    split
    · rename_i ht
      exact ⟨fun _ => Or.inl ht, fun _ => rfl⟩
    · split
      · rename_i ht hs
        exact ⟨fun _ => Or.inr (Or.inr hs), fun _ => rfl⟩
      · rename_i ht hs
        refine ⟨fun k => absurd k (Option.some_ne_none c), fun k => ?_⟩
        rcases k with k | k | k
        · exact absurd k ht
        · exact absurd k h4
        · exact absurd k hs

theorem arrivalClass_of_legal {s : State} {d : Descriptor} {c : FrontClass} (hm : ¬ Malformed s d)
    (hc : classOf d.cls = some c) : arrivalClass s d = some c := by
  have hn : arrivalClass s d ≠ none := fun h => hm ((arrivalClass_eq_none_iff s d).1 h)
  unfold arrivalClass at hn ⊢
  rw [hc] at hn ⊢
  dsimp only at hn ⊢
  split at hn
  · exact absurd rfl hn
  · split at hn
    · exact absurd rfl hn
    · rename_i h1 h2
      rw [if_neg h1, if_neg h2]

/-- A descriptor that passes the arrival checks takes its tag, and goes on by the power state. -/
theorem exec_frontTransaction_legal {s : State} {d : Descriptor} {c : FrontClass} (hp : s.powered = true)
    (hm : ¬ Malformed s d) (hc : classOf d.cls = some c) :
    exec (.frontTransaction d) s = .next (passOn (taken s d c .waiting) d.tag) := by
  show execFrontTransaction d s = _
  unfold execFrontTransaction
  rw [arrivalClass_of_legal hm hc, if_neg (by simp [hp])]
  rfl

/-- Settles O8: the arrival checks come first, then the sleep request line, start-up and the power state. -/
theorem arrivalIsJudgedBeforeAdmission : Obligations.ArrivalIsJudgedBeforeAdmission := by
  refine ⟨fun s d hp hm => ?_, fun s d c hp hm hc => ?_⟩
  · show execFrontTransaction d s = _
    rw [execFrontTransaction, (arrivalClass_eq_none_iff s d).2 hm, if_neg (by simp [hp])]
    rfl
  · intro u waits
    have hline : u.sleepLine = s.sleepLine := rfl
    have hstart : u.startUp = s.startUp := rfl
    have hop : u.power.op = s.power.op := rfl
    have hstate : u.power.state = s.power.state := rfl
    rw [exec_frontTransaction_legal hp hm hc]
    unfold passOn
    refine ⟨fun hl => ?_, fun hl hs => ?_, fun hl hs ho => ?_, fun hl hs ho hd => ?_, fun hl hs ho hi => ?_⟩
    · rw [if_pos (hline.trans hl)]
      rfl
    · rw [if_neg (by simp [u, hline, hl]), if_pos (by rw [hstart, hs])]
      rfl
    all_goals
      rw [if_neg (by simp [u, hline, hl]), if_neg (by simp [u, hstart, hs])]
    · rcases ho with ho | ho <;> rw [hop.trans ho] <;> rfl
    · rw [hop.trans ho, hstate.trans hd]
      rfl
    · rw [hop.trans ho, hstate.trans hi]

/-- In ACTIVE with no operation in progress, an arriving transaction passes to admission at once. -/
theorem ArrivesActive.admitted {s : State} {d : Descriptor} {c : FrontClass} (h : ArrivesActive s d c) :
    exec (.frontTransaction d) s = .next (admitTxn (taken s d c .waiting) d.tag) := by
  have hline : (taken s d c .waiting).sleepLine = false := h.awake
  have hstart : (taken s d c .waiting).startUp = none := h.started
  have hop : (taken s d c .waiting).power.op = .noOp := h.noOp
  have hstate : (taken s d c .waiting).power.state = .active := h.active
  rw [exec_frontTransaction_legal h.powered h.legal h.cls, passOn, hline, hstart, hop, hstate]
  rfl

/-! ## What an arrival leaves as it was for admission -/

theorem piecesOf_taken (s : State) (d : Descriptor) (c : FrontClass) (stage : Stage) :
    piecesOf (taken s d c stage) d c = piecesOf s d c := rfl

theorem decidePiece_taken (s : State) (d : Descriptor) (c : FrontClass) (stage : Stage) (p : Piece) :
    decidePiece (taken s d c stage) c p = decidePiece s c p := rfl

theorem mediaAddr_taken (s : State) (d : Descriptor) (c : FrontClass) (stage : Stage) (p : Piece) :
    mediaAddr (taken s d c stage) p = mediaAddr s p := rfl

theorem spanPasses_taken (s : State) (d : Descriptor) (c : FrontClass) (stage : Stage) :
    SpanPasses (taken s d c stage) d ↔ SpanPasses s d := Iff.rfl

/-! ## Admission of a span (R5 to R9) -/

/-- The pieces of a descriptor's span with their decisions. -/
def decided (s : State) (d : Descriptor) (c : FrontClass) : List (Piece × Decision) :=
  (piecesOf s d c).map (fun p => (p, decidePiece s c p))

theorem Stands.admitTxn_span {s : State} {d : Descriptor} {c : FrontClass} (h : Stands s d c) (hc : hasSpan c = true) :
    admitTxn s d.tag = admitData s d.tag c d.start.toNat (d.start.toNat + d.count.toNat) := by
  obtain ⟨stage, h⟩ := h
  unfold admitTxn
  rw [h]
  cases c with
  | read => rfl
  | write => rfl
  | trim => rfl
  | flush => cases hc
  | control => cases hc

theorem Stands.admitTxn_outOfRange {s : State} {d : Descriptor} {c : FrontClass} (h : Stands s d c) (hc : hasSpan c = true)
    (hs : ¬ SpanPasses s d) : admitTxn s d.tag = closed s d.tag .outOfRange [] none := by
  rw [h.admitTxn_span hc, admitData, if_pos]
  · rfl
  · unfold SpanPasses at hs
    simp only [Bool.or_eq_true, Bool.and_eq_true, decide_eq_true_eq, Bool.not_eq_true']
    cases hr : s.regions.reserveView <;> simp only [hr, and_true, or_true, reduceCtorEq, or_false, and_false] at hs ⊢ <;> omega

theorem Stands.admitTxn_decided {s : State} {d : Descriptor} {c : FrontClass} (h : Stands s d c) (hc : hasSpan c = true)
    (hs : SpanPasses s d) : admitTxn s d.tag =
      match firstRefusal (decided s d c) with
      | some st => closed s d.tag st [] none
      | none =>
        if (decided s d c).any (fun p => p.2 = .hold) then holdTxn s d.tag
        else completeIfDone ((decided s d c).foldl (admitSeg d.tag c) (standing s d c .admitted)) d.tag := by
  obtain ⟨hu, hr⟩ := hs
  rw [h.admitTxn_span hc, admitData, if_neg, h.setStage]
  · rfl
  · simp only [Bool.or_eq_true, Bool.and_eq_true, decide_eq_true_eq, Bool.not_eq_true', not_or, not_and]
    refine ⟨by omega, fun hlt hf => ?_⟩
    rcases hr with hr | hr
    · omega
    · rw [hr] at hf; cases hf

/-- The first refusal is the status of the lowest refused piece. -/
theorem firstRefusal_append {pre post : List (Piece × Decision)} {p : Piece} {st : Status}
    (h : ∀ x ∈ pre, ∀ st', x.2 ≠ .refused st') : firstRefusal (pre ++ (p, .refused st) :: post) = some st := by
  induction pre with
  | nil => rfl
  | cons x pre ih =>
    obtain ⟨q, y⟩ := x
    have hx := h _ List.mem_cons_self
    have ih := ih (fun x hx => h x (List.mem_cons_of_mem _ hx))
    cases y with
    | refused st' => exact absurd rfl (hx st')
    | hold => exact ih
    | blank => exact ih
    | damaged => exact ih
    | bound slot => exact ih

theorem firstRefusal_eq_none {l : List (Piece × Decision)} (h : ∀ x ∈ l, ∀ st, x.2 ≠ .refused st) :
    firstRefusal l = none := by
  induction l with
  | nil => rfl
  | cons x l ih =>
    obtain ⟨q, y⟩ := x
    have hx := h _ List.mem_cons_self
    have ih := ih (fun x hx => h x (List.mem_cons_of_mem _ hx))
    cases y with
    | refused st => exact absurd rfl (hx st)
    | hold => exact ih
    | blank => exact ih
    | damaged => exact ih
    | bound slot => exact ih

theorem Stands.admitTxn_refused {s : State} {d : Descriptor} {c : FrontClass} (h : Stands s d c) (hc : hasSpan c = true)
    (hs : SpanPasses s d) {pre : List Piece} {p : Piece} {post : List Piece} {st : Status}
    (hp : piecesOf s d c = pre ++ p :: post) (hd : decidePiece s c p = .refused st)
    (hpre : ∀ q ∈ pre, ∀ st', decidePiece s c q ≠ .refused st') : admitTxn s d.tag = closed s d.tag st [] none := by
  have hf : firstRefusal (decided s d c) = some st := by
    rw [decided, hp, List.map_append, List.map_cons, hd]
    refine firstRefusal_append (fun x hx => ?_)
    obtain ⟨q, hq, rfl⟩ := List.mem_map.1 hx
    exact hpre q hq
  rw [h.admitTxn_decided hc hs, hf]

/-- Settles O9: the span check, then the lowest refused piece, on the transaction as it stands. -/
theorem refusedTransactionCompletes : Obligations.RefusedTransactionCompletes := by
  refine ⟨fun s d c ha hc => ?_, fun s d c ha => ha.admitted, fun s d c h hc => ?_⟩
  · have h := taken_stands s d c .waiting
    refine ⟨fun hs => ?_, fun hs pre p post st hp hd hpre => ?_⟩
    · rw [ha.admitted, h.admitTxn_outOfRange hc hs]
    · rw [ha.admitted, h.admitTxn_refused hc hs hp hd hpre]
  · exact ⟨h.admitTxn_outOfRange hc, fun hs pre p post st => h.admitTxn_refused hc hs⟩

/-- With no refused segment and one that touches a fence, the transaction is taken to the fence hold list. -/
theorem Stands.admitTxn_fenced {s : State} {d : Descriptor} {c : FrontClass} (h : Stands s d c) (hc : hasSpan c = true)
    (hs : SpanPasses s d) (hr : ∀ p ∈ piecesOf s d c, ∀ st, decidePiece s c p ≠ .refused st)
    (hf : ∃ p ∈ piecesOf s d c, decidePiece s c p = .hold) : admitTxn s d.tag = holdTxn s d.tag := by
  have hn : firstRefusal (decided s d c) = none := firstRefusal_eq_none (fun x hx => by
    obtain ⟨q, hq, rfl⟩ := List.mem_map.1 hx
    exact hr q hq)
  have hany : (decided s d c).any (fun p => p.2 = .hold) = true := by
    obtain ⟨p, hp, e⟩ := hf
    exact List.any_eq_true.2 ⟨_, List.mem_map_of_mem hp, by simpa using e⟩
  rw [h.admitTxn_decided hc hs, hn]
  exact if_pos hany

theorem Stands.holdTxn_room {s : State} {d : Descriptor} {c : FrontClass} (h : Stands s d c)
    (hl : s.front.held.length < 8) :
    let u := standing s d c .held
    holdTxn s d.tag = { u with front := { u.front with held := u.front.held ++ [d.tag] } } := by
  rw [holdTxn, if_pos hl, h.setStage]

theorem holdTxn_full {s : State} {t : FrontTag} (hl : 8 ≤ s.front.held.length) :
    holdTxn s t = closed s t .retry [] none := by
  rw [holdTxn, if_neg (by omega)]
  rfl

/-- Settles O10: the hold list takes the transaction while it has room. -/
theorem fencedTransactionIsHeld : Obligations.FencedTransactionIsHeld := by
  refine ⟨fun s d c ha hc hs hr hf => ?_, fun s d c h hc hs hr hf => ?_⟩
  · have h := taken_stands s d c .waiting
    rw [ha.admitted, h.admitTxn_fenced hc hs hr hf]
    refine ⟨fun hl => ?_, fun hl => ?_⟩
    · rw [h.holdTxn_room hl, standing_taken]
    · rw [holdTxn_full (s := taken s d c .waiting) hl, closed_taken s d c .waiting .held]
  · rw [h.admitTxn_fenced hc hs hr hf]
    exact ⟨h.holdTxn_room, holdTxn_full⟩

/-! ## FLUSH and CONTROL (R22, R23, R174) -/

theorem Stands.admitTxn_flush {s : State} {d : Descriptor} (h : Stands s d .flush) :
    (flushSet s ≠ [] → admitTxn s d.tag = standing s d .flush (.flushWait (flushSet s))) ∧
    (flushSet s = [] → admitTxn s d.tag = { standing s d .flush .flushOut with
      media := { s.media with waiting := s.media.waiting ++ [⟨.flush, 0, 0, [], .flush d.tag⟩] } }) := by
  have e : admitTxn s d.tag = admitFlush s d.tag := by
    obtain ⟨stage, h⟩ := h
    rw [admitTxn, h]
  refine ⟨fun hb => ?_, fun hb => ?_⟩
  · rw [e, admitFlush, if_neg (by simpa using hb), h.setStage]
  · rw [e, admitFlush, if_pos (by simpa using hb), issueFlush, h.setStage]
    rfl

theorem Stands.admitTxn_control {s : State} {d : Descriptor} (h : Stands s d .control) :
    let u := standing s d .control .control
    let waits := s.control.service.isSome = true ∨ s.control.queue ≠ [] ∨ theftOutstanding s = true
    (¬ waits → admitTxn s d.tag =
      { u with control := { s.control with service := some ⟨some d.tag, d.block, .start⟩ } }) ∧
    (waits → s.control.queue.length < 4 → admitTxn s d.tag =
      { u with control := { s.control with queue := s.control.queue ++ [(d.tag, d.block)] } }) ∧
    (waits → 4 ≤ s.control.queue.length → admitTxn s d.tag = closed s d.tag .retry [] none) := by
  intro u waits
  have e : admitTxn s d.tag = offerControl s d.tag d.block := by
    obtain ⟨stage, h⟩ := h
    rw [admitTxn, h]
  have hw : (s.control.service.isNone && s.control.queue.isEmpty && !theftOutstanding s) = true ↔ ¬ waits := by
    simp [waits, and_assoc]
  rw [e, offerControl]
  refine ⟨fun hn => ?_, fun hy hl => ?_, fun hy hl => ?_⟩
  · rw [if_pos (hw.2 hn), h.setStage]
  · rw [if_neg (fun k => hw.1 k hy), if_pos hl, h.setStage]
  · rw [if_neg (fun k => hw.1 k hy), if_neg (by omega)]
    rfl

/-- Settles O13: a FLUSH by its wait set, a CONTROL transaction by the unit and its queue. -/
theorem flushAndControlAreAdmitted : Obligations.FlushAndControlAreAdmitted := by
  refine ⟨fun s d c ha => ?_, fun s d c h => ?_⟩
  · have h := taken_stands s d c .waiting
    intro busy u waits
    rw [ha.admitted]
    refine ⟨?_, ?_, ?_, ?_, ?_⟩
    · rintro rfl hb
      rw [h.admitTxn_flush.1 hb, standing_taken]
      rfl
    · rintro rfl hb
      rw [h.admitTxn_flush.2 hb, standing_taken]
      rfl
    · rintro rfl hs hq ht
      have hn : ¬ waits := by simp [waits, hs, hq, ht]
      rw [h.admitTxn_control.1 hn, standing_taken]
      rfl
    · rintro rfl hw hl
      rw [h.admitTxn_control.2.1 hw hl, standing_taken]
      rfl
    · rintro rfl hw hl
      rw [h.admitTxn_control.2.2 hw hl, closed_taken s d .control .waiting .control]
  · refine ⟨?_, ?_, ?_, ?_, ?_⟩
    · rintro rfl
      exact h.admitTxn_flush.1
    · rintro rfl
      exact h.admitTxn_flush.2
    · rintro rfl
      exact h.admitTxn_control.1
    · rintro rfl
      exact h.admitTxn_control.2.1
    · rintro rfl
      exact h.admitTxn_control.2.2

end Sys2Proof.Machine
end

section
/-! Cutting and deciding: where a span is cut, that its pieces cover it, and the table that decides a piece. -/

namespace Sys2Proof.Machine

/-! ## Cutting at points -/

theorem Covers.append {lo mid hi : Nat} {a b : List Piece} (ha : Covers lo mid a) (hb : Covers mid hi b) :
    Covers lo hi (a ++ b) := by
  induction a generalizing lo with
  | nil => cases ha; exact hb
  | cons p a ih =>
    obtain ⟨hp, hl, ha⟩ := ha
    exact ⟨hp, hl, ih ha⟩

/-- Pieces that cover a span have its length together. -/
theorem Covers.sum_len {lo hi : Nat} {l : List Piece} (h : Covers lo hi l) : lo + (l.map (·.len)).sum = hi := by
  induction l generalizing lo with
  | nil => exact h
  | cons p l ih =>
    obtain ⟨-, -, h⟩ := h
    have := ih h
    simp only [List.map_cons, List.sum_cons]
    omega

/-- The runs of a cut lie in the span, are not empty, and hold no cut in their inside. -/
theorem mem_cutSpan {lo hi : Nat} {ps : List Nat} {x : Run} (hlt : lo < hi) (hs : ps.Pairwise (· < ·))
    (hb : ∀ p ∈ ps, lo < p ∧ p < hi) (hx : x ∈ cutSpan lo hi ps) :
    lo ≤ x.start ∧ 0 < x.len ∧ x.start + x.len ≤ hi ∧ ∀ q ∈ ps, ¬ (x.start < q ∧ q < x.start + x.len) := by
  induction ps generalizing lo with
  | nil =>
    cases List.mem_singleton.1 hx
    refine ⟨Nat.le_refl _, ?_, ?_, by simp⟩ <;> dsimp only <;> omega
  | cons p ps ih =>
    obtain ⟨hp, hs⟩ := List.pairwise_cons.1 hs
    obtain ⟨hlp, hph⟩ := hb p List.mem_cons_self
    rcases List.mem_cons.1 hx with rfl | hx
    · refine ⟨Nat.le_refl _, ?_, ?_, fun q hq => ?_⟩
      · dsimp only; omega
      · dsimp only; omega
      · rcases List.mem_cons.1 hq with rfl | hq
        · dsimp only; omega
        · have := hp q hq
          dsimp only; omega
    · obtain ⟨h1, h2, h3, h4⟩ := ih hph hs (fun q hq => ⟨hp q hq, (hb q (List.mem_cons_of_mem _ hq)).2⟩) hx
      refine ⟨by omega, h2, h3, fun q hq => ?_⟩
      rcases List.mem_cons.1 hq with rfl | hq
      · omega
      · exact h4 q hq

theorem covers_cutSpan {lo hi : Nat} {ps : List Nat} {f : Run → Piece} (hstart : ∀ x, (f x).start = x.start)
    (hlen : ∀ x, (f x).len = x.len) (hlt : lo < hi) (hs : ps.Pairwise (· < ·)) (hb : ∀ p ∈ ps, lo < p ∧ p < hi) :
    Covers lo hi ((cutSpan lo hi ps).map f) := by
  induction ps generalizing lo with
  | nil =>
    refine ⟨hstart _, ?_, ?_⟩
    · rw [hlen]; dsimp only; omega
    · show lo + (f _).len = hi
      rw [hlen]; dsimp only; omega
  | cons p ps ih =>
    obtain ⟨hp, hs⟩ := List.pairwise_cons.1 hs
    obtain ⟨hlp, hph⟩ := hb p List.mem_cons_self
    have hrest := ih hph hs (fun q hq => ⟨hp q hq, (hb q (List.mem_cons_of_mem _ hq)).2⟩)
    refine ⟨hstart _, ?_, ?_⟩
    · rw [hlen]; dsimp only; omega
    · rw [hlen]
      dsimp only
      rwa [Nat.add_sub_cancel' (Nat.le_of_lt hlp)]

/-! ## Where the resolved range changes (R29, R31) -/

/-- Two LBAs that the same ACTIVE entries contain resolve to the same range. -/
theorem resolve_congr {s : State} {a b : Nat} (h : ∀ r : RangeIx, containsLba s r a = containsLba s r b) :
    resolve s a = resolve s b := by
  unfold resolve
  simp only [h]

/-- The resolved range changes at the start or the end of an ACTIVE entry 1–15 alone. -/
theorem boundary_of_resolve_ne {s : State} {n : Nat} (hn : 0 < n) (h : resolve s (n - 1) ≠ resolve s n) :
    ∃ r ∈ definedRanges, s.ranges[r].active = true ∧
      (n = s.ranges[r].start ∨ n = s.ranges[r].start + s.ranges[r].len) := by
  by_contra hno
  refine h ?_
  unfold resolve
  refine List.foldl_ext _ _ _ (fun best r hr => ?_)
  have e : containsLba s r (n - 1) = containsLba s r n := by
    unfold containsLba
    cases ha : s.ranges[r].active with
    | false => rfl
    | true =>
      have hne : n ≠ s.ranges[r].start ∧ n ≠ s.ranges[r].start + s.ranges[r].len :=
        ⟨fun k => hno ⟨r, hr, ha, Or.inl k⟩, fun k => hno ⟨r, hr, ha, Or.inr k⟩⟩
      rw [Bool.eq_iff_iff]
      simp only [Bool.true_and, Bool.and_eq_true, decide_eq_true_eq]
      omega
  rw [e]

theorem mem_runBoundaries (s : State) (lo hi p : Nat) :
    p ∈ runBoundaries s lo hi ↔ lo < p ∧ p < hi ∧ resolve s (p - 1) ≠ resolve s p := by
  unfold runBoundaries
  simp only [mem_sortPoints, List.mem_filter, Bool.and_eq_true, decide_eq_true_eq, and_assoc]
  refine ⟨fun h => h.2, fun h => ⟨?_, h⟩⟩
  obtain ⟨hlo, -, hne⟩ := h
  obtain ⟨r, hr, ha, hp⟩ := boundary_of_resolve_ne (by omega) hne
  refine List.mem_flatMap.2 ⟨r, hr, ?_⟩
  rw [if_pos ha]
  simpa using hp

/-- A span with no change of the resolved range inside resolves to one range. -/
theorem resolve_const {s : State} {lo hi n : Nat} (h : ∀ p, lo < p → p < hi → resolve s (p - 1) = resolve s p)
    (hlo : lo ≤ n) (hhi : n < hi) : resolve s n = resolve s lo := by
  induction n, hlo using Nat.le_induction with
  | base => rfl
  | succ n hn ih => rw [← h (n + 1) (by omega) hhi, Nat.add_sub_cancel, ih (by omega)]

/-! ## Cut points (R6) -/

theorem mem_cutPoints (s : State) (lo hi p : Nat) : p ∈ cutPoints s lo hi ↔
    (lo < p ∧ p < hi) ∧ (p = s.regions.c ∨ p ∈ watermarks s ∨ resolve s (p - 1) ≠ resolve s p) := by
  unfold cutPoints
  simp only [mem_sortPoints, List.mem_filter, List.mem_append, List.mem_cons, mem_runBoundaries, Bool.and_eq_true,
    decide_eq_true_eq]
  tauto

theorem cutPoints_sorted (s : State) (lo hi : Nat) : (cutPoints s lo hi).Pairwise (· < ·) := sortPoints_sorted _

/-- The watermark of a MIGRATING range is a cut where it lies inside the range's blocks. -/
theorem mem_watermarks {s : State} {r : RangeIx} {m : MigRec} (ha : s.ranges[r].active = true)
    (hc : s.ranges[r].cond = .migrating) (hm : s.ranges[r].mig = some m) (hr : resolve s m.w = r) :
    m.w ∈ watermarks s :=
  List.mem_filterMap.2 ⟨r, mem_allRanges r, by simp [ha, hc, hm, hr, -Fin.getElem_fin]⟩

/-! ## The pre-boot span (R6, R96) -/

/-- What makes the pre-boot span for a class. -/
def PrebootStands (s : State) (cls : FrontClass) : Prop :=
  windowOpen s = true ∨ (s.regions.writeOpen = true ∧ (cls = .write ∨ cls = .trim))

theorem prebootEnd_of_stands {s : State} {cls : FrontClass} (h : PrebootStands s cls) : prebootEnd s cls = s.dev.pbwLen := by
  refine if_pos ?_
  rcases h with h | ⟨h, rfl | rfl⟩ <;> simp [h]

theorem stands_of_prebootEnd {s : State} {cls : FrontClass} (hspan : hasSpan cls = true) (h : 0 < prebootEnd s cls) :
    PrebootStands s cls := by
  unfold prebootEnd at h
  split at h
  · rename_i k
    cases cls <;> simp_all [PrebootStands, hasSpan]
  · exact absurd h (Nat.lt_irrefl 0)

/-- Where the pre-boot span ends in the span [lo, hi). -/
def prebootMid (s : State) (cls : FrontClass) (lo hi : Nat) : Nat := min (max lo (prebootEnd s cls)) hi

theorem pieces_eq (s : State) (cls : FrontClass) (lo hi : Nat) : pieces s cls lo hi =
    (if lo < prebootMid s cls lo hi then [⟨lo, prebootMid s cls lo hi - lo, .preboot, none⟩] else []) ++
      (if prebootMid s cls lo hi < hi then
        (cutSpan (prebootMid s cls lo hi) hi (cutPoints s (prebootMid s cls lo hi) hi)).map (rangePiece s) else []) := rfl

/-- A piece is the pre-boot piece, or a run between two cuts behind the pre-boot span. -/
theorem mem_pieces {s : State} {cls : FrontClass} {lo hi : Nat} {p : Piece} (h : p ∈ pieces s cls lo hi) :
    (lo < prebootMid s cls lo hi ∧ p = ⟨lo, prebootMid s cls lo hi - lo, .preboot, none⟩) ∨
    (prebootMid s cls lo hi < hi ∧
      ∃ x ∈ cutSpan (prebootMid s cls lo hi) hi (cutPoints s (prebootMid s cls lo hi) hi), rangePiece s x = p) := by
  rw [pieces_eq, List.mem_append] at h
  rcases h with h | h
  · split at h
    · exact Or.inl ⟨‹_›, List.mem_singleton.1 h⟩
    · cases h
  · split at h
    · exact Or.inr ⟨‹_›, List.mem_map.1 h⟩
    · cases h

theorem pieces_empty (s : State) (cls : FrontClass) (lo : Nat) : pieces s cls lo lo = [] := by
  have hm : prebootMid s cls lo lo = lo := by unfold prebootMid; omega
  rw [pieces_eq, hm, if_neg (Nat.lt_irrefl _), if_neg (Nat.lt_irrefl _)]
  rfl

/-- The pieces of a span stand in order, are not empty and cover it (R6). -/
theorem covers_pieces (s : State) (cls : FrontClass) {lo hi : Nat} (h : lo ≤ hi) : Covers lo hi (pieces s cls lo hi) := by
  have hmid : lo ≤ prebootMid s cls lo hi ∧ prebootMid s cls lo hi ≤ hi := by unfold prebootMid; omega
  rw [pieces_eq]
  refine Covers.append (mid := prebootMid s cls lo hi) ?_ ?_
  · split
    · refine ⟨rfl, ?_, ?_⟩
      · dsimp only; omega
      · show _ + _ = _
        dsimp only; omega
    · show lo = _
      omega
  · split
    · refine covers_cutSpan (fun _ => rfl) (fun _ => rfl) ‹_› (cutPoints_sorted _ _ _) (fun p hp => ?_)
      exact ((mem_cutPoints _ _ _ _).1 hp).1
    · show _ = hi
      omega

/-- A run between two cuts holds no cut point in its inside. -/
theorem no_cut_inside {s : State} {lo hi : Nat} {x : Run} (hlt : lo < hi) (hx : x ∈ cutSpan lo hi (cutPoints s lo hi))
    {p : Nat} (h1 : x.start < p) (h2 : p < x.start + x.len) :
    p ≠ s.regions.c ∧ p ∉ watermarks s ∧ resolve s (p - 1) = resolve s p := by
  obtain ⟨hstart, -, hend, hno⟩ := mem_cutSpan hlt (cutPoints_sorted s lo hi)
    (fun p hp => ((mem_cutPoints _ _ _ _).1 hp).1) hx
  have hn : p ∉ cutPoints s lo hi := fun hp => hno p hp ⟨h1, h2⟩
  rw [mem_cutPoints, not_and, not_or, not_or] at hn
  obtain ⟨hc, hw, hr⟩ := hn ⟨by omega, by omega⟩
  exact ⟨hc, hw, not_not.1 hr⟩

/-- Settles O16: the pieces cover the span, and no cut point lies inside a piece of a range. -/
theorem segmentsCoverTheSpan : Obligations.SegmentsCoverTheSpan := by
  refine fun s cls lo hi hlt => ⟨covers_pieces s cls (Nat.le_of_lt hlt), fun p hp r hr => ?_⟩
  rcases mem_pieces hp with ⟨-, rfl⟩ | ⟨hmid, x, hx, rfl⟩
  · cases hr
  · have hxr : resolve s x.start = r := Place.range.inj hr
    have hno := fun {p : Nat} => no_cut_inside (p := p) hmid hx
    have hres : ∀ n, x.start ≤ n → n < x.start + x.len → resolve s n = r := fun n h1 h2 =>
      (resolve_const (fun p k1 k2 => (hno k1 k2).2.2) h1 h2).trans hxr
    refine ⟨hres, fun ⟨h1, h2⟩ => (hno h1 h2).1 rfl, fun m ha hc hm ⟨h1, h2⟩ => ?_, ?_⟩
    · exact (hno h1 h2).2.1 (mem_watermarks ha hc hm (hres _ (Nat.le_of_lt h1) h2))
    · subst hxr
      rfl

/-! ## Deciding (R7) -/

theorem coversDamage_iff (s : State) (r : RangeIx) (p : Piece) : coversDamage s r p = true ↔
    ∃ e ∈ s.damaged, e.range = r ∧ p.start ≤ e.lba ∧ e.lba < p.start + p.len := by
  simp [coversDamage, and_assoc]

theorem touchesFence_iff (s : State) (r : RangeIx) (p : Piece) : touchesFence s r p = true ↔
    s.ranges[r].cond = .migrating ∧
      ∃ f, s.ranges[r].mig.bind (·.fence) = some f ∧ f.start < p.start + p.len ∧ p.start < f.start + f.len := by
  unfold touchesFence
  cases h : s.ranges[r].mig.bind (·.fence) <;> simp [overlaps]

/-- The table of a range segment, with each entry's condition written out. -/
theorem decideRange_eq (s : State) {cls : FrontClass} (hspan : hasSpan cls = true) (r : RangeIx) (p : Piece) :
    decideRange s cls r p =
      let x := s.ranges[r]
      if cls = .read ∧ (x.lock = .opened ∨ x.lock = .readOnly) ∧ x.cond ≠ .draining ∧ x.cond ≠ .purging ∧
          (∃ e ∈ s.damaged, e.range = r ∧ p.start ≤ e.lba ∧ e.lba < p.start + p.len) then .damaged
      else if x.cond = .draining ∨ x.cond = .purging then .refused .rangeBusy
      else if x.lock = .locked then
        if cls = .read ∧ x.flags.style = .blank then .blank else .refused .locked
      else if x.lock = .readOnly ∧ (cls = .write ∨ cls = .trim) then .refused .locked
      else if x.cond = .migrating ∧
          (∃ f, x.mig.bind (·.fence) = some f ∧ f.start < p.start + p.len ∧ p.start < f.start + f.len) then .hold
      else .bound (match p.side with
        | some .below => x.mig.bind (·.nextSlot)
        | some .above => x.slot
        | none => x.slot) := by
  have hlock : s.ranges[r].lock ≠ .locked ↔ s.ranges[r].lock = .opened ∨ s.ranges[r].lock = .readOnly := by
    cases s.ranges[r].lock <;> decide
  have hwrites : cls ≠ .read ↔ cls = .write ∨ cls = .trim := by
    cases cls <;> simp_all [hasSpan]
  have hbind : bindingOf s.ranges[r] p.side = match p.side with
      | some .below => s.ranges[r].mig.bind (·.nextSlot)
      | some .above => s.ranges[r].slot
      | none => s.ranges[r].slot := by
    rcases p.side with _ | _ | _ <;> rfl
  unfold decideRange
  simp only [← coversDamage_iff, ← touchesFence_iff, ← hlock, ← hwrites, hbind, Bool.and_eq_true, Bool.or_eq_true,
    Bool.not_eq_true', Bool.or_eq_false_iff, decide_eq_true_eq, decide_eq_false_iff_not, ne_eq, and_assoc]

/-- A segment that is not refused lies in a range that is neither DRAINING nor PURGING, and OPEN for a WRITE or TRIM. -/
theorem decideRange_not_refused {s : State} {cls : FrontClass} {r : RangeIx} {p : Piece}
    (h : ∀ st, decideRange s cls r p ≠ .refused st) :
    s.ranges[r].cond ≠ .draining ∧ s.ranges[r].cond ≠ .purging ∧
      ((cls = .write ∨ cls = .trim) → s.ranges[r].lock = .opened) := by
  unfold decideRange at h
  have hbusy : s.ranges[r].cond ≠ .draining ∧ s.ranges[r].cond ≠ .purging := by
    refine ⟨fun k => ?_, fun k => ?_⟩ <;> simp [k, -Fin.getElem_fin] at h
  refine ⟨hbusy.1, hbusy.2, fun hw => ?_⟩
  have hr : cls ≠ .read := by rcases hw with rfl | rfl <;> decide
  cases hl : s.ranges[r].lock with
  | opened => rfl
  | locked => simp [hbusy, hr, hl, -Fin.getElem_fin] at h
  | readOnly => simp [hbusy, hr, hl, -Fin.getElem_fin] at h

/-- The pre-boot piece comes first, and every later piece lies behind the pre-boot span. -/
theorem pieces_preboot {s : State} {cls : FrontClass} {lo hi : Nat} (hlt : lo < hi) (hp : lo < s.dev.pbwLen)
    (h : PrebootStands s cls) :
    (pieces s cls lo hi).head? = some ⟨lo, min s.dev.pbwLen hi - lo, .preboot, none⟩ ∧
      ∀ q ∈ (pieces s cls lo hi).tail, q.place ≠ .preboot ∧ s.dev.pbwLen ≤ q.start := by
  have hmid : prebootMid s cls lo hi = min s.dev.pbwLen hi := by
    rw [prebootMid, prebootEnd_of_stands h]; omega
  rw [pieces_eq, hmid, if_pos (by omega)]
  refine ⟨rfl, fun q hq => ?_⟩
  replace hq : q ∈ (if min s.dev.pbwLen hi < hi then _ else []) := hq
  split at hq
  · obtain ⟨x, hx, rfl⟩ := List.mem_map.1 hq
    have hx := (mem_cutSpan ‹_› (cutPoints_sorted _ _ _) (fun p hp => ((mem_cutPoints _ _ _ _).1 hp).1) hx).1
    refine ⟨Place.noConfusion, ?_⟩
    show _ ≤ x.start
    omega
  · cases hq

/-- A pre-boot piece lies in the pre-boot span, which stands for the class. -/
theorem preboot_of_mem_pieces {s : State} {cls : FrontClass} (hspan : hasSpan cls = true) {lo hi : Nat} {q : Piece}
    (hq : q ∈ pieces s cls lo hi) (hp : q.place = .preboot) : q.start + q.len ≤ s.dev.pbwLen ∧ PrebootStands s cls := by
  rcases mem_pieces hq with ⟨hlt, rfl⟩ | ⟨-, x, -, rfl⟩
  · have hlt' : lo < min (max lo (prebootEnd s cls)) hi := hlt
    have hs := stands_of_prebootEnd hspan (by omega : 0 < prebootEnd s cls)
    rw [prebootEnd_of_stands hs] at hlt'
    refine ⟨?_, hs⟩
    show lo + (min (max lo (prebootEnd s cls)) hi - lo) ≤ _
    rw [prebootEnd_of_stands hs]
    omega
  · cases hp

/-- Settles O14: each entry of the table, the pre-boot span, and the records of DAMAGED and BLANK segments. -/
theorem segmentDecisionFollowsItsTable : Obligations.SegmentDecisionFollowsItsTable := by
  intro s cls p hspan
  have hrange : ∀ r, p.place = .range r → decidePiece s cls p = decideRange s cls r p := fun r hr => by
    rw [decidePiece, hr]
  refine ⟨fun hp => ?_, fun r hr => ?_, fun lo hi q hq => preboot_of_mem_pieces hspan hq,
    fun lo hi => pieces_preboot, fun r hr hn => ?_, fun l hl => firstRefusal_eq_none (fun x hx st k => ?_), fun hp => ?_,
    fun t => ⟨rfl, rfl⟩⟩
  · rw [decidePiece, hp]
    cases cls <;> simp
  · exact (hrange r hr).trans (decideRange_eq s hspan r p)
  · exact decideRange_not_refused (hrange r hr ▸ hn)
  · rcases hl x hx with h | h | ⟨b, h⟩ <;> rw [h] at k <;> cases k
  · rw [mediaAddr, hp]

end Sys2Proof.Machine
end

section
/-! The admission of a span's pieces one after another, and the completion of a transaction whose pieces are all retired. -/

namespace Sys2Proof.Machine

/-! ## Completion with the last retire (R4) -/

theorem settledStatus_eq (l : List Segment) :
    settledStatus l = ((l.find? (fun g => g.status ≠ .ok)).map (·.status)).getD .ok := by
  unfold settledStatus
  cases l.find? (fun g => g.status ≠ .ok) <;> rfl

/-- A transaction with a segment that has not retired goes on. -/
theorem completeIfDone_of_open {s : State} {t : FrontTag} (h : ∃ g ∈ segsOf s t, g.state ≠ .retired) :
    completeIfDone s t = s := by
  have hall : ¬ (segsOf s t).all (fun g => g.state = .retired) = true := by
    obtain ⟨g, hg, hr⟩ := h
    exact fun k => hr (by simpa using List.all_eq_true.1 k g hg)
  unfold completeIfDone
  dsimp only
  split
  · exact if_neg hall
  · rfl

/-- A transaction whose segments have all retired completes, and its segment records go. -/
theorem completeIfDone_of_retired {s : State} {t : FrontTag} {x : Txn} (hx : s.front.tags[t] = some x)
    (h : ∀ g ∈ segsOf s t, g.state = .retired) : completeIfDone s t =
      setSegs (closed s t (settledStatus (segsOf s t))
        (if x.cls = .read && settledStatus (segsOf s t) = .ok then (segsOf s t).flatMap (·.data) else []) none)
        (s.front.segs.filter (fun g => g.owner ≠ some t)) := by
  have hall : (segsOf s t).all (fun g => g.state = .retired) = true :=
    List.all_eq_true.2 (fun g hg => by simpa using h g hg)
  unfold completeIfDone
  rw [hx]
  exact if_pos hall

/-! ## One piece (R9, R12) -/

/-- A binding that may be absent. -/
def bindOpt (s : State) : Option SlotIx → State
  | some i => bindSlot s i
  | none => s

theorem bindOpt_eq (s : State) (slot : Option SlotIx) : bindOpt s slot = { s with slots := (bindOpt s slot).slots } := by
  cases slot <;> rfl

/-- A binding adds one to the count of its slot, where that is LOADED (R50). -/
theorem bindOpt_slots (s : State) (slot : Option SlotIx) (k : SlotIx) : (bindOpt s slot).slots[k] =
    if s.slots[k].state = .loaded then { s.slots[k] with count := s.slots[k].count + if slot = some k then 1 else 0 }
    else s.slots[k] := by
  cases slot with
  | none => simp [bindOpt]
  | some i =>
    rw [bindOpt, bindSlot, modSlot_slots]
    by_cases h : k = i
    · subst h
      simp
    · rw [if_neg h, if_neg (fun e => h (Option.some.inj e).symm)]
      split <;> rfl

/-- The bound ones of numbered pieces. -/
def boundOf (s : State) (c : FrontClass) (l : List (Piece × Nat)) : List (Piece × Nat) :=
  l.filter (fun x => isBound (decidePiece s c x.1))

/-- A piece that admission takes: it is neither refused nor held. -/
def Taken (s : State) (c : FrontClass) (p : Piece) : Prop :=
  (∀ st, decidePiece s c p ≠ .refused st) ∧ decidePiece s c p ≠ .hold

/-- Pieces decided in `s` have been admitted one after another, `a` before and `t` after (R9, R12, R15, R19, R50). -/
structure PiecesAdmitted (s : State) (d : Descriptor) (c : FrontClass) (l : List Piece) (a t : State) : Prop where
  frame : t = { a with front := t.front, arb := t.arb, media := t.media, slots := t.slots }
  front : t.front = { a.front with
    segs := a.front.segs ++ (l.zipIdx a.front.nextSeg).map (admittedSegment s d c), nextSeg := a.front.nextSeg + l.length }
  write : c = .write → t.media = a.media ∧
    t.arb = { a.arb with wait := a.arb.wait ++ (boundOf s c (l.zipIdx a.front.nextSeg)).map (·.2) }
  other : c ≠ .write → t.arb = a.arb ∧
    t.media = { a.media with waiting := a.media.waiting ++ (boundOf s c (l.zipIdx a.front.nextSeg)).map (boundRequest s c) }
  slots : ∀ i : SlotIx, t.slots[i] =
    if a.slots[i].state = .loaded then
      { a.slots[i] with count := a.slots[i].count + l.countP (fun p => decidePiece s c p = .bound (some i)) }
    else a.slots[i]

theorem PiecesAdmitted.nil (s : State) (d : Descriptor) (c : FrontClass) (a : State) : PiecesAdmitted s d c [] a a where
  frame := rfl
  front := by simp
  write _ := by simp [boundOf]
  other _ := by simp [boundOf]
  slots i := by simp

theorem PiecesAdmitted.regions {s a t : State} {d : Descriptor} {c : FrontClass} {l : List Piece}
    (h : PiecesAdmitted s d c l a t) : t.regions = a.regions := by
  rw [h.frame]

theorem boundOf_append (s : State) (c : FrontClass) (l l' : List (Piece × Nat)) :
    boundOf s c (l ++ l') = boundOf s c l ++ boundOf s c l' := List.filter_append ..

theorem PiecesAdmitted.trans {s a t u : State} {d : Descriptor} {c : FrontClass} {l l' : List Piece}
    (h : PiecesAdmitted s d c l a t) (k : PiecesAdmitted s d c l' t u) : PiecesAdmitted s d c (l ++ l') a u := by
  have hn : t.front.nextSeg = a.front.nextSeg + l.length := by rw [h.front]
  have hz : (l ++ l').zipIdx a.front.nextSeg = l.zipIdx a.front.nextSeg ++ l'.zipIdx t.front.nextSeg := by
    rw [List.zipIdx_append, hn, Nat.add_comm]
  refine ⟨?_, ?_, fun hc => ?_, fun hc => ?_, fun i => ?_⟩
  · rw [k.frame, h.frame]
  · rw [k.front, hz, hn, h.front]
    simp [Nat.add_assoc]
  · rw [(k.write hc).1, (k.write hc).2, (h.write hc).1, (h.write hc).2, hz, boundOf_append]
    simp
  · rw [(k.other hc).1, (k.other hc).2, (h.other hc).1, (h.other hc).2, hz, boundOf_append]
    simp
  · rw [k.slots i, h.slots i, List.countP_append]
    by_cases hl : a.slots[i].state = .loaded
    · simp only [if_pos hl, Nat.add_assoc]
    · simp only [if_neg hl]

/-- A piece that is admitted retired asks for nothing. -/
theorem admitSeg_retired {s a : State} {d : Descriptor} {c : FrontClass} {p : Piece} (hreg : a.regions = s.regions)
    (hd : decidePiece s c p = .blank ∨ decidePiece s c p = .damaged) :
    PiecesAdmitted s d c [p] a (admitSeg d.tag c a (p, decidePiece s c p)) := by
  have haddr : mediaAddr a p = mediaAddr s p := by unfold mediaAddr; rw [hreg]
  rcases hd with hd | hd <;> rw [hd]
  all_goals
    refine ⟨rfl, ?_, fun _ => ?_, fun _ => ?_, fun i => ?_⟩
    · simp [admitSeg, addSeg, admittedSegment, boundSegment, slotOf, hd, haddr]
    · simp [admitSeg, addSeg, boundOf, isBound, hd]
    · simp [admitSeg, addSeg, boundOf, isBound, hd]
    · simp [admitSeg, addSeg, hd]

/-- A bound segment of a WRITE joins the traffic wait list; its slot counts it (R9, R12, R15). -/
theorem admitSeg_write (t : FrontTag) (a : State) (p : Piece) (slot : Option SlotIx) :
    admitSeg t .write a (p, .bound slot) = { a with
      slots := (bindOpt a slot).slots
      front := { a.front with
        segs := a.front.segs ++ [⟨a.front.nextSeg, some t, .write, p.start, p.len, p.place, p.side, slot, mediaAddr a p,
          .laneWait, .ok, []⟩]
        nextSeg := a.front.nextSeg + 1 }
      arb := { a.arb with wait := a.arb.wait ++ [a.front.nextSeg] } } := by
  cases slot <;> rfl

/-- A bound segment of a READ or TRIM asks for a media tag; its slot counts it (R9, R12, R19). -/
theorem admitSeg_readTrim {c : FrontClass} (hc : c = .read ∨ c = .trim) (t : FrontTag) (a : State) (p : Piece)
    (slot : Option SlotIx) : admitSeg t c a (p, .bound slot) = { a with
      slots := (bindOpt a slot).slots
      front := { a.front with
        segs := a.front.segs ++ [⟨a.front.nextSeg, some t, c, p.start, p.len, p.place, p.side, slot, mediaAddr a p,
          .tagWait, .ok, []⟩]
        nextSeg := a.front.nextSeg + 1 }
      media := { a.media with waiting := a.media.waiting ++
        [⟨if c = .read then .read else .trim, mediaAddr a p, p.len, [], .seg a.front.nextSeg⟩] } } := by
  rcases hc with rfl | rfl <;> cases slot <;> rfl

theorem admitSeg_bound {s a : State} {d : Descriptor} {c : FrontClass} {p : Piece} {slot : Option SlotIx}
    (hc : hasSpan c = true) (hreg : a.regions = s.regions) (hd : decidePiece s c p = .bound slot) :
    PiecesAdmitted s d c [p] a (admitSeg d.tag c a (p, decidePiece s c p)) := by
  have haddr : mediaAddr a p = mediaAddr s p := by unfold mediaAddr; rw [hreg]
  rw [hd]
  by_cases hw : c = .write
  · subst hw
    rw [admitSeg_write]
    refine ⟨rfl, ?_, fun _ => ?_, fun k => absurd rfl k, fun i => ?_⟩
    · simp [admittedSegment, boundSegment, slotOf, hd, haddr]
    · simp [boundOf, isBound, hd]
    · simpa [hd, List.countP_cons] using bindOpt_slots a slot i
  · have hrt : c = .read ∨ c = .trim := by cases c <;> simp_all [hasSpan]
    rw [admitSeg_readTrim hrt]
    refine ⟨rfl, ?_, fun k => absurd k hw, fun _ => ?_, fun i => ?_⟩
    · simp [admittedSegment, boundSegment, slotOf, hd, haddr, hw]
    · simp [boundOf, boundRequest, isBound, hd, haddr]
    · simpa [hd, List.countP_cons] using bindOpt_slots a slot i

/-! ## All pieces -/

theorem admitSeg_taken {s a : State} {d : Descriptor} {c : FrontClass} {p : Piece} (hc : hasSpan c = true)
    (hreg : a.regions = s.regions) (hp : Taken s c p) :
    PiecesAdmitted s d c [p] a (admitSeg d.tag c a (p, decidePiece s c p)) := by
  cases hd : decidePiece s c p with
  | refused st => exact absurd hd (hp.1 st)
  | hold => exact absurd hd hp.2
  | blank => exact hd ▸ admitSeg_retired hreg (Or.inl hd)
  | damaged => exact hd ▸ admitSeg_retired hreg (Or.inr hd)
  | bound slot => exact hd ▸ admitSeg_bound hc hreg hd

/-- The pieces of a span are admitted in LBA order. -/
theorem foldl_admitSeg {s : State} (d : Descriptor) {c : FrontClass} (hc : hasSpan c = true) (l : List Piece) (a : State)
    (hreg : a.regions = s.regions) (hl : ∀ p ∈ l, Taken s c p) :
    PiecesAdmitted s d c l a ((l.map (fun p => (p, decidePiece s c p))).foldl (admitSeg d.tag c) a) := by
  induction l generalizing a with
  | nil => exact .nil s d c a
  | cons p l ih =>
    have hp := admitSeg_taken (d := d) hc hreg (hl p List.mem_cons_self)
    have hrest := ih (admitSeg d.tag c a (p, decidePiece s c p)) (hp.regions.trans hreg)
      (fun q hq => hl q (List.mem_cons_of_mem _ hq))
    exact hp.trans hrest

/-- A transaction none of whose segments is refused or held is admitted piece by piece. -/
theorem Stands.admitTxn_taken {s : State} {d : Descriptor} {c : FrontClass} (h : Stands s d c) (hc : hasSpan c = true)
    (hs : SpanPasses s d) (ht : ∀ p ∈ piecesOf s d c, Taken s c p) :
    ∃ t, admitTxn s d.tag = completeIfDone t d.tag ∧ PiecesAdmitted s d c (piecesOf s d c) (standing s d c .admitted) t := by
  have hn : firstRefusal (decided s d c) = none := firstRefusal_eq_none (fun x hx => by
    obtain ⟨q, hq, rfl⟩ := List.mem_map.1 hx
    exact (ht q hq).1)
  have hany : ¬ (decided s d c).any (fun p => p.2 = .hold) = true := fun k => by
    obtain ⟨x, hx, e⟩ := List.any_eq_true.1 k
    obtain ⟨q, hq, rfl⟩ := List.mem_map.1 hx
    exact (ht q hq).2 (by simpa using e)
  refine ⟨_, ?_, foldl_admitSeg d hc _ (standing s d c .admitted) rfl ht⟩
  rw [h.admitTxn_decided hc hs, hn]
  exact if_neg hany

theorem mem_segsOf_admitted {s a t : State} {d : Descriptor} {c : FrontClass} {l : List Piece}
    (h : PiecesAdmitted s d c l a t) {p : Piece} (hp : p ∈ l) :
    ∃ x : Piece × Nat, x.1 = p ∧ admittedSegment s d c x ∈ segsOf t d.tag := by
  obtain ⟨n, hn⟩ := List.mem_iff_getElem?.1 hp
  refine ⟨(p, a.front.nextSeg + n), rfl, List.mem_filter.2 ⟨?_, ?_⟩⟩
  · rw [h.front]
    refine List.mem_append_right _ (List.mem_map_of_mem ?_)
    rw [List.mem_zipIdx_iff_le_and_getElem?_sub]
    simpa using hn
  · unfold admittedSegment
    split <;> simp [boundSegment]

/-- A transaction with a bound segment is admitted and goes on. -/
theorem Stands.admitTxn_bound {s : State} {d : Descriptor} {c : FrontClass} (h : Stands s d c) (hc : hasSpan c = true)
    (hs : SpanPasses s d) (ht : ∀ p ∈ piecesOf s d c, Taken s c p)
    (hb : ∃ p ∈ piecesOf s d c, isBound (decidePiece s c p) = true) :
    PiecesAdmitted s d c (piecesOf s d c) (standing s d c .admitted) (admitTxn s d.tag) := by
  obtain ⟨t, he, hadm⟩ := h.admitTxn_taken hc hs ht
  have hopen : ∃ g ∈ segsOf t d.tag, g.state ≠ .retired := by
    obtain ⟨p, hp, hbp⟩ := hb
    obtain ⟨x, rfl, hx⟩ := mem_segsOf_admitted hadm hp
    refine ⟨_, hx, ?_⟩
    unfold admittedSegment boundSegment
    cases hd : decidePiece s c x.1 <;> rw [hd] at hbp <;> cases hbp
    dsimp only
    split <;> decide
  rw [he, completeIfDone_of_open hopen]
  exact hadm

theorem boundOf_eq_self {s : State} {c : FrontClass} {l : List Piece} (n : Nat)
    (h : ∀ p ∈ l, ∃ slot, decidePiece s c p = .bound slot) : boundOf s c (l.zipIdx n) = l.zipIdx n :=
  List.filter_eq_self.2 (fun x hx => by
    obtain ⟨slot, e⟩ := h x.1 (List.fst_mem_of_mem_zipIdx hx)
    rw [e]
    rfl)

theorem admittedSegment_bound {s : State} {d : Descriptor} {c : FrontClass} {x : Piece × Nat}
    (h : ∃ slot, decidePiece s c x.1 = .bound slot) : admittedSegment s d c x = boundSegment s d c x := by
  obtain ⟨slot, e⟩ := h
  unfold admittedSegment
  rw [e]

/-- An arriving READ, WRITE or TRIM counts a block, so its span has a piece. -/
theorem ArrivesActive.exists_piece {s : State} {d : Descriptor} {c : FrontClass} (ha : ArrivesActive s d c)
    (hc : hasSpan c = true) : ∃ p, p ∈ piecesOf s d c := by
  have hcount : 1 ≤ d.count.toNat := by
    have hcls := (hasSpan_of_classOf ha.cls).1 hc
    by_contra hn
    exact ha.legal (Or.inr (Or.inr ⟨hcls, Or.inl (by omega)⟩))
  refine List.exists_mem_of_ne_nil _ (fun e => ?_)
  have hcov : Covers d.start.toNat (d.start.toNat + d.count.toNat) (piecesOf s d c) := covers_pieces s c (by omega)
  have hsum := hcov.sum_len
  rw [e] at hsum
  simp at hsum
  omega

/-- Settles O11: the pieces are admitted one after another, and one that is bound keeps the transaction open. -/
theorem boundTransactionIsAdmitted : Obligations.BoundTransactionIsAdmitted := by
  refine ⟨fun s d c ha hc hs hb => ?_, fun s d c h hc hs ht hb => ?_⟩
  · have h := taken_stands s d c .waiting
    have ht : ∀ p ∈ piecesOf s d c, Taken s c p := fun p hp => by
      obtain ⟨slot, e⟩ := hb p hp
      exact ⟨fun st k => (by rw [e] at k; cases k), fun k => (by rw [e] at k; cases k)⟩
    have hb' : ∃ p ∈ piecesOf s d c, isBound (decidePiece s c p) = true := by
      obtain ⟨p, hp⟩ := ha.exists_piece hc
      obtain ⟨slot, e⟩ := hb p hp
      exact ⟨p, hp, by rw [e]; rfl⟩
    have hadm := h.admitTxn_bound hc hs ht hb'
    rw [standing_taken] at hadm
    intro ps
    have hself : boundOf (taken s d c .waiting) c ps = ps := boundOf_eq_self s.front.nextSeg hb
    have hlen : ps.length = (piecesOf s d c).length := List.length_zipIdx
    have hmap : ps.map (admittedSegment (taken s d c .waiting) d c) = ps.map (boundSegment s d c) :=
      List.map_congr_left (fun x hx => admittedSegment_bound (hb x.1 (List.fst_mem_of_mem_zipIdx hx)))
    refine ⟨_, ha.admitted, hadm.frame, ?_, fun hw => ?_, fun hw => ?_, hadm.slots⟩
    · rw [hlen, ← hmap]
      exact hadm.front
    · refine ⟨(hadm.write hw).1, (hadm.write hw).2.trans ?_⟩
      exact congrArg (fun l => ({ s.arb with wait := s.arb.wait ++ l.map (·.2) } : Arbiter)) hself
    · refine ⟨(hadm.other hw).1, (hadm.other hw).2.trans ?_⟩
      exact congrArg (fun l => ({ s.media with waiting := s.media.waiting ++ l.map (boundRequest s c) } : MediaPort)) hself
  · have hadm := h.admitTxn_bound hc hs ht hb
    intro ps bound a
    have hlen : ps.length = (piecesOf s d c).length := List.length_zipIdx
    refine ⟨_, rfl, hadm.frame, ?_, hadm.write, hadm.other, hadm.slots⟩
    rw [hlen]
    exact hadm.front

/-! ## A READ of BLANK and DAMAGED segments (R4, R7, R36) -/

/-- A piece that is admitted retired. -/
def RetiredAtOnce (s : State) (c : FrontClass) (p : Piece) : Prop :=
  decidePiece s c p = .blank ∨ decidePiece s c p = .damaged

theorem RetiredAtOnce.taken {s : State} {c : FrontClass} {p : Piece} (h : RetiredAtOnce s c p) : Taken s c p := by
  rcases h with h | h <;> exact ⟨fun st k => (by rw [h] at k; cases k), fun k => (by rw [h] at k; cases k)⟩

theorem RetiredAtOnce.segment {s : State} {d : Descriptor} {c : FrontClass} {x : Piece × Nat}
    (h : RetiredAtOnce s c x.1) :
    (admittedSegment s d c x).owner = some d.tag ∧ (admittedSegment s d c x).state = .retired ∧
    ((admittedSegment s d c x).status = if decidePiece s c x.1 = .damaged then .mediaError else .ok) ∧
    (decidePiece s c x.1 = .blank → (admittedSegment s d c x).data = List.replicate x.1.len 0) := by
  unfold admittedSegment
  rcases h with h | h <;> rw [h] <;> simp [boundSegment]

/-- Pieces admitted retired change the front port's records alone. -/
theorem PiecesAdmitted.of_retired {s a t : State} {d : Descriptor} {c : FrontClass} {l : List Piece}
    (h : PiecesAdmitted s d c l a t) (hc : c = .read) (hl : ∀ p ∈ l, RetiredAtOnce s c p) : t = { a with front := t.front } := by
  have hnone : boundOf s c (l.zipIdx a.front.nextSeg) = [] := List.filter_eq_nil_iff.2 (fun x hx => by
    rcases hl x.1 (List.fst_mem_of_mem_zipIdx hx) with e | e <;> rw [e] <;> decide)
  have hcount : ∀ i, l.countP (fun p => decidePiece s c p = .bound (some i)) = 0 := fun i =>
    List.countP_eq_zero.2 (fun p hp => by rcases hl p hp with e | e <;> simp [e])
  have hslots : t.slots = a.slots := by
    refine Vector.ext (fun i hi => ?_)
    have := h.slots ⟨i, hi⟩
    rw [hcount] at this
    simpa using this
  obtain ⟨harb, hmedia⟩ := h.other (by rw [hc]; decide)
  rw [hnone] at hmedia
  rw [h.frame, harb, hmedia, hslots]
  simp

theorem settledStatus_retired {s : State} {d : Descriptor} {c : FrontClass} {l : List (Piece × Nat)}
    (hl : ∀ x ∈ l, RetiredAtOnce s c x.1) : settledStatus (l.map (admittedSegment s d c)) =
      if ∃ x ∈ l, decidePiece s c x.1 = .damaged then .mediaError else .ok := by
  induction l with
  | nil => simp [settledStatus]
  | cons x l ih =>
    have hx := (hl x List.mem_cons_self).segment (d := d)
    have ih := ih (fun y hy => hl y (List.mem_cons_of_mem _ hy))
    rw [settledStatus_eq] at ih ⊢
    by_cases hd : decidePiece s c x.1 = .damaged
    · simp [hx.2.2.1, hd]
    · have hrest : (∃ y ∈ x :: l, decidePiece s c y.1 = .damaged) ↔ ∃ y ∈ l, decidePiece s c y.1 = .damaged := by
        simp [hd]
      simp only [hrest]
      simpa [hx.2.2.1, hd] using ih

theorem zeros_of_blank {s : State} {d : Descriptor} {c : FrontClass} {l : List (Piece × Nat)}
    (hl : ∀ x ∈ l, decidePiece s c x.1 = .blank) :
    (l.map (admittedSegment s d c)).flatMap (·.data) = List.replicate (l.map (·.1.len)).sum 0 := by
  induction l with
  | nil => rfl
  | cons x l ih =>
    have hb := hl x List.mem_cons_self
    rw [List.map_cons, List.flatMap_cons, ih (fun y hy => hl y (List.mem_cons_of_mem _ hy)),
      (RetiredAtOnce.segment (Or.inl hb)).2.2.2 hb, ← List.replicate_add]
    rfl

theorem sum_len_piecesOf (s : State) (d : Descriptor) (c : FrontClass) :
    ((piecesOf s d c).map (·.len)).sum = d.count.toNat := by
  have := (covers_pieces s c (Nat.le_add_right d.start.toNat d.count.toNat)).sum_len
  unfold piecesOf
  omega

/-- A READ all of whose segments are admitted retired completes at once, and leaves no segment record. -/
theorem Stands.admitTxn_retired {s : State} {d : Descriptor} (h : Stands s d .read) (hs : SpanPasses s d)
    (hno : ∀ g ∈ s.front.segs, g.owner ≠ some d.tag) (hl : ∀ p ∈ piecesOf s d .read, RetiredAtOnce s .read p) :
    let u := if ∃ p ∈ piecesOf s d .read, decidePiece s .read p = .damaged then closed s d.tag .mediaError [] none
      else closed s d.tag .ok (List.replicate d.count.toNat 0) none
    admitTxn s d.tag = { u with front := { u.front with nextSeg := s.front.nextSeg + (piecesOf s d .read).length } } := by
  obtain ⟨t, he, hadm⟩ := h.admitTxn_taken rfl hs (fun p hp => (hl p hp).taken)
  have hframe := hadm.of_retired rfl hl
  have hfront := hadm.front
  generalize hz : (piecesOf s d .read).zipIdx (standing s d .read .admitted).front.nextSeg = zs at hfront
  have hzl : ∀ x ∈ zs, RetiredAtOnce s .read x.1 := fun x hx => by
    subst hz
    exact hl x.1 (List.fst_mem_of_mem_zipIdx hx)
  have hmine : segsOf t d.tag = zs.map (admittedSegment s d .read) := by
    unfold segsOf
    rw [hfront]
    refine (List.filter_append ..).trans ?_
    rw [List.filter_eq_nil_iff.2 (fun g hg => by simpa using hno g hg), List.nil_append, List.filter_eq_self]
    rintro g hg
    obtain ⟨x, hx, rfl⟩ := List.mem_map.1 hg
    simp [(hzl x hx).segment.1]
  have hothers : t.front.segs.filter (fun g => g.owner ≠ some d.tag) = s.front.segs := by
    rw [hfront]
    refine (List.filter_append ..).trans ?_
    rw [List.filter_eq_self.2 (fun g hg => by simpa using hno g hg), List.filter_eq_nil_iff.2, List.append_nil]
    · rfl
    · rintro g hg
      obtain ⟨x, hx, rfl⟩ := List.mem_map.1 hg
      simp [(hzl x hx).segment.1]
  have htag : t.front.tags[d.tag] = some ⟨.read, d.start.toNat, d.count.toNat, d.block, .admitted⟩ := by
    rw [hfront]
    simp [standing]
  have hretired : ∀ g ∈ segsOf t d.tag, g.state = .retired := by
    rw [hmine]
    intro g hg
    obtain ⟨x, hx, rfl⟩ := List.mem_map.1 hg
    exact (hzl x hx).segment.2.1
  have hdam : (∃ x ∈ zs, decidePiece s .read x.1 = .damaged) ↔ ∃ p ∈ piecesOf s d .read, decidePiece s .read p = .damaged := by
    have hmap : zs.map (·.1) = piecesOf s d .read := by rw [← hz]; exact List.zipIdx_map_fst _ _
    rw [← hmap]
    simp
  rw [he, completeIfDone_of_retired htag hretired, hothers, hmine, settledStatus_retired hzl]
  simp only [hdam]
  by_cases hd : ∃ p ∈ piecesOf s d .read, decidePiece s .read p = .damaged
  · simp only [if_pos hd]
    rw [hframe, hfront]
    simp [setSegs, closed, standing, Vector.set_set]
  · simp only [if_neg hd]
    have hblank : ∀ x ∈ zs, decidePiece s .read x.1 = .blank := fun x hx =>
      (hzl x hx).resolve_right (fun k => hd (hdam.1 ⟨x, hx, k⟩))
    have hlen : (zs.map (·.1.len)).sum = d.count.toNat := by
      rw [← sum_len_piecesOf s d .read, ← List.zipIdx_map_fst s.front.nextSeg (piecesOf s d .read), List.map_map, ← hz]
      rfl
    rw [zeros_of_blank hblank, hlen, hframe, hfront]
    simp [setSegs, closed, standing, Vector.set_set]

/-- Settles O12: every piece is admitted retired, so the transaction completes in the same event. -/
theorem blankReadCompletesWithZeros : Obligations.BlankReadCompletesWithZeros := by
  refine ⟨fun s d ha hs hno hb => ?_, fun s d h hs hno hl => h.admitTxn_retired hs hno hl⟩
  have h := (taken_stands s d .read .waiting).admitTxn_retired hs hno (fun p hp => Or.inl (hb p hp))
  have hd : ¬ ∃ p ∈ piecesOf (taken s d .read .waiting) d .read,
      decidePiece (taken s d .read .waiting) .read p = .damaged := by
    rintro ⟨p, hp, e⟩
    have e' : decidePiece s .read p = .damaged := e
    rw [hb p hp] at e'
    cases e'
  rw [if_neg hd] at h
  intro u
  rw [ha.admitted, h, closed_taken s d .read .waiting .admitted]
  rfl

end Sys2Proof.Machine
end

section
/-! The media port and the lanes: what an answered request, a timeout, a grant and the end of a traffic pass do. -/

namespace Sys2Proof.Machine

/-! ## Answers of media requests (R20, R21) -/

/-- A media completion on a BUSY tag frees it and acts for its request. -/
theorem exec_mediaCompletion_busy {s : State} {t : MediaTag} {q : MediaReq} {age : Nat} (h : s.media.tags[t] = .busy q age)
    (res : MediaResult) : exec (.mediaCompletion t res) s = .next (actFor (setTag s t .free) q (answerOf res)) := by
  show execMediaCompletion t res s = _
  unfold execMediaCompletion
  rw [h]

theorem exec_mediaTimeout_due {s : State} {t : MediaTag} {q : MediaReq} {age : Nat} (h : s.media.tags[t] = .busy q age)
    (hage : 2000000 ≤ age) : exec (.mediaTimeout t) s =
      .next (actFor (raise (setTag s t .quarantined) (timeoutEvent s t q)) q .timeout) := by
  show execMediaTimeout t s = _
  unfold execMediaTimeout
  rw [h]
  exact if_pos hage

/-- A segment's request that is answered OK: the data of a READ goes to a segment that still has its transaction. -/
theorem actFor_seg_ok {s : State} {q : MediaReq} {id : Nat} {g : Segment} (hq : q.who = .seg id)
    (hg : segOf s id = some g) (data : List Block) : actFor s q (.ok data) =
      if g.cls = .read && g.owner.isSome then
        { modSeg s id (fun g => { g with state := .laneWait, data := data }) with
          arb := { s.arb with wait := s.arb.wait ++ [id] } }
      else retire s id .ok [] := by
  unfold actFor
  rw [hq]
  dsimp only
  rw [hg]
  rfl

theorem actFor_seg_error {s : State} {q : MediaReq} {id : Nat} {g : Segment} (hq : q.who = .seg id)
    (hg : segOf s id = some g) : actFor s q .error = retire s id .mediaError [] := by
  unfold actFor
  rw [hq]
  dsimp only
  rw [hg]

theorem actFor_seg_timeout {s : State} {q : MediaReq} {id : Nat} {g : Segment} (hq : q.who = .seg id)
    (hg : segOf s id = some g) : actFor s q .timeout = retire s id .linkTimeout [] := by
  unfold actFor
  rw [hq]
  dsimp only
  rw [hg]

/-- A FLUSH completes with the status of its media FLUSH. -/
theorem actFor_flush {s : State} {q : MediaReq} {x : FrontTag} (hq : q.who = .flush x) (a : Answer) : actFor s q a =
    closed s x (match a with | .ok _ => .ok | .error => .mediaError | .timeout => .linkTimeout) [] none := by
  unfold actFor
  rw [hq]
  cases a <;> rfl

theorem actFor_sweep {s : State} {q : MediaReq} {x : SweepReq} {c : Chunk} (hq : q.who = .sweep x)
    (hc : s.sweep.chunk = some c) (a : Answer) : actFor s q a = chunkAnswer s c x a := by
  unfold actFor
  rw [hq]
  dsimp only
  rw [hc]

theorem actFor_discard {s : State} {q : MediaReq} (hq : q.who = .discard) (a : Answer) : actFor s q a = s := by
  unfold actFor
  rw [hq]

/-- Settles O19: the tag first, then the requester. -/
theorem mediaCompletionActsForItsRequest : Obligations.MediaCompletionActsForItsRequest := by
  intro s t q age u
  refine ⟨fun h => ?_, fun h res => ?_, fun h res => ?_⟩
  · have hexec := exec_mediaCompletion_busy h
    refine ⟨fun id g hq hg => ⟨?_, fun data hr ho => ?_, fun data hn => ?_⟩, fun x hq => ⟨fun data => ?_, ?_⟩,
      fun x c hq hc => ⟨fun data => ?_, ?_⟩, fun hq res => ?_⟩
    · rw [hexec, answerOf, actFor_seg_error (s := setTag s t .free) hq hg]
      rfl
    · rw [hexec, answerOf, actFor_seg_ok (s := setTag s t .free) hq hg, if_pos (by simp [hr, ho])]
      rfl
    · rw [hexec, answerOf, actFor_seg_ok (s := setTag s t .free) hq hg, if_neg (by simpa using hn)]
      rfl
    · rw [hexec, actFor_flush hq]
      rfl
    · rw [hexec, actFor_flush hq]
      rfl
    · rw [hexec, answerOf, actFor_sweep (s := setTag s t .free) hq hc]
      rfl
    · rw [hexec, answerOf, actFor_sweep (s := setTag s t .free) hq hc]
      rfl
    · rw [hexec, actFor_discard hq]
      rfl
  · show execMediaCompletion t res s = _
    unfold execMediaCompletion
    rw [h]
    rfl
  · show execMediaCompletion t res s = _
    unfold execMediaCompletion
    rw [h]

theorem segOf_raise (s : State) (e : Event) (id : Nat) : segOf (raise s e) id = segOf s id := by
  unfold segOf
  rw [raise_front]

/-- Settles O21: the tag, the entry and the requester, in this order. -/
theorem timedOutRequestIsQuarantined : Obligations.TimedOutRequestIsQuarantined := by
  refine fun s t => ⟨fun q age h => ?_, fun h => ?_, fun h => ?_, fun h => ?_⟩
  · intro u e
    refine ⟨fun hage => ?_, fun hage => ?_⟩
    · show execMediaTimeout t s = _
      unfold execMediaTimeout
      rw [h]
      exact if_neg (Nat.not_le.2 hage)
    have hexec := exec_mediaTimeout_due h hage
    refine ⟨fun id g hq hg => ?_, fun x hq => ?_, fun x c hq hc _ => ?_⟩
    · have he : timeoutEvent s t q = { e with range := match g.place with | .range r => some r | .preboot => none } := by
        cases hp : g.place <;> simp [timeoutEvent, hq, hg, hp, e]
      rw [hexec, he, actFor_seg_timeout (s := raise (setTag s t .quarantined) _) hq ((segOf_raise _ _ _).trans hg)]
      rfl
    · have he : timeoutEvent s t q = e := by
        unfold timeoutEvent
        rw [hq]
      rw [hexec, he, actFor_flush hq]
      rfl
    · have he : timeoutEvent s t q = { e with job := some c.job } := by
        unfold timeoutEvent
        rw [hq, hc]
        rfl
      rw [hexec, he, actFor_sweep hq (c := c) (by rw [raise_sweep]; exact hc)]
      rfl
  · show execMediaTimeout t s = _
    unfold execMediaTimeout
    split
    · exact absurd ‹_› (h _ _)
    · rfl
    · rfl
  · show execLateCompletion t s = _
    unfold execLateCompletion
    rw [h]
    rfl
  · show execLateCompletion t s = _
    unfold execLateCompletion
    rw [h]

/-! ## Grants of media tags and lanes (R12, R16 to R19) -/

/-- The first request that is no passed-over sweep request is taken. -/
theorem takeRequest_split {ok : Bool} {pre : List MediaReq} {q : MediaReq} {post : List MediaReq}
    (hpre : ∀ p ∈ pre, isSweep p = true ∧ ok = false) (hq : ok = true ∨ isSweep q = false) :
    takeRequest ok (pre ++ q :: post) = some (q, pre ++ post) := by
  induction pre with
  | nil =>
    refine if_pos ?_
    rcases hq with h | h <;> simp [h]
  | cons p pre ih =>
    obtain ⟨hs, ho⟩ := hpre p List.mem_cons_self
    have ih := ih (fun x hx => hpre x (List.mem_cons_of_mem _ hx))
    rw [List.cons_append, takeRequest, if_neg (by simp [hs, ho]), ih]
    rfl

theorem exec_mediaTagGrant_taken {s : State} {t : MediaTag} {q : MediaReq} {rest : List MediaReq}
    (h : s.media.tags[t] = .free) (ht : takeRequest (sweepBusy s < 8) s.media.waiting = some (q, rest)) :
    exec (.mediaTagGrant t) s =
      .next (markIssued { s with media := ⟨s.media.tags.set t (.busy q 0), rest⟩ } q) := by
  show execMediaTagGrant t s = _
  unfold execMediaTagGrant
  rw [h, ht]
  rfl

theorem markIssued_eq (s : State) (q : MediaReq) : markIssued s q = { s with front := { s.front with
    segs := match q.who with
      | .seg id => s.front.segs.map (fun g => if g.id = id then { g with state := .onMedia } else g)
      | _ => s.front.segs } } := by
  unfold markIssued
  cases q.who <;> rfl

theorem exec_laneGrant_free {s : State} {l : LaneIx} (hl : s.arb.lanes[l] = .free) (hp : s.power.state ≠ .doze) :
    exec (.laneGrant l) s = .next (laneClaim s l) := by
  show execLaneGrant l s = _
  exact if_pos (by simpa using ⟨hl, hp⟩)

/-- The claims of a FREE lane where no RUNNING HOLD job takes it (R18). -/
theorem laneClaim_guard {s : State} (l : LaneIx) (hh : ¬ (holdRunning s = true ∧ s.arb.dedicated = none))
    (hp : s.arb.waitingPass = true ∧ s.arb.guard = 64 ∧ sweepLanes s < sweepCap s) : laneClaim s l = grantPass s l := by
  unfold laneClaim
  dsimp only
  rw [if_neg (by simpa using hh), if_pos (by simpa [and_assoc] using hp)]

theorem laneClaim_segment {s : State} (l : LaneIx) (hh : ¬ (holdRunning s = true ∧ s.arb.dedicated = none))
    (hp : ¬ (s.arb.waitingPass = true ∧ s.arb.guard = 64 ∧ sweepLanes s < sweepCap s)) {id : Nat} {rest : List Nat}
    (hw : s.arb.wait = id :: rest) : laneClaim s l = grantSeg s l id rest := by
  unfold laneClaim
  dsimp only
  rw [if_neg (by simpa using hh), if_neg (by simpa [and_assoc] using hp), hw]

theorem laneClaim_noSegment {s : State} (l : LaneIx) (hh : ¬ (holdRunning s = true ∧ s.arb.dedicated = none))
    (hw : s.arb.wait = []) : laneClaim s l =
      if s.arb.waitingPass = true ∧ sweepLanes s < sweepCap s then grantPass s l
      else if 0 < passLanes s ∧ sweepLanes s < sweepCap s then setLane s l (.granted .pass)
      else s := by
  by_cases hp : s.arb.waitingPass = true ∧ s.arb.guard = 64 ∧ sweepLanes s < sweepCap s
  · rw [laneClaim_guard l hh hp, if_pos ⟨hp.1, hp.2.2⟩]
  · unfold laneClaim
    dsimp only
    rw [if_neg (by simpa using hh), if_neg (by simpa [and_assoc] using hp), hw]
    simp only [Bool.and_eq_true, decide_eq_true_eq]

/-- Settles O22: the first request that may go, and the claims of a lane in their order. -/
theorem freeTagsAndLanesGoToTheFirstClaim : Obligations.FreeTagsAndLanesGoToTheFirstClaim := by
  refine ⟨fun s t pre q post h hw hpre hq => ?_, fun s l hl => ?_⟩
  · have ht : takeRequest (sweepBusy s < 8) s.media.waiting = some (q, pre ++ post) := by
      rw [hw]
      exact takeRequest_split (fun p hp => ⟨(hpre p hp).1, by simpa using (hpre p hp).2⟩) (by simpa using hq)
    exact (exec_mediaTagGrant_taken h ht).trans (congrArg _ (markIssued_eq _ _))
  · intro room holds pass toPass
    refine ⟨fun hp => ?_, fun hp hh => ?_, fun hp hh hwp hg hr => ?_, fun hp hh hn id rest hw => ?_,
      fun hp hh hw hwp hr => ?_, fun hp hh hw hwp hpl hr => ?_, fun hp hh hw hn => ?_⟩
    · show execLaneGrant l s = _
      exact if_neg (by simp [hp])
    all_goals rw [exec_laneGrant_free hl hp]
    · unfold laneClaim
      dsimp only
      rw [if_pos (by simpa using hh)]
      by_cases ha : passAsked s = true ∧ passLanes s = 0
      · rw [if_pos ha]
        exact congrArg _ (congrArg (setLane _ l) (if_pos (Bool.and_eq_true_iff.2 ⟨ha.1, decide_eq_true ha.2⟩)))
      · rw [if_neg ha]
        exact congrArg _ (congrArg (setLane _ l) (if_neg (fun k => ha ((Bool.and_eq_true_iff.1 k).imp id of_decide_eq_true))))
    · exact congrArg _ (laneClaim_guard l hh ⟨hwp, hg, hr⟩)
    · exact congrArg _ (laneClaim_segment l hh hn hw)
    all_goals rw [laneClaim_noSegment l hh hw]
    · exact congrArg _ (if_pos ⟨hwp, hr⟩)
    · rw [if_neg (by simp [hwp])]
      exact congrArg _ (if_pos ⟨hpl, hr⟩)
    · have h1 : ¬ (s.arb.waitingPass = true ∧ sweepLanes s < sweepCap s) := fun ⟨k, r⟩ => by
        rcases hn with hn | ⟨hn, -⟩
        · exact hn r
        · rw [hn] at k; cases k
      have h2 : ¬ (0 < passLanes s ∧ sweepLanes s < sweepCap s) := fun ⟨k, r⟩ => by
        rcases hn with hn | ⟨-, hn⟩
        · exact hn r
        · omega
      rw [if_neg h1, if_neg h2]

/-! ## The end of a traffic pass (R12, R24) -/

theorem exec_lanePassEnd_seg {s : State} {l : LaneIx} {g : Segment} (hl : s.arb.lanes[l] = .granted (.seg g.id))
    (hg : segOf s g.id = some g) (data : List Block) :
    exec (.lanePassEnd l data) s = .next (passEnd (setLane s l .free) g data) := by
  show execLanePassEnd l data s = _
  unfold execLanePassEnd
  rw [hl]
  dsimp only
  rw [show segOf (setLane s l .free) g.id = some g from hg]

theorem slotKey_eq (s : State) (slot : Option SlotIx) : slotKey s slot = slot.bind (fun i => s.slots[i].key) := by
  cases slot <;> rfl

/-- Settles O23: a WRITE, a READ, and a segment without a transaction. -/
theorem lanePassEndFreesTheLane : Obligations.LanePassEndFreesTheLane := by
  intro s l g data hl hg u key out
  have hkey : slotKey (setLane s l .free) g.slot = key := slotKey_eq s g.slot
  rw [exec_lanePassEnd_seg hl hg]
  unfold passEnd
  refine ⟨fun hc ho => ?_, fun hc ho => ?_, fun ho => ?_⟩
  · obtain ⟨x, ho⟩ := Option.isSome_iff_exists.1 ho
    rw [hc, ho, hkey]
    rfl
  · obtain ⟨x, ho⟩ := Option.isSome_iff_exists.1 ho
    rw [hc, ho, hkey]
    rfl
  · rw [ho]
    cases g.cls <;> rfl

end Sys2Proof.Machine
end

section
/-! The retire of a segment: its slot, its damaged entries, the wait sets it leaves, and its transaction (R4, R13, R23, R50). -/

namespace Sys2Proof.Machine

/-! ## References and damaged entries (R13, R50, R56) -/

/-- A slot that one reference leaves. -/
def dropped (x : Slot) : Slot :=
  if x.state = .pendingZero ∧ x.count ≤ 1 then emptySlot else { x with count := x.count - 1 }

theorem dropOpt_eq (s : State) (slot : Option SlotIx) : dropOpt s slot = { s with slots := (dropOpt s slot).slots } := by
  cases slot <;> rfl

theorem dropOpt_slots (s : State) (slot : Option SlotIx) (i : SlotIx) :
    (dropOpt s slot).slots[i] = if slot = some i then dropped s.slots[i] else s.slots[i] := by
  cases slot with
  | none => rfl
  | some k =>
    rw [dropOpt, dropRef, modSlot_slots]
    by_cases h : i = k
    · subst h
      simp [dropped]
    · rw [if_neg h, if_neg (fun e => h (Option.some.inj e).symm)]

/-- The damaged entries of its range that a segment covers, as one condition. -/
theorem coveredDamage_eq (s : State) (g : Segment) : coveredDamage s g =
    s.damaged.filter (fun d => g.place = .range d.range && g.start ≤ d.lba && d.lba < g.start + g.len) := by
  unfold coveredDamage
  cases g.place with
  | preboot => simp
  | range r =>
    refine List.filter_congr (fun d _ => ?_)
    simp [eq_comm]

/-- Whether a segment that retires with a status clears damaged entries. -/
def clearsDamage (s : State) (g : Segment) (st : Status) : Bool :=
  st = .ok && (g.cls = .write || g.cls = .trim) && !(coveredDamage s g).isEmpty

theorem clearDamage_eq (s : State) (g : Segment) (st : Status) : clearDamage s g st = { s with
    damaged := if clearsDamage s g st then s.damaged.filter (fun d => !(coveredDamage s g).contains d) else s.damaged
    writes := if clearsDamage s g st then s.writes ++ [⟨.damaged (coveredDamage s g) [], .nothing, []⟩] else s.writes } := by
  unfold clearDamage clearsDamage
  by_cases h1 : (decide (st = .ok) && (decide (g.cls = .write) || decide (g.cls = .trim))) = true
  · rw [if_pos h1, h1]
    dsimp only
    cases hc : (coveredDamage s g).isEmpty with
    | true => rfl
    | false => simp [issue, editDamaged]
  · rw [if_neg h1, Bool.eq_false_iff.2 h1]
    rfl

/-! ## Wait sets (R23) -/

/-- What is left of the wait set of a tag's FLUSH, if a segment leaves it. -/
def waitSetLeft (id : Nat) (x : Option Txn) : Option (List Nat) :=
  match x with
  | some z =>
    match z.stage with
    | .flushWait ids => if ids.contains id then some (ids.filter (· ≠ id)) else none
    | _ => none
  | none => none

/-- The transaction of a tag once a segment has left its wait set. -/
def txnLeft (id : Nat) (x : Option Txn) : Option Txn :=
  match waitSetLeft id x with
  | some [] => x.map (fun z => { z with stage := .flushOut })
  | some (i :: ids) => x.map (fun z => { z with stage := .flushWait (i :: ids) })
  | none => x

/-- The media FLUSH requests of the tags whose wait set a segment was the last to leave. -/
def flushesAsked (id : Nat) (s : State) (l : List FrontTag) : List MediaReq :=
  (l.filter (fun f => waitSetLeft id s.front.tags[f] = some [])).map (fun f => ⟨.flush, 0, 0, [], .flush f⟩)

theorem txnLeft_of_not_waiting {id : Nat} {x : Option Txn} (h : ∀ z ids, x = some z → z.stage ≠ .flushWait ids) :
    waitSetLeft id x = none ∧ txnLeft id x = x := by
  have hw : waitSetLeft id x = none := by
    unfold waitSetLeft
    cases x with
    | none => rfl
    | some z =>
      dsimp only
      split
      · exact absurd ‹_› (h z _ rfl)
      · rfl
  exact ⟨hw, by unfold txnLeft; rw [hw]⟩

theorem setStage_eq (s : State) (t : FrontTag) (st : Stage) :
    setStage s t st = setTxn s t (s.front.tags[t].map (fun z => { z with stage := st })) := by
  unfold setStage
  cases hx : s.front.tags[t] with
  | some x => rfl
  | none =>
    dsimp only
    rw [Option.map_none, ← hx]
    simp [setTxn]

/-- A FLUSH whose wait set the segment is not in stands. -/
theorem leaveWaitSet_stays {id : Nat} {s : State} {f : FrontTag} (h : waitSetLeft id s.front.tags[f] = none) :
    leaveWaitSet id s f = s := by
  unfold leaveWaitSet
  cases hx : s.front.tags[f] with
  | none => rfl
  | some x =>
    rw [hx] at h
    unfold waitSetLeft at h
    dsimp only at h ⊢
    cases hst : x.stage with
    | flushWait ids =>
      rw [hst] at h
      dsimp only at h ⊢
      split at h
      · cases h
      · rw [if_neg ‹_›]
    | _ => rfl

/-- A FLUSH whose wait set the segment leaves asks for its media FLUSH, or waits for the rest. -/
theorem leaveWaitSet_left {id : Nat} {s : State} {f : FrontTag} {rest : List Nat}
    (h : waitSetLeft id s.front.tags[f] = some rest) :
    leaveWaitSet id s f = if rest.isEmpty then issueFlush s f else setStage s f (.flushWait rest) := by
  unfold leaveWaitSet
  cases hx : s.front.tags[f] with
  | none =>
    rw [hx] at h
    cases h
  | some x =>
    rw [hx] at h
    unfold waitSetLeft at h
    dsimp only at h ⊢
    cases hst : x.stage with
    | flushWait ids =>
      rw [hst] at h
      dsimp only at h ⊢
      split at h
      · cases h
        rw [if_pos ‹_›]
      · cases h
    | _ =>
      rw [hst] at h
      cases h

theorem leaveWaitSet_eq (id : Nat) (s : State) (f : FrontTag) : leaveWaitSet id s f = { s with
    front := { s.front with tags := s.front.tags.set f (txnLeft id s.front.tags[f]) }
    media := { s.media with waiting := s.media.waiting ++ flushesAsked id s [f] } } := by
  have hasked : flushesAsked id s [f] =
      if waitSetLeft id s.front.tags[f] = some [] then [⟨.flush, 0, 0, [], .flush f⟩] else [] := by
    unfold flushesAsked
    rw [List.filter_singleton]
    split <;> simp_all
  rw [hasked]
  cases hw : waitSetLeft id s.front.tags[f] with
  | none =>
    rw [leaveWaitSet_stays hw, txnLeft, hw]
    simp
  | some rest =>
    rw [leaveWaitSet_left hw, txnLeft, hw]
    cases rest with
    | nil =>
      rw [if_pos rfl, if_pos List.isEmpty_nil, issueFlush, setStage_eq]
      rfl
    | cons i rest =>
      rw [if_neg (by simp), if_neg (by simp), setStage_eq]
      simp [setTxn]

/-- A segment has left the wait sets of some tags, `a` before and `t` after (R23). -/
structure WaitSetsLeft (id : Nat) (l : List FrontTag) (a t : State) : Prop where
  frame : t = { a with front := { a.front with tags := t.front.tags }
                       media := { a.media with waiting := a.media.waiting ++ flushesAsked id a l } }
  tags  : ∀ f : FrontTag, t.front.tags[f] = if f ∈ l then txnLeft id a.front.tags[f] else a.front.tags[f]

theorem foldl_leaveWaitSet (id : Nat) (l : List FrontTag) (hl : l.Nodup) (a : State) :
    WaitSetsLeft id l a (l.foldl (leaveWaitSet id) a) := by
  induction l generalizing a with
  | nil => exact ⟨by simp [flushesAsked], fun f => by simp⟩
  | cons f l ih =>
    obtain ⟨hf, hl⟩ := List.nodup_cons.1 hl
    obtain ⟨hframe, htags⟩ := ih hl (leaveWaitSet id a f)
    rw [List.foldl_cons]
    generalize l.foldl (leaveWaitSet id) (leaveWaitSet id a f) = t at hframe htags ⊢
    rw [leaveWaitSet_eq] at hframe htags
    have hother : ∀ k : FrontTag, k ≠ f → (a.front.tags.set f (txnLeft id a.front.tags[f]))[k] = a.front.tags[k] :=
      fun k hk => Vector.getElem_set_ne _ _ (fun e => hk (Fin.ext e.symm))
    have hasked : ∀ b : State, b.front.tags = a.front.tags.set f (txnLeft id a.front.tags[f]) →
        flushesAsked id b l = flushesAsked id a l := fun b hb => by
      unfold flushesAsked
      refine congrArg _ (List.filter_congr (fun k hk => ?_))
      rw [hb, hother k (fun e => hf (e ▸ hk))]
    refine ⟨?_, fun k => ?_⟩
    · rw [hframe, hasked _ rfl]
      simp [flushesAsked, List.filter_cons, List.append_assoc]
      split <;> simp
    · rw [htags k]
      by_cases hk : k = f
      · subst hk
        simp [hf]
      · have hmem : k ∈ f :: l ↔ k ∈ l := by simp [hk]
        simp only [hmem]
        exact if_congr Iff.rfl (congrArg _ (hother k hk)) (hother k hk)

theorem allTags_nodup : allTags.Nodup := by decide

/-! ## The retire (R13) -/

/-- The record of a segment that has retired. -/
def retiredSeg (st : Status) (data : List Block) (g : Segment) : Segment :=
  { g with state := .retired, status := st, data := data }

/-- The segments once those of a number have retired. -/
def retireSegs (l : List Segment) (id : Nat) (st : Status) (data : List Block) : List Segment :=
  l.map (fun h => if h.id = id then retiredSeg st data h else h)

/-- The state in which a segment has retired and its transaction is not yet looked at. -/
def retiring (s : State) (g : Segment) (id : Nat) (st : Status) (data : List Block) : State :=
  allTags.foldl (leaveWaitSet id)
    (clearDamage (dropOpt (modSeg s id (fun g => { g with state := .retired, status := st, data := data })) g.slot) g st)

theorem retire_owned {s : State} {id : Nat} {g : Segment} {x : FrontTag} (hg : segOf s id = some g) (ho : g.owner = some x)
    (st : Status) (data : List Block) : retire s id st data = completeIfDone (retiring s g id st data) x := by
  unfold retire retiring
  rw [hg]
  dsimp only
  rw [ho]

theorem retire_orphan {s : State} {id : Nat} {g : Segment} (hg : segOf s id = some g) (ho : g.owner = none)
    (st : Status) (data : List Block) : retire s id st data =
      setSegs (retiring s g id st data) ((retiring s g id st data).front.segs.filter (fun h => h.id ≠ id)) := by
  unfold retire retiring
  rw [hg]
  dsimp only
  rw [ho]

/-- What a segment that retires changes before its transaction is looked at. -/
structure Retiring (s : State) (g : Segment) (id : Nat) (st : Status) (data : List Block) (t : State) : Prop where
  frame : t = { s with
    front := { s.front with tags := t.front.tags, segs := retireSegs s.front.segs id st data }
    media := { s.media with waiting := s.media.waiting ++ flushesAsked id s allTags }
    slots := t.slots
    damaged := if clearsDamage s g st then s.damaged.filter (fun d => !(coveredDamage s g).contains d) else s.damaged
    writes := if clearsDamage s g st then s.writes ++ [⟨.damaged (coveredDamage s g) [], .nothing, []⟩] else s.writes }
  tags  : ∀ f : FrontTag, t.front.tags[f] = txnLeft id s.front.tags[f]
  slots : ∀ i : SlotIx, t.slots[i] = if g.slot = some i then dropped s.slots[i] else s.slots[i]

theorem WaitSetsLeft.retiring {s t : State} {g : Segment} {id : Nat} {st : Status} {data : List Block}
    (h : WaitSetsLeft id allTags (clearDamage (dropOpt (modSeg s id (retiredSeg st data)) g.slot) g st) t) :
    Retiring s g id st data t := by
  obtain ⟨hframe, htags⟩ := h
  have hslots := dropOpt_slots (modSeg s id (retiredSeg st data)) g.slot
  rw [dropOpt_eq, clearDamage_eq] at hframe htags
  refine ⟨?_, fun f => ?_, fun i => ?_⟩
  · rw [hframe]
    rfl
  · rw [htags f, if_pos (mem_allTags f)]
    rfl
  · rw [hframe]
    exact hslots i

theorem retiring_spec (s : State) (g : Segment) (id : Nat) (st : Status) (data : List Block) :
    Retiring s g id st data (retiring s g id st data) :=
  (foldl_leaveWaitSet id allTags allTags_nodup _).retiring

/-! ## The transaction of a segment that has retired (R4) -/

/-- A retire leaves every segment its owner. -/
theorem filter_owner_retireSegs (l : List Segment) (id : Nat) (st : Status) (data : List Block) (x : FrontTag) :
    (retireSegs l id st data).filter (fun h => h.owner = some x) =
      retireSegs (l.filter (fun h => h.owner = some x)) id st data := by
  unfold retireSegs
  rw [List.filter_map]
  refine congrArg _ (List.filter_congr (fun h _ => ?_))
  simp only [Function.comp]
  split <;> rfl

/-- A transaction keeps its class whatever wait sets a segment leaves. -/
theorem txnLeft_cls (id : Nat) (y : Txn) : ∃ z, txnLeft id (some y) = some z ∧ z.cls = y.cls := by
  unfold txnLeft
  split
  · exact ⟨_, rfl, rfl⟩
  · exact ⟨_, rfl, rfl⟩
  · exact ⟨_, rfl, rfl⟩

/-- The status with which a media result retires a segment. -/
def mediaStatus : MediaResult → Status
  | .ok _ => .ok
  | .error => .mediaError

/-- What a segment's media request does to it when it is no READ's: it retires. -/
theorem exec_mediaCompletion_retire {s : State} {t : MediaTag} {q : MediaReq} {age : Nat} {g : Segment}
    (h : s.media.tags[t] = .busy q age) (hq : q.who = .seg g.id) (hg : segOf s g.id = some g) (hc : g.cls ≠ .read)
    (res : MediaResult) : exec (.mediaCompletion t res) s =
      .next (retire (setTag s t .free) g.id (mediaStatus res) []) := by
  rw [exec_mediaCompletion_busy h]
  cases res with
  | ok data => rw [answerOf, actFor_seg_ok (s := setTag s t .free) hq hg, if_neg (by simp [hc]), mediaStatus]
  | error => rw [answerOf, actFor_seg_error (s := setTag s t .free) hq hg, mediaStatus]

/-- The one segment of a WRITE or TRIM retires: its transaction completes with its status. -/
theorem retire_only_segment {s : State} {g : Segment} {x : FrontTag} {y : Txn} (hg : segOf s g.id = some g)
    (hmine : segsOf s x = [g]) (hx : s.front.tags[x] = some y) (hc : y.cls ≠ .read) (st : Status) :
    retire s g.id st [] = setSegs (closed (retiring s g g.id st []) x st [] none)
      ((retiring s g g.id st []).front.segs.filter (fun h => h.owner ≠ some x)) := by
  have ho : g.owner = some x := by
    have : g ∈ segsOf s x := by rw [hmine]; exact List.mem_singleton_self g
    simpa using (List.mem_filter.1 this).2
  have spec := retiring_spec s g g.id st []
  rw [retire_owned hg ho]
  generalize retiring s g g.id st [] = w at spec ⊢
  obtain ⟨z, hz, hzc⟩ := txnLeft_cls g.id y
  have hwx : w.front.tags[x] = some z := by rw [spec.tags x, hx, hz]
  have hsegs : segsOf w x = [retiredSeg st [] g] := by
    have hf : w.front.segs = retireSegs s.front.segs g.id st [] := by rw [spec.frame]
    have hm : s.front.segs.filter (fun h => h.owner = some x) = [g] := hmine
    unfold segsOf
    rw [hf, filter_owner_retireSegs, hm]
    simp [retireSegs]
  have hst : settledStatus [retiredSeg st [] g] = st := by
    rw [settledStatus_eq]
    by_cases h : st = .ok <;> simp [retiredSeg, h]
  rw [completeIfDone_of_retired hwx (by rw [hsegs]; simp [retiredSeg]), hsegs, hst]
  simp [hzc, hc]

/-- Settles O20: the retire, then the transaction, which completes with its last segment. -/
theorem lastSegmentCompletesItsTransaction : Obligations.LastSegmentCompletesItsTransaction := by
  refine ⟨fun s t q age g x y res h hq hg hmine hx hyc hgc => ?_, fun s id st data g x y hg ho hx hy => ?_⟩
  · intro st gone
    have hc : g.cls ≠ .read := by rcases hgc with e | e <;> rw [e] <;> decide
    have hexec := exec_mediaCompletion_retire h hq hg hc res
    rw [retire_only_segment (s := setTag s t .free) hg hmine hx (by rw [hyc]; exact hc)] at hexec
    have hst : mediaStatus res = st := rfl
    rw [hst] at hexec
    refine ⟨_, hexec, ?_⟩
    have hgone : coveredDamage (setTag s t .free) g = gone := coveredDamage_eq _ _
    have hclears : clearsDamage (setTag s t .free) g st = true ↔ st = .ok ∧ gone ≠ [] := by
      unfold clearsDamage
      rw [hgone]
      rcases hgc with e | e <;> simp [e]
    obtain ⟨hframe, -, hslots⟩ := retiring_spec (setTag s t .free) g g.id st []
    rw [hgone] at hframe
    generalize retiring (setTag s t .free) g g.id st [] = w at hframe hslots ⊢
    generalize w.front.tags = tags, w.slots = slots at hframe hslots
    subst hframe
    refine ⟨rfl, rfl, ?_, ?_, rfl, hslots, fun hok hne => ?_, fun hno => ?_⟩
    · simp [setSegs, closed]
    · simp [setSegs]
    · simp [setSegs, closed, hclears.2 ⟨hok, hne⟩]
    · have hn : clearsDamage (setTag s t .free) g st = false := Bool.eq_false_iff.2 (fun k => by
        obtain ⟨k1, k2⟩ := hclears.1 k
        rcases hno with e | e
        · exact e k1
        · exact k2 e)
      simp [setSegs, closed, hn]
  · intro gone clears segs mine final waits
    have hgone : coveredDamage s g = gone := coveredDamage_eq _ _
    have hclears : clearsDamage s g st = clears := by unfold clearsDamage; rw [hgone]
    obtain ⟨hframe, htags, hslots⟩ := retiring_spec s g id st data
    rw [hgone, hclears] at hframe
    have hwaits : ∀ f, waitSetLeft id s.front.tags[f] = waits f := fun f => by
      unfold waitSetLeft
      rfl
    have hasked : flushesAsked id s allTags =
        (allTags.filter (fun f => waits f = some [])).map (fun f => ⟨.flush, 0, 0, [], .flush f⟩) := by
      unfold flushesAsked
      simp only [hwaits]
    rw [hasked] at hframe
    rw [retire_owned hg ho]
    have hstay := (txnLeft_of_not_waiting (id := id) (x := some y)
      (fun z ids e k => by cases e; rw [hy] at k; cases k)).2
    have hwx : (retiring s g id st data).front.tags[x] = some y := by rw [htags x, hx, hstay]
    have hsegs : (retiring s g id st data).front.segs = segs := by rw [hframe]; rfl
    have hmine : segsOf (retiring s g id st data) x = mine := by
      rw [segsOf, hsegs]
    by_cases hall : ∀ h ∈ mine, h.state = .retired
    · rw [completeIfDone_of_retired hwx (by rw [hmine]; exact hall), hmine, settledStatus_eq, hsegs]
      generalize retiring s g id st data = w at hframe htags hslots ⊢
      have hother : ∀ f, f ≠ x → (closed w x .ok [] none).front.tags[f] = txnLeft id s.front.tags[f] :=
        fun f hf => (complete_tags w x f .ok [] none).trans ((if_neg hf).trans (htags f))
      generalize w.front.tags = tags, w.slots = slots at hframe htags hslots
      subst hframe
      refine ⟨_, rfl, rfl, hslots, rfl, fun f hf => ?_, rfl, rfl, rfl, fun _ => ⟨?_, rfl, ?_⟩, fun hn => ?_⟩
      · exact hother f hf
      · simp [setSegs, closed]
      · simp [setSegs, closed, final]
      · obtain ⟨h, hh, hr⟩ := hn
        exact absurd (hall h hh) hr
    · have hopen : ∃ h ∈ mine, h.state ≠ .retired := by simpa using hall
      rw [completeIfDone_of_open (by rw [hmine]; exact hopen)]
      generalize retiring s g id st data = w at hframe htags hslots hwx hsegs ⊢
      refine ⟨w, rfl, ?_, hslots, ?_, fun f _ => htags f, ?_, ?_, ?_, fun h => absurd h hall,
        fun _ => ⟨hwx, hsegs, ?_⟩⟩ <;> rw [hframe]

end Sys2Proof.Machine
end

section
/-! The link reset: the transactions it aborts, and what becomes of their segments (R24). -/

namespace Sys2Proof.Machine

/-! ## The transactions that are aborted (R24) -/

/-- Some tags' transactions have been aborted, `a` before and `t` after. -/
structure TagsAborted (l : List FrontTag) (a t : State) : Prop where
  frame : t = { a with front := { a.front with
    tags := t.front.tags
    sent := a.front.sent ++ (l.filter (fun x => a.front.tags[x].isSome)).map (fun x => ⟨x, .aborted, attention a, [], none⟩) } }
  tags  : ∀ x : FrontTag, t.front.tags[x] = if x ∈ l then none else a.front.tags[x]

/-- One tag's transaction is aborted, if there is one. -/
def abortOne (s : State) (x : FrontTag) : State :=
  if s.front.tags[x].isSome && some x ≠ none then complete s x .aborted [] none else s

theorem abortOne_eq (s : State) (x : FrontTag) : abortOne s x = { s with front := { s.front with
    tags := s.front.tags.set x none
    sent := s.front.sent ++ if s.front.tags[x].isSome then [⟨x, .aborted, attention s, [], none⟩] else [] } } := by
  unfold abortOne
  cases hx : s.front.tags[x] with
  | some y => rfl
  | none =>
    have hset : s.front.tags.set x none = s.front.tags := by rw [← hx]; simp
    rw [hset]
    simp

theorem foldl_abortOne (l : List FrontTag) (hl : l.Nodup) (a : State) : TagsAborted l a (l.foldl abortOne a) := by
  induction l generalizing a with
  | nil => exact ⟨by simp, fun x => by simp⟩
  | cons f l ih =>
    obtain ⟨hf, hl⟩ := List.nodup_cons.1 hl
    obtain ⟨hframe, htags⟩ := ih hl (abortOne a f)
    rw [List.foldl_cons]
    generalize l.foldl abortOne (abortOne a f) = t at hframe htags ⊢
    rw [abortOne_eq] at hframe htags
    have hother : ∀ k : FrontTag, k ≠ f → (a.front.tags.set f none)[k] = a.front.tags[k] :=
      fun k hk => Vector.getElem_set_ne _ _ (fun e => hk (Fin.ext e.symm))
    have hfilter : l.filter (fun x => (a.front.tags.set f none)[x].isSome) = l.filter (fun x => a.front.tags[x].isSome) :=
      List.filter_congr (fun k hk => by rw [hother k (fun e => hf (e ▸ hk))])
    refine ⟨?_, fun k => ?_⟩
    · rw [hframe]
      dsimp only
      rw [hfilter, List.filter_cons, List.append_assoc]
      split <;> rfl
    · rw [htags k]
      by_cases hk : k = f
      · subst hk
        simp
      · have hmem : k ∈ f :: l ↔ k ∈ l := by simp [hk]
        simp only [hmem]
        exact if_congr Iff.rfl rfl (hother k hk)

/-- A link reset aborts the transaction of every tag, and empties the lists of transactions. -/
theorem abortAll_none (s : State) : ∃ tags : Vector (Option Txn) 32, (∀ x : FrontTag, tags[x] = none) ∧
    abortAll s none = { s with
      front := { s.front with
        tags := tags, waiting := [], held := []
        sent := s.front.sent ++ (allTags.filter (fun x => s.front.tags[x].isSome)).map (fun x =>
          ⟨x, .aborted, attention s, [], none⟩) }
      control := { s.control with queue := [] } } := by
  obtain ⟨hframe, htags⟩ := foldl_abortOne allTags allTags_nodup
    { s with front := { s.front with held := [], waiting := [] }, control := { s.control with queue := [] } }
  have he : abortAll s none = allTags.foldl abortOne
    { s with front := { s.front with held := [], waiting := [] }, control := { s.control with queue := [] } } := rfl
  rw [he]
  generalize allTags.foldl abortOne _ = t at hframe htags ⊢
  refine ⟨t.front.tags, fun x => ?_, hframe⟩
  rw [htags x, if_pos (mem_allTags x)]

/-! ## A segment without a transaction retires (R13, R24, R50) -/

theorem foldl_leaveWaitSet_none {id : Nat} {l : List FrontTag} {a : State} (h : ∀ f : FrontTag, a.front.tags[f] = none) :
    l.foldl (leaveWaitSet id) a = a := by
  induction l with
  | nil => rfl
  | cons f l ih => rw [List.foldl_cons, leaveWaitSet_stays (by rw [h f]; rfl), ih]

/-- Records of other numbers than the changed ones stand. -/
theorem filter_map_of_id_ne (l : List Segment) (id : Nat) (f : Segment → Segment) (hf : ∀ h, (f h).id = h.id) :
    (l.map (fun h => if h.id = id then f h else h)).filter (fun h => h.id ≠ id) = l.filter (fun h => h.id ≠ id) := by
  induction l with
  | nil => rfl
  | cons h l ih =>
    rw [List.map_cons, List.filter_cons, List.filter_cons, ih]
    by_cases e : h.id = id
    · rw [if_pos e, hf h]
      simp [e]
    · rw [if_neg e]

/-- With no transaction left, a segment that retires ABORTED leaves its slot and the records, and changes nothing else. -/
theorem retire_aborted {s : State} {id : Nat} {g : Segment} (htags : ∀ f : FrontTag, s.front.tags[f] = none)
    (hg : segOf s id = some g) (ho : g.owner = none) : retire s id .aborted [] = { s with
      front := { s.front with segs := s.front.segs.filter (fun h => h.id ≠ id) }
      slots := (dropOpt s g.slot).slots } := by
  have hretiring : retiring s g id .aborted [] =
      dropOpt (modSeg s id (fun g => { g with state := .retired, status := .aborted, data := [] })) g.slot := by
    unfold retiring
    rw [clearDamage_eq]
    refine (foldl_leaveWaitSet_none (fun f => ?_)).trans rfl
    rw [dropOpt_eq]
    exact htags f
  rw [retire_orphan hg ho, hretiring, dropOpt_eq]
  unfold modSeg setSegs
  dsimp only
  rw [filter_map_of_id_ne s.front.segs id (fun g => { g with state := .retired, status := .aborted, data := [] })
    (fun _ => rfl)]
  cases g.slot <;> rfl

/-! ## The segments of aborted transactions (R24) -/

/-- Whether a segment of an aborted transaction waits for a lane or a media tag. -/
def waitsAsk (g : Segment) : Bool := g.state = .laneWait || g.state = .tagWait

/-- Whether the record of a segment of an aborted transaction goes. -/
def recordGoes (g : Segment) : Bool := g.state = .laneWait || g.state = .tagWait || g.state = .retired

/-- A slot that some references leave. -/
def droppedTimes (k : Nat) (x : Slot) : Slot :=
  if x.state = .pendingZero ∧ 0 < k ∧ x.count ≤ k then emptySlot else { x with count := x.count - k }

theorem droppedTimes_zero (x : Slot) : droppedTimes 0 x = x := by
  simp [droppedTimes]

theorem droppedTimes_one (x : Slot) : droppedTimes 1 x = dropped x := by
  simp [droppedTimes, dropped]

/-- References leave a slot one after another as they leave it together. -/
theorem droppedTimes_add (m n : Nat) (x : Slot) : droppedTimes (m + n) x = droppedTimes n (droppedTimes m x) := by
  by_cases hm : x.state = .pendingZero ∧ 0 < m ∧ x.count ≤ m
  · obtain ⟨hs, h0, hc⟩ := hm
    have hmn : droppedTimes (m + n) x = emptySlot := if_pos ⟨hs, by omega, by omega⟩
    rw [hmn, show droppedTimes m x = emptySlot from if_pos ⟨hs, h0, hc⟩]
    simp [droppedTimes, emptySlot]
  · rw [show droppedTimes m x = { x with count := x.count - m } from if_neg hm]
    unfold droppedTimes
    dsimp only
    have hiff : (x.state = .pendingZero ∧ 0 < m + n ∧ x.count ≤ m + n) ↔
        (x.state = .pendingZero ∧ 0 < n ∧ x.count - m ≤ n) := by
      refine and_congr_right (fun hs => ?_)
      have hm' : ¬ (0 < m ∧ x.count ≤ m) := fun k => hm ⟨hs, k⟩
      omega
    simp only [hiff, Nat.sub_sub]

/-- Segments of aborted transactions have been dealt with, `a` before and `t` after (R24). -/
structure Orphaned (l : List Segment) (a t : State) : Prop where
  frame : t = { a with
    front := { a.front with segs := a.front.segs.filter (fun h => !l.any (fun g => recordGoes g && g.id = h.id)) }
    arb := { a.arb with wait := a.arb.wait.filter (fun id => !l.any (fun g => g.state = .laneWait && g.id = id)) }
    media := { a.media with
      waiting := a.media.waiting.filter (fun q => !l.any (fun g => g.state = .tagWait && q.who = .seg g.id)) }
    slots := t.slots }
  slots : ∀ i : SlotIx, t.slots[i] = droppedTimes (l.countP (fun g => waitsAsk g && g.slot = some i)) a.slots[i]

theorem filter_not_any_append {α β : Type} (m : List α) (l l' : List β) (p : β → α → Bool) :
    (m.filter (fun x => !l.any (fun g => p g x))).filter (fun x => !l'.any (fun g => p g x)) =
      m.filter (fun x => !(l ++ l').any (fun g => p g x)) := by
  rw [List.filter_filter]
  refine List.filter_congr (fun x _ => ?_)
  rw [List.any_append, Bool.not_or, Bool.and_comm]

theorem Orphaned.nil (a : State) : Orphaned [] a a where
  frame := by simp
  slots i := by simp [droppedTimes_zero]

theorem Orphaned.trans {a t u : State} {l l' : List Segment} (h : Orphaned l a t) (k : Orphaned l' t u) :
    Orphaned (l ++ l') a u := by
  refine ⟨?_, fun i => ?_⟩
  · rw [k.frame, h.frame]
    dsimp only
    rw [filter_not_any_append a.front.segs l l' (fun g h => recordGoes g && g.id = h.id),
      filter_not_any_append a.arb.wait l l' (fun g id => g.state = .laneWait && g.id = id),
      filter_not_any_append a.media.waiting l l' (fun g q => g.state = .tagWait && q.who = .seg g.id)]
  · rw [k.slots i, h.slots i, List.countP_append, droppedTimes_add]

/-- A segment's own record, which has lost its transaction. -/
def RecordOf (a : State) (g : Segment) : Prop := ∃ h, segOf a g.id = some h ∧ h.owner = none ∧ h.slot = g.slot

/-- One segment of an aborted transaction: one that waits leaves its list and retires; one in a lane or on the media stays. -/
theorem orphanSeg_spec {a : State} {g : Segment} (htags : ∀ f : FrontTag, a.front.tags[f] = none) (hg : RecordOf a g) :
    Orphaned [g] a (orphanSeg a g) := by
  obtain ⟨h, hh, ho, hslot⟩ := hg
  have hdrop : waitsAsk g = true → ∀ b : State, b.slots = a.slots → ∀ i : SlotIx, (dropOpt b h.slot).slots[i] =
      droppedTimes ([g].countP (fun g => waitsAsk g && g.slot = some i)) a.slots[i] := fun hw b hb i => by
    rw [dropOpt_slots, hslot, hb]
    by_cases hi : g.slot = some i <;> simp [hi, hw, droppedTimes_one, droppedTimes_zero]
  have hstay : waitsAsk g = false → ∀ i : SlotIx, a.slots[i] =
      droppedTimes ([g].countP (fun g => waitsAsk g && g.slot = some i)) a.slots[i] := fun hw i => by
    simp [hw, droppedTimes_zero]
  unfold orphanSeg
  cases hst : g.state with
  | laneWait =>
    dsimp only
    rw [retire_aborted (s := { a with arb := { a.arb with wait := a.arb.wait.filter (· ≠ g.id) } }) htags hh ho]
    refine ⟨?_, hdrop (by simp [waitsAsk, hst]) _ rfl⟩
    simp [recordGoes, hst, eq_comm (a := g.id)]
  | tagWait =>
    dsimp only
    rw [retire_aborted (s := { a with media :=
      { a.media with waiting := a.media.waiting.filter (fun q => q.who ≠ .seg g.id) } }) htags hh ho]
    refine ⟨?_, hdrop (by simp [waitsAsk, hst]) _ rfl⟩
    simp [recordGoes, hst, eq_comm (a := g.id)]
  | retired =>
    refine ⟨?_, hstay (by simp [waitsAsk, hst])⟩
    simp [setSegs, recordGoes, hst, eq_comm (a := g.id)]
  | inLane =>
    refine ⟨?_, hstay (by simp [waitsAsk, hst])⟩
    simp [recordGoes, hst]
  | onMedia =>
    refine ⟨?_, hstay (by simp [waitsAsk, hst])⟩
    simp [recordGoes, hst]

/-- Dealing with one segment leaves the records of the others. -/
theorem Orphaned.recordOf {a t : State} {g h : Segment} (k : Orphaned [g] a t) (hne : g.id ≠ h.id) (hh : RecordOf a h) :
    RecordOf t h := by
  obtain ⟨r, hr, ho, hs⟩ := hh
  refine ⟨r, ?_, ho, hs⟩
  rw [k.frame]
  unfold segOf at hr ⊢
  dsimp only
  rw [List.find?_filter]
  refine Eq.trans (congrArg (fun p => List.find? p a.front.segs) (funext fun x => ?_)) hr
  by_cases hx : x.id = h.id
  · have hgx : g.id ≠ x.id := fun e => hne (e.trans hx)
    simp [hx, hne]
  · simp [hx]

theorem foldl_orphanSeg (l : List Segment) (hl : (l.map (·.id)).Nodup) (a : State)
    (htags : ∀ f : FrontTag, a.front.tags[f] = none) (hrec : ∀ g ∈ l, RecordOf a g) :
    Orphaned l a (l.foldl orphanSeg a) := by
  induction l generalizing a with
  | nil => exact .nil a
  | cons g l ih =>
    obtain ⟨hg, hl⟩ := List.nodup_cons.1 hl
    have hfirst := orphanSeg_spec htags (hrec g List.mem_cons_self)
    refine hfirst.trans (ih hl _ (fun f => ?_) (fun h hh => ?_))
    · rw [hfirst.frame]
      exact htags f
    · exact hfirst.recordOf (fun e => hg (List.mem_map.2 ⟨h, hh, e.symm⟩)) (hrec h (List.mem_cons_of_mem _ hh))

/-! ## The link reset -/

/-- A segment that has lost its transaction. -/
def disowned (g : Segment) : Segment := { g with owner := none }

/-- The state of a link reset before the segments of the aborted transactions are dealt with. -/
def abortedState (s : State) : State :=
  setSegs (abortAll s none) (s.front.segs.map disowned)

/-- The segments that belong to a transaction. -/
def ownedSegs (s : State) : List Segment := s.front.segs.filter (fun g => g.owner.isSome)

theorem linkReset_eq (s : State) : linkReset s =
    let t := (ownedSegs s).foldl orphanSeg (abortedState s)
    { t with
      media := ⟨vmap discardFlush t.media.tags, t.media.waiting.filter (fun q => !isFlushReq q)⟩
      control := { t.control with service := t.control.service.bind resetService, prepared := none }
      regions := { t.regions with reserveView := false, writeOpen := false } } := by
  obtain ⟨tags, -, he⟩ := abortAll_none s
  have hs : (abortAll s none).front.segs = s.front.segs := by rw [he]
  unfold linkReset abortedState ownedSegs
  dsimp only
  rw [hs]
  rfl

theorem find?_of_nodup {l : List Segment} (hl : (l.map (·.id)).Nodup) {g : Segment} (hg : g ∈ l) :
    l.find? (fun h => h.id = g.id) = some g := by
  induction l with
  | nil => cases hg
  | cons h l ih =>
    obtain ⟨hh, hl⟩ := List.nodup_cons.1 hl
    rcases List.mem_cons.1 hg with rfl | hg
    · simp
    · have hne : h.id ≠ g.id := fun e => hh (List.mem_map.2 ⟨g, hg, e.symm⟩)
      rw [List.find?_cons, decide_eq_false hne]
      exact ih hl hg

theorem abortedState_recordOf {s : State} (hs : (s.front.segs.map (·.id)).Nodup) {g : Segment} (hg : g ∈ ownedSegs s) :
    RecordOf (abortedState s) g := by
  refine ⟨disowned g, ?_, rfl, rfl⟩
  show (s.front.segs.map disowned).find? (fun h => h.id = g.id) = _
  rw [List.find?_map]
  exact congrArg (Option.map disowned) (find?_of_nodup hs (List.mem_filter.1 hg).1)

/-- A segment stands for itself alone among the segments that belong to a transaction. -/
theorem any_ownedSegs {s : State} (hs : (s.front.segs.map (·.id)).Nodup) {h : Segment} (hh : h ∈ s.front.segs)
    (p : Segment → Bool) : (ownedSegs s).any (fun g => p g && g.id = h.id) = (h.owner.isSome && p h) := by
  rw [Bool.eq_iff_iff, List.any_eq_true]
  simp only [Bool.and_eq_true, decide_eq_true_eq]
  constructor
  · rintro ⟨g, hg, hp, hid⟩
    obtain ⟨hgs, hgo⟩ := List.mem_filter.1 hg
    have hgh : g = h := List.inj_on_of_nodup_map hs hgs hh hid
    exact hgh ▸ ⟨hgo, hp⟩
  · rintro ⟨ho, hp⟩
    exact ⟨h, List.mem_filter.2 ⟨hh, ho⟩, hp, rfl⟩

theorem resetService_eq (v : Option Service) : v.bind resetService =
    match v with
    | some v => if v.after = .start ∧ parse v.block = some .reserveOpen then none else some { v with tag := none }
    | none => none := by
  cases v with
  | none => rfl
  | some v =>
    show resetService v = _
    unfold resetService
    simp only [Bool.and_eq_true, decide_eq_true_eq]

theorem discardFlush_eq (x : TagState) : discardFlush x =
    match x with
    | .busy q age => .busy (match q.who with | .flush _ => { q with who := .discard } | _ => q) age
    | .free => .free
    | .quarantined => .quarantined := by
  cases x with
  | free => rfl
  | quarantined => rfl
  | busy q age =>
    unfold discardFlush
    dsimp only
    cases q.who <;> rfl

/-- Settles O18: the transactions, then their segments, then the views and the requests of the media port. -/
theorem linkResetEndsTransactions : Obligations.LinkResetEndsTransactions := by
  refine ⟨fun s hp => if_neg (by simp [hp]), fun s hp hs => ?_⟩
  intro ends drops
  obtain ⟨tags, htags, habort⟩ := abortAll_none s
  have hstate : abortedState s = setSegs _ _ := congrArg (fun a => setSegs a (s.front.segs.map disowned)) habort
  have horphaned := foldl_orphanSeg (ownedSegs s) (hs.sublist (List.filter_sublist.map _)) (abortedState s)
    (fun f => by rw [hstate]; exact htags f) (fun g hg => abortedState_recordOf hs hg)
  refine ⟨_, if_pos hp, ?_⟩
  rw [linkReset_eq]
  dsimp only
  obtain ⟨hframe, hslots⟩ := horphaned
  generalize (ownedSegs s).foldl orphanSeg (abortedState s) = t at hframe hslots ⊢
  rw [hstate] at hframe hslots
  generalize t.slots = slots at hframe hslots
  subst hframe
  refine ⟨rfl, rfl, htags, rfl, rfl, rfl, ?_, fun i => (hslots i).trans ?_, ?_, rfl, ?_, fun i => ?_, ?_⟩
  · show ((s.front.segs.map disowned).filter _) = _
    rw [List.filter_map]
    refine congrArg (List.map disowned) (List.filter_congr (fun h hh => ?_))
    show (!(ownedSegs s).any (fun g => recordGoes g && g.id = h.id)) = _
    rw [any_ownedSegs hs hh]
    cases ho : h.owner <;> simp [ends, recordGoes, ho]
  · have hcount : (ownedSegs s).countP (fun g => waitsAsk g && g.slot = some i) = drops i := by
      unfold ownedSegs
      rw [List.countP_filter]
      refine List.countP_congr (fun g _ => ?_)
      cases ho : g.owner <;> simp [ends, waitsAsk, ho]
    rw [hcount]
    rfl
  · exact congrArg (fun v => ({ s.control with queue := [], service := v, prepared := none } : Control)) (resetService_eq _)
  · refine congrArg (fun l => ({ s.arb with wait := l } : Arbiter)) (List.filter_congr (fun id _ => ?_))
    unfold ownedSegs
    rw [List.any_filter]
    simp [ends, Bool.and_assoc]
  · exact (vmap_getElem discardFlush s.media.tags i).trans (discardFlush_eq _)
  · refine (List.filter_filter ..).trans (List.filter_congr (fun q _ => ?_))
    unfold ownedSegs
    rw [List.any_filter]
    have hid : ∀ (id : Nat) (g : Segment), Requester.seg id = .seg g.id ↔ g.id = id := fun id g =>
      ⟨fun e => (Requester.seg.inj e).symm, fun e => congrArg Requester.seg e.symm⟩
    cases hw : q.who with
    | seg id => simp [isFlushReq, ends, hw, hid, Bool.and_assoc]
    | flush f => simp [isFlushReq, hw]
    | sweep r => simp [isFlushReq, hw]
    | recovery r w a => simp [isFlushReq, hw]
    | discard => simp [isFlushReq, hw]

end Sys2Proof.Machine
end

section
/-! A PURGE chunk from its taking to its end: its checkpoint, its pass, its media requests and its stores (R127 to R129). -/

namespace Sys2Proof.Machine

/-! ## The chunk's state -/

/-- A chunk set in motion with no request and no write. -/
theorem chunkState_nil (s : State) (c : Chunk) : chunkState s c [] [] = setChunk s (some c) := by
  simp [chunkState, setChunk]

/-- A chunk set in motion with one store write. -/
theorem chunkState_store (s : State) (c : Chunk) (op : StoreOp) :
    chunkState s c [] [op] = issue (setChunk s (some c)) [(op, .chunk)] := by
  simp [chunkState, setChunk, issue]

/-- Media requests made for the chunk in motion. -/
theorem chunkState_requests {s : State} {c : Chunk} (h : s.sweep.chunk = some c) (reqs : List MediaReq) :
    chunkState s c reqs [] = { s with media := { s.media with waiting := s.media.waiting ++ reqs } } := by
  rw [chunkState, ← h]
  simp

/-- The cause of the first failure stands (R130). -/
theorem markFailed_eq (c : Chunk) (k : StallCause) : markFailed c k = { c with fail := some (c.fail.getD k) } := by
  unfold markFailed
  cases c.fail <;> rfl

theorem setChunk_self {s : State} {c : Chunk} (h : s.sweep.chunk = some c) : setChunk s (some c) = s := by
  rw [setChunk, ← h]

theorem purgeEnds_iff (s : State) (j : JobNo) (r : RangeIx) (lba : Nat) :
    purgeEnds s j r lba = true ↔ clippedEnd s r ≤ lba ∧ purgeNames s (some j) r = false := by
  simp [purgeEnds]

/-! ## The checkpoint store (R128) -/

theorem storePurge_final {s : State} {j : JobNo} {b : Job} {c : Chunk} (h : purgeEnds s j c.range (c.start + c.len) = true) :
    storePurge s j b c = chunkState s { c with phase := .fillStore true } [] [.rangeSteady c.range] := by
  rw [chunkState_store, storePurge, h]
  rfl

theorem storePurge_checkpoint {s : State} {j : JobNo} {b : Job} {c : Chunk} {p : Pattern}
    (h : ¬ purgeEnds s j c.range (c.start + c.len) = true) (hp : b.pattern = some p) : storePurge s j b c =
      chunkState s { c with phase := .fillStore false } []
        [.rangePurge c.range ⟨c.start + c.len, ⟨b.level, b.policy, p⟩⟩] := by
  rw [chunkState_store, storePurge, Bool.eq_false_iff.2 h, hp]
  rfl

theorem askLanes_dedicated {s : State} {l : LaneIx} (hd : s.arb.dedicated = some l) (hl : s.arb.lanes[l] = .dedicated) :
    askLanes s .holding = { s with arb := { s.arb with lanes := s.arb.lanes.set l (.granted .pass) } } := by
  unfold askLanes
  dsimp only
  split
  · rename_i k hk
    cases hd.symm.trans hk
    exact if_pos hl
  · rename_i hk
    cases hd.symm.trans hk

theorem askLanes_none {s : State} (h : ∀ l, s.arb.dedicated = some l → s.arb.lanes[l] ≠ .dedicated) :
    askLanes s .holding = s := by
  unfold askLanes
  dsimp only
  cases hd : s.arb.dedicated with
  | none => rfl
  | some l => exact if_neg (h l hd)

/-! ## The end of the pass (R14, R128) -/

/-- One lane of a pass is released. -/
def releaseLane (s : State) (l : LaneIx) : State :=
  if s.arb.lanes[l] = .granted .pass then setLane s l (if s.arb.dedicated = some l then .dedicated else .free) else s

theorem releaseLane_spec (s : State) (l : LaneIx) :
    releaseLane s l = { s with arb := { s.arb with lanes := (releaseLane s l).arb.lanes } } ∧
    ∀ m : LaneIx, (releaseLane s l).arb.lanes[m] = if m = l ∧ s.arb.lanes[m] = .granted .pass then
      if s.arb.dedicated = some m then .dedicated else .free else s.arb.lanes[m] := by
  unfold releaseLane
  by_cases h : s.arb.lanes[l] = .granted .pass
  · rw [if_pos h]
    refine ⟨rfl, fun m => ?_⟩
    rw [setLane_lanes]
    by_cases hm : m = l
    · subst hm
      have hboth : m = m ∧ s.arb.lanes[m] = .granted .pass := ⟨rfl, h⟩
      rw [if_pos rfl, if_pos hboth]
    · have hboth : ¬ (m = l ∧ s.arb.lanes[m] = .granted .pass) := fun k => hm k.1
      rw [if_neg hm, if_neg hboth]
  · rw [if_neg h]
    refine ⟨rfl, fun m => ?_⟩
    have hboth : ¬ (m = l ∧ s.arb.lanes[m] = .granted .pass) := fun ⟨k1, k2⟩ => h (k1 ▸ k2)
    rw [if_neg hboth]

theorem foldl_releaseLane (ls : List LaneIx) (hls : ls.Nodup) (s : State) :
    ls.foldl releaseLane s = { s with arb := { s.arb with lanes := (ls.foldl releaseLane s).arb.lanes } } ∧
    ∀ m : LaneIx, (ls.foldl releaseLane s).arb.lanes[m] = if m ∈ ls ∧ s.arb.lanes[m] = .granted .pass then
      if s.arb.dedicated = some m then .dedicated else .free else s.arb.lanes[m] := by
  induction ls generalizing s with
  | nil => exact ⟨rfl, fun m => by simp⟩
  | cons l ls ih =>
    obtain ⟨hl, hls⟩ := List.nodup_cons.1 hls
    obtain ⟨hframe, hlanes⟩ := ih hls (releaseLane s l)
    obtain ⟨hframe1, hlanes1⟩ := releaseLane_spec s l
    rw [List.foldl_cons]
    have hded : (releaseLane s l).arb.dedicated = s.arb.dedicated := by rw [hframe1]
    refine ⟨?_, fun m => ?_⟩
    · rw [hframe]
      generalize (ls.foldl releaseLane (releaseLane s l)).arb.lanes = lanes
      rw [hframe1]
    · rw [hlanes m, hlanes1 m, hded]
      by_cases hm : m = l
      · subst hm
        simp [hl]
      · simp [hm]

/-- The pass's lanes are released together, and nothing else changes. -/
theorem releasePass_spec (s : State) :
    releasePass s = { s with arb := (releasePass s).arb } ∧ PassReleased s.arb (releasePass s).arb := by
  obtain ⟨hframe, hlanes⟩ := foldl_releaseLane allLanes (by decide) { s with arb := { s.arb with waitingPass := false } }
  have he : releasePass s = allLanes.foldl releaseLane { s with arb := { s.arb with waitingPass := false } } := rfl
  rw [he]
  refine ⟨?_, ?_, fun l => ?_⟩
  · rw [hframe]
  · rw [hframe]
  · rw [hlanes l]
    simp only [mem_allLanes, true_and]

/-- The WRITEs of several runs join the waiting list in order. -/
theorem foldl_writeRun (c : Chunk) (addr : Run → Nat) (q : Run → SweepReq) (l : List Run) (s : State) :
    l.foldl (writeRun c addr q) s = { s with media := { s.media with
      waiting := s.media.waiting ++ l.map (fun x => ⟨.write, addr x, x.len, runData c x, .sweep (q x)⟩) } } := by
  induction l generalizing s with
  | nil => simp
  | cons x l ih =>
    rw [List.foldl_cons, ih, writeRun, askSweep, askTag]
    simp [runData]

/-- The chunk whose pass has ended: its fill, by the job's pattern, and one WRITE for each run outstanding. -/
def filled (s : State) (c : Chunk) (p : Pattern) : Chunk :=
  { c with
    phase := .fillWrite, outstanding := c.runs.length
    fresh := (c.runs.flatMap blocksOf).zipIdx.map (fun (x : Nat × Nat) => (x.1, fillBlock p (s.fresh + x.2))) }

theorem purgePassEnd_eq (s : State) (c : Chunk) (p : Pattern) : purgePassEnd s c p =
    { chunkState s (filled s c p) (c.runs.map (fun x =>
        ⟨.write, x.start, x.len, runData (filled s c p) x, .sweep (.fill x false)⟩)) [] with
      fresh := s.fresh + (c.runs.flatMap blocksOf).length } := by
  unfold purgePassEnd
  refine (foldl_writeRun _ _ _ _ _).trans ?_
  simp [chunkState, setChunk, filled]

theorem filled_fresh_length (s : State) (c : Chunk) (p : Pattern) :
    (filled s c p).fresh.length = (c.runs.flatMap blocksOf).length := by
  simp only [filled, List.length_map, List.length_zipIdx]

theorem filled_fresh_fst (s : State) (c : Chunk) (p : Pattern) :
    (filled s c p).fresh.map (·.1) = c.runs.flatMap blocksOf := by
  unfold filled
  rw [List.map_map]
  exact List.zipIdx_map_fst 0 _

theorem filled_fresh_getElem (s : State) (c : Chunk) (p : Pattern) (n : Nat) (h : n < (filled s c p).fresh.length) :
    (filled s c p).fresh[n].2 = fillBlock p (s.fresh + n) := by
  simp only [filled, List.getElem_map, List.getElem_zipIdx, Nat.zero_add]

/-- The blocks of a fill of one value are of that value. -/
theorem filled_const {s : State} {c : Chunk} {p : Pattern} {v : Block} (hp : ∀ n, fillBlock p n = v) :
    ∀ y ∈ (filled s c p).fresh, y.2 = v := by
  intro y hy
  obtain ⟨x, -, rfl⟩ := List.mem_map.1 hy
  exact hp _

theorem exec_chunkPassEnd_purge {s : State} {c : Chunk} {b : Job} (hc : s.sweep.chunk = some c) (hk : c.kind = .purge)
    (hb : jobAt s c.job = some b) (hp : c.phase = .pass) (hl : 0 < passLanes s) :
    exec .chunkPassEnd s = .next (purgePassEnd (releasePass s) c (b.pattern.getD .zeros)) := by
  obtain ⟨hframe, -⟩ := releasePass_spec s
  have hj : jobAt (releasePass s) c.job = some b := by rw [hframe]; exact hb
  show execChunkPassEnd s = _
  unfold execChunkPassEnd
  rw [hc]
  dsimp only
  rw [if_pos (by simp [hp, hl]), hk]
  dsimp only
  rw [hj]
  rfl

/-! ## Answers and the chunk's going on (R129, R130) -/

/-- The chunk in motion is the one that goes on, whatever the state held before. -/
theorem chunkGoOn_setChunk (s : State) (d : Chunk) : chunkGoOn s d = chunkGoOn (setChunk s (some d)) d := by
  unfold chunkGoOn
  have hj : jobAt (setChunk s (some d)) d.job = jobAt s d.job := rfl
  rw [hj]
  split
  · rfl
  · cases jobAt s d.job with
    | none => rfl
    | some b =>
      dsimp only
      cases d.phase <;> rfl

/-- With every WRITE answered, a failed chunk ends, and any other stores its checkpoint (R128, R129). -/
theorem chunkGoOn_fillWrite {s : State} {c : Chunk} {b : Job} (h0 : c.outstanding = 0) (hp : c.phase = .fillWrite)
    (hb : jobAt s c.job = some b) : chunkGoOn s c = fillDone s c b := by
  unfold chunkGoOn
  rw [if_neg (not_not.2 h0), hb]
  dsimp only
  rw [hp]

theorem fillDone_failed {s : State} {c : Chunk} {b : Job} (h : c.failedTwice = true) :
    fillDone s c b = engine (settleTurn (setChunk s none) c.job .failed) := by
  rw [fillDone, h, if_pos (by simp), failPurge, if_pos h]

theorem fillDone_stalled {s : State} {c : Chunk} {b : Job} {k : StallCause} (h : c.failedTwice = false)
    (hf : c.fail = some k) : fillDone s c b = engine (settleTurn (setChunk s none) c.job (.stalled k)) := by
  rw [fillDone, if_pos (by simp [hf]), failPurge, if_neg (by simp [h]), hf]
  rfl

theorem fillDone_ok {s : State} {c : Chunk} {b : Job} (h : c.failedTwice = false) (hf : c.fail = none) :
    fillDone s c b = storePurge s c.job b c := by
  rw [fillDone, if_neg (by simp [h, hf])]

/-! ## The completion of the checkpoint (R39, R128) -/

theorem owesSteady_iff {s : State} {c : Chunk} {b : Job} (hb : jobAt s c.job = some b) : owesSteady s c = true ↔
    s.ranges[c.range].cond = .purging ∧ cursorRange b = some c.range ∧
      clippedEnd s c.range ≤ c.start + c.len ∧ purgeNames s (some c.job) c.range = false := by
  unfold owesSteady
  rw [hb, ← purgeEnds_iff]
  simp [and_assoc]

/-- The spans of the ranges, the capacity and the stored checkpoints are all that moves a cursor. -/
theorem purgeAdvanced_congr {s t : State} (c : Chunk) (b : Job)
    (hspan : ∀ r : RangeIx, t.ranges[r].start = s.ranges[r].start ∧ t.ranges[r].len = s.ranges[r].len)
    (hreg : t.regions = s.regions) (hstore : t.store = s.store) : purgeAdvanced t c b = purgeAdvanced s c b := by
  have hstart : ∀ r, rangeStart t r = rangeStart s r := fun r => by
    unfold rangeStart
    rw [(hspan r).1]
  have hend : clippedEnd t c.range = clippedEnd s c.range := by
    unfold clippedEnd rangeEnd
    rw [(hspan c.range).1, (hspan c.range).2, hreg]
  unfold purgeAdvanced pastRange nextLba
  simp only [hend, hstart, hstore]

/-- The range entries once the STEADY record of a chunk's range has completed. -/
def steadied (s : State) (c : Chunk) (final : Bool) : Vector RangeEntry 16 :=
  if final = true ∧ s.ranges[c.range].cond = .purging then
    s.ranges.set c.range { s.ranges[c.range] with cond := .steady } else s.ranges

theorem steadied_span (s : State) (c : Chunk) (final : Bool) (r : RangeIx) :
    (steadied s c final)[r].start = s.ranges[r].start ∧ (steadied s c final)[r].len = s.ranges[r].len := by
  unfold steadied
  split
  · by_cases hr : c.range = r
    · subst hr
      simp
    · have hne := Vector.getElem_set_ne (xs := s.ranges) (x := { s.ranges[c.range] with cond := .steady })
        c.range.isLt r.isLt (fun e => hr (Fin.ext e))
      exact ⟨congrArg RangeEntry.start hne, congrArg RangeEntry.len hne⟩
  · exact ⟨rfl, rfl⟩

/-- The chunk ends: its range is STEADY with the STEADY record, the cursor moves, and the job is at a boundary. -/
theorem purgeStored_ends {s : State} {c : Chunk} {b : Job} {final : Bool} (hb : jobAt s c.job = some b)
    (h : final = true ∨ owesSteady s c = false) : purgeStored s c final =
      engine (settleTurn { s with
        ranges := steadied s c final
        sweep := { s.sweep with chunk := none, jobs := s.sweep.jobs.set c.job (.job (purgeAdvanced s c b)) } }
        c.job .went) := by
  have ht : (if final && s.ranges[c.range].cond = .purging then modRange s c.range (fun x => { x with cond := .steady })
      else s) = { s with ranges := steadied s c final } := by
    unfold steadied
    simp only [Bool.and_eq_true, decide_eq_true_eq]
    split <;> rfl
  unfold purgeStored
  rw [if_neg (by rcases h with h | h <;> simp [h])]
  dsimp only
  rw [ht]
  have hj : jobAt { s with ranges := steadied s c final } c.job = some b := hb
  rw [modJob, hj]
  dsimp only
  rw [purgeAdvanced_congr (s := s) (t := { s with ranges := steadied s c final }) c b (steadied_span s c final) rfl rfl]
  rfl

/-- Where the cursor of a PURGE job stands after its chunk (R128, R137). -/
theorem purgeAdvanced_eq (s : State) (c : Chunk) (b : Job) : purgeAdvanced s c b =
    if cursorRange b ≠ some c.range then b
    else if clippedEnd s c.range ≤ c.start + c.len then
      { b with
        pos := b.pos + 1
        lba := match b.ranges[b.pos + 1]? with
          | some r =>
            if b.recreated then ((s.store.ranges[r].purge).map (·.lba)).getD (rangeStart s r) else rangeStart s r
          | none => c.start + c.len }
    else { b with lba := c.start + c.len } := rfl

theorem chunkStored_fillStore {s : State} {c : Chunk} {final : Bool} (hc : s.sweep.chunk = some c)
    (hp : c.phase = .fillStore final) : chunkStored s = purgeStored s c final := by
  unfold chunkStored
  rw [hc]
  dsimp only
  rw [hp]

/-- Settles O25, part by part: the taking, the pass, the answers, the end of the WRITEs and the end of the stores. -/
theorem purgeChunkRunsToItsEnd : Obligations.PurgeChunkRunsToItsEnd := by
  refine ⟨fun s j b r => ?_, fun s c b hc hk hb => ?_⟩
  · intro len runs c final
    have htake : takePurge s j b r = if runs.isEmpty then storePurge s j b c else askLanes (setChunk s (some c)) b.policy := rfl
    have hends : purgeEnds s j c.range (c.start + c.len) = true ↔ final := purgeEnds_iff _ _ _ _
    refine ⟨fun hr => ?_, fun hr hf => ?_, fun p hr hf hp => ?_, rfl, fun l hd hl => askLanes_dedicated hd hl, askLanes_none⟩
    · rw [htake, if_neg (by simpa using hr), chunkState_nil]
    · rw [htake, if_pos (by simpa using hr), storePurge_final (hends.2 hf)]
    · rw [htake, if_pos (by simpa using hr), storePurge_checkpoint (fun k => hf (hends.1 k)) hp]
  · intro less ended lba final owed
    have hends : purgeEnds s c.job c.range (c.start + c.len) = true ↔ final := purgeEnds_iff _ _ _ _
    have howes : owesSteady s c = true ↔ owed := owesSteady_iff hb
    refine ⟨fun hp hl => ?_, fun x again data => rfl, fun x => ?_, fun x => rfl, fun x again => ?_, fun d => ?_, fun d hd => ?_,
      fun h0 => ?_, fun h0 hp => ⟨fun hf => ?_, fun k ht hf => ?_, fun ht hf hfin => ?_, fun p ht hf hfin hpat => ?_⟩,
      fun hp ho => ?_, fun done hp hd => ?_⟩
    · obtain ⟨hframe, hrel⟩ := releasePass_spec s
      rw [exec_chunkPassEnd_purge hc hk hb hp hl, purgePassEnd_eq, hframe]
      generalize (releasePass s).arb = a at hrel
      refine ⟨_, filled s c (b.pattern.getD .zeros), rfl, hrel, rfl, rfl, filled_fresh_fst _ _ _, fun hz => ?_, fun ho => ?_,
        fun hr => ⟨?_, fun n h => ?_⟩⟩
      · rw [hz]
        exact filled_const (fun _ => rfl)
      · rw [ho]
        exact filled_const (fun _ => rfl)
      · rw [filled_fresh_length]
      · rw [filled_fresh_getElem, hr]
        rfl
    · rw [chunkState_requests hc]
      rfl
    · show chunkGoOn s (answered (markFailed c .linkTimeout)) = _
      rw [markFailed_eq]
      rfl
    · exact chunkGoOn_setChunk s d
    · exact if_pos hd
    · exact (if_pos h0).trans (setChunk_self hc)
    · exact (chunkGoOn_fillWrite h0 hp hb).trans (fillDone_failed hf)
    · exact (chunkGoOn_fillWrite h0 hp hb).trans (fillDone_stalled ht hf)
    · rw [chunkGoOn_fillWrite h0 hp hb, fillDone_ok ht hf, storePurge_final (hends.2 hfin)]
    · rw [chunkGoOn_fillWrite h0 hp hb, fillDone_ok ht hf, storePurge_checkpoint (fun k => hfin (hends.1 k)) hpat]
    · rw [chunkStored_fillStore hc hp, purgeStored_of_owed (howes.2 ho), chunkState_store]
    · rw [chunkStored_fillStore hc hp, purgeStored_ends hb]
      · rfl
      · exact hd.imp id (fun k => Bool.eq_false_iff.2 (fun e => k (howes.1 e)))

end Sys2Proof.Machine
end

section
/-! The lock procedure: the ranges it locks, the slots they cease to name and the jobs it pauses (R74, R35, R55, R136). -/

namespace Sys2Proof.Machine

/-! ## Slots that a range ceases to name (R55) -/

/-- A slot that a range ceases to name. -/
def released (x : Slot) : Slot :=
  if x.count ≤ 1 then emptySlot else { x with state := .pendingZero, count := x.count - 1 }

theorem releaseOpt_eq (s : State) (slot : Option SlotIx) : releaseOpt s slot = { s with slots := (releaseOpt s slot).slots } := by
  cases slot <;> rfl

theorem releaseOpt_slots (s : State) (slot : Option SlotIx) (i : SlotIx) :
    (releaseOpt s slot).slots[i] = if slot = some i then released s.slots[i] else s.slots[i] := by
  cases slot with
  | none => rfl
  | some k =>
    rw [releaseOpt, releaseSlot, modSlot_slots]
    by_cases h : i = k
    · subst h
      simp [released]
    · rw [if_neg h, if_neg (fun e => h (Option.some.inj e).symm)]

/-- How often the ranges of a list name a slot, in either role. -/
def timesNamed (s : State) (l : List RangeIx) (i : SlotIx) : Nat :=
  l.countP (fun r => s.ranges[r].slot = some i) + l.countP (fun r => nextSlotOf s.ranges[r] = some i)

/-- A range that is LOCKED and names no slot. -/
def lockedEntry (x : RangeEntry) : RangeEntry :=
  { x with lock := .locked, slot := none, mig := x.mig.map (fun m => { m with nextSlot := none }) }

/-- The state in which a range has ceased to name its slots and is LOCKED. -/
def namesReleased (s : State) (r : RangeIx) : State :=
  modRange (releaseNames s r) r (fun x => { x with lock := .locked })

theorem namesReleased_spec (s : State) (r : RangeIx) :
    namesReleased s r = { s with ranges := s.ranges.set r (lockedEntry s.ranges[r]), slots := (namesReleased s r).slots } ∧
    ∀ i : SlotIx, (namesReleased s r).slots[i] = released^[timesNamed s [r] i] s.slots[i] := by
  refine ⟨?_, fun i => ?_⟩
  · unfold namesReleased releaseNames
    dsimp only
    rw [releaseOpt_eq, releaseOpt_eq s]
    simp [modRange, lockedEntry, Vector.set_set]
  · show (releaseOpt (releaseOpt s s.ranges[r].slot) (nextSlotOf s.ranges[r])).slots[i] = _
    rw [releaseOpt_slots, releaseOpt_slots]
    by_cases h1 : s.ranges[r].slot = some i <;> by_cases h2 : nextSlotOf s.ranges[r] = some i <;>
      simp [timesNamed, h1, h2, -Fin.getElem_fin]

/-! ## Jobs that are paused (R136) -/

/-- A job that the lock of its range pauses. -/
def lockPaused (b : Job) : Job := { b with state := .paused, pause := some .locked, pending := .noAction }

/-- Whether the lock of its range pauses a job at once: it is QUEUED, PREEMPTED, or RUNNING with no chunk in motion. -/
def pausable (s : State) (j : JobNo) : Bool :=
  match jobAt s j with
  | some b => b.state = .queued || b.state = .preempted || (b.state = .running && !hasChunk s j)
  | none => false

/-- Whether a job is a RUNNING HOLD job, which has a dedicated lane (R16). -/
def holdsLane (s : State) (j : JobNo) : Bool :=
  match jobAt s j with
  | some b => b.state = .running && b.policy = .holding
  | none => false

/-- Some jobs have been paused with cause LOCKED, `a` before and `t` after: they leave the stack, and a HOLD job that was
RUNNING gives up its dedicated lane (R136, R16). -/
structure JobsPaused (p : JobNo → Bool) (a t : State) : Prop where
  pausable : ∀ j, p j = true → pausable a j = true
  sweep    : t.sweep = { a.sweep with jobs := t.sweep.jobs, stack := a.sweep.stack.filter (fun j => !p j) }
  jobs     : ∀ j, jobAt t j = (jobAt a j).map (fun b => if p j then lockPaused b else b)
  arb      : t.arb = if allJobs.any (fun j => p j && holdsLane a j) then undedicated a.arb else a.arb

theorem JobsPaused.none {p : JobNo → Bool} {a t : State} (hp : ∀ j, p j = false) (hs : t.sweep = a.sweep)
    (harb : t.arb = a.arb) : JobsPaused p a t where
  pausable j h := by rw [hp j] at h; cases h
  sweep := by simp [hp, hs]
  jobs j := by
    have : jobAt t j = jobAt a j := by unfold jobAt; rw [hs]
    simp [hp, this]
  arb := by simp [hp, harb]

/-- Pausing jobs is a relation of the sweep and of the arbiter alone. -/
theorem JobsPaused.congr {p : JobNo → Bool} {a b t u : State} (h : JobsPaused p a t)
    (ha : b.sweep = a.sweep ∧ b.arb = a.arb) (ht : u.sweep = t.sweep ∧ u.arb = t.arb) : JobsPaused p b u := by
  have hjobA : jobAt b = jobAt a := by unfold jobAt; rw [ha.1]
  have hjobT : jobAt u = jobAt t := by unfold jobAt; rw [ht.1]
  have hpausable : Machine.pausable b = Machine.pausable a := by
    unfold Machine.pausable hasChunk
    rw [hjobA, ha.1]
  have hlane : holdsLane b = holdsLane a := by unfold holdsLane; rw [hjobA]
  refine ⟨?_, ?_, ?_, ?_⟩
  · rw [hpausable]
    exact h.pausable
  · rw [ht.1, ha.1]
    exact h.sweep
  · rw [hjobT, hjobA]
    exact h.jobs
  · rw [ht.2, ha.2, hlane]
    exact h.arb

theorem JobsPaused.hasChunk {p : JobNo → Bool} {a t : State} (h : JobsPaused p a t) (j : JobNo) :
    hasChunk t j = hasChunk a j := by
  unfold Machine.hasChunk
  rw [h.sweep]

/-- A job that has been paused is not paused again. -/
theorem JobsPaused.pausable_after {p : JobNo → Bool} {a t : State} (h : JobsPaused p a t) (j : JobNo) :
    Machine.pausable t j = (Machine.pausable a j && !p j) := by
  unfold Machine.pausable
  rw [h.jobs j, h.hasChunk j]
  cases jobAt a j with
  | none => rfl
  | some b => cases hp : p j <;> simp [lockPaused]

theorem JobsPaused.holdsLane_after {p : JobNo → Bool} {a t : State} (h : JobsPaused p a t) {j : JobNo} (hp : p j = false) :
    holdsLane t j = holdsLane a j := by
  unfold holdsLane
  rw [h.jobs j, hp]
  cases jobAt a j <;> rfl

/-- A job that is paused is neither before nor after a finished one, so the REKEY job of a range stands. -/
theorem JobsPaused.rekeyOf {p : JobNo → Bool} {a t : State} (h : JobsPaused p a t) (r : RangeIx) :
    rekeyOf t r = rekeyOf a r := by
  unfold Machine.rekeyOf
  refine congrArg (fun f => List.find? f allJobs) (funext fun j => ?_)
  unfold isRekeyOf
  rw [h.jobs j]
  cases hb : jobAt a j with
  | none => rfl
  | some b =>
    cases hp : p j with
    | false => rfl
    | true =>
      have hpa := h.pausable j hp
      unfold Machine.pausable at hpa
      rw [hb] at hpa
      have hfin : finished b = false := by
        unfold finished
        cases hst : b.state <;> simp [hst] at hpa ⊢
      simp [lockPaused, finished] at hfin ⊢
      simp [hfin]

theorem any_or {α : Type} (f g : α → Bool) (l : List α) : l.any (fun x => f x || g x) = (l.any f || l.any g) := by
  induction l with
  | nil => rfl
  | cons x l ih => simp [ih, Bool.or_assoc, Bool.or_left_comm]

theorem JobsPaused.trans {p q : JobNo → Bool} {a t u : State} (h : JobsPaused p a t) (k : JobsPaused q t u) :
    JobsPaused (fun j => p j || q j) a u := by
  have hq : ∀ j, q j = true → p j = false ∧ Machine.pausable a j = true := fun j e => by
    have := k.pausable j e
    rw [h.pausable_after] at this
    simpa [and_comm] using this
  refine ⟨fun j e => ?_, ?_, fun j => ?_, ?_⟩
  · rcases Bool.or_eq_true_iff.1 e with e | e
    · exact h.pausable j e
    · exact (hq j e).2
  · rw [k.sweep, h.sweep]
    simp [Bool.and_comm]
  · rw [k.jobs j, h.jobs j, Option.map_map]
    refine congrArg (fun f => Option.map f (jobAt a j)) (funext fun b => ?_)
    cases hp : p j <;> cases hqj : q j <;> simp [lockPaused]
  · have hany : allJobs.any (fun j => (p j || q j) && holdsLane a j) =
        (allJobs.any (fun j => p j && holdsLane a j) || allJobs.any (fun j => q j && holdsLane t j)) := by
      have hqa : ∀ j, (q j && holdsLane t j) = (q j && holdsLane a j) := fun j => by
        cases hqj : q j with
        | false => rfl
        | true => rw [h.holdsLane_after (hq j hqj).1]
      simp only [hqa, Bool.and_or_distrib_right, any_or]
    rw [k.arb, h.arb, hany]
    cases allJobs.any (fun j => p j && holdsLane a j) <;> cases allJobs.any (fun j => q j && holdsLane t j) <;>
      simp [undedicated_twice]

/-- Pausing a job that is QUEUED, PREEMPTED or RUNNING with no chunk in motion. -/
theorem pauseJob_locked (s : State) (j : JobNo) (hp : pausable s j = true) :
    pauseJob s j .locked = { s with sweep := (pauseJob s j .locked).sweep, arb := (pauseJob s j .locked).arb } ∧
    JobsPaused (fun k => j = k) s (pauseJob s j .locked) := by
  cases hb : jobAt s j with
  | none => simp [pausable, hb] at hp
  | some b =>
    have hpause : pauseJob s j .locked = { s with
        sweep := { s.sweep with jobs := s.sweep.jobs.set j (.job (lockPaused b)), stack := s.sweep.stack.filter (· ≠ j) }
        arb := if holdsLane s j then undedicated s.arb else s.arb } := by
      unfold pauseJob endTurn holdsLane
      rw [hb]
      dsimp only
      rw [undedicate_eq]
      split <;> rfl
    rw [hpause]
    refine ⟨rfl, fun k hk => ?_, ?_, fun k => ?_, ?_⟩
    · rw [← of_decide_eq_true hk]
      exact hp
    · simp [eq_comm]
    · by_cases hk : j = k
      · subst hk
        rw [hb]
        simp [jobAt]
      · have hk' : ¬ j.val = k.val := fun e => hk (Fin.ext e)
        simp [jobAt, hk, hk']
    · have hany : allJobs.any (fun k => decide (j = k) && holdsLane s k) = holdsLane s j := by
        cases h : holdsLane s j with
        | true => exact List.any_eq_true.2 ⟨j, mem_allJobs j, by simp [h]⟩
        | false =>
          refine List.any_eq_false.2 fun k _ => ?_
          by_cases hk : j = k
          · subst hk
            simp [h]
          · simp [hk]
      rw [hany]

theorem lockJob_of_rekeyOf {s : State} {r : RangeIx} {j : JobNo} (h : rekeyOf s r = some j) :
    lockJob s r = if pausable s j then pauseJob s j .locked else s := by
  unfold lockJob pausable
  rw [h]
  dsimp only
  cases jobAt s j with
  | none => rfl
  | some b => rfl

theorem lockJob_spec (s : State) (r : RangeIx) :
    lockJob s r = { s with sweep := (lockJob s r).sweep, arb := (lockJob s r).arb } ∧
    JobsPaused (fun j => rekeyOf s r = some j && pausable s j) s (lockJob s r) := by
  cases hr : rekeyOf s r with
  | none =>
    have hsame : lockJob s r = s := by
      unfold lockJob
      rw [hr]
    rw [hsame]
    exact ⟨rfl, .none (fun j => by simp) rfl rfl⟩
  | some j =>
    rw [lockJob_of_rekeyOf hr]
    cases hp : pausable s j with
    | true =>
      rw [if_pos rfl]
      refine ⟨(pauseJob_locked s j hp).1, ?_⟩
      have hq : (fun k => decide (some j = some k) && pausable s k) = fun k => decide (j = k) := funext fun k => by
        by_cases hk : j = k
        · subst hk
          simp [hp]
        · simp [hk]
      rw [hq]
      exact (pauseJob_locked s j hp).2
    | false =>
      rw [if_neg Bool.false_ne_true]
      refine ⟨rfl, .none (fun k => ?_) rfl rfl⟩
      by_cases hk : j = k
      · subst hk
        simp [hp]
      · simp [hk]

/-! ## The ranges that a lock procedure locks (R74) -/

/-- Whether the lock procedure locks a range of its set: it is guarded and ACTIVE, and is not LOCKED. -/
def lockable (s : State) (r : RangeIx) : Bool := guarded s r && s.ranges[r].active && s.ranges[r].lock ≠ .locked

/-- Whether the job is the REKEY job of a MIGRATING range that the lock procedure locks. -/
def lockFinds (s : State) (j : JobNo) (r : RangeIx) : Bool :=
  lockable s r && s.ranges[r].cond = .migrating && rekeyOf s r = some j

/-- Whether the lock of the ranges of a list pauses a job. -/
def pausedBy (s : State) (l : List RangeIx) (j : JobNo) : Bool := l.any (lockFinds s j) && pausable s j

/-- The entry of the journal for a range that the lock procedure locks. -/
def lockedEvent (cause : LockCause) (r : RangeIx) : Event :=
  { kind := .locked, range := some r, detail := .lockCause cause }

/-- The lock procedure has run on the ranges of a list, `a` before and `t` after. -/
structure Locked (cause : LockCause) (l : List RangeIx) (a t : State) : Prop where
  frame   : t = { a with ranges := t.ranges, slots := t.slots, sweep := t.sweep, arb := t.arb, journal := t.journal }
  ranges  : ∀ r : RangeIx, t.ranges[r] = if l.contains r && lockable a r then lockedEntry a.ranges[r] else a.ranges[r]
  slots   : ∀ i : SlotIx, t.slots[i] = released^[timesNamed a (l.filter (lockable a)) i] a.slots[i]
  jobs    : JobsPaused (pausedBy a l) a t
  journal : t.journal = ((l.filter (lockable a)).map (lockedEvent cause)).foldl journalRecord a.journal

theorem Locked.nil (cause : LockCause) (s : State) : Locked cause [] s s where
  frame := rfl
  ranges _ := rfl
  slots _ := rfl
  jobs := .none (fun _ => rfl) rfl rfl
  journal := rfl

/-- Locking a range that the procedure locks pauses the job of a MIGRATING one, and no other. -/
theorem lockJob_namesReleased {s : State} {r : RangeIx} (hl : lockable s r = true) :
    let t := namesReleased s r
    let u := if t.ranges[r].cond = .migrating then lockJob t r else t
    u = { t with sweep := u.sweep, arb := u.arb } ∧ JobsPaused (pausedBy s [r]) s u := by
  intro t u
  have hframe : t = { s with ranges := s.ranges.set r (lockedEntry s.ranges[r]), slots := t.slots } :=
    (namesReleased_spec s r).1
  have hcond : t.ranges[r].cond = s.ranges[r].cond := by
    rw [hframe]
    simp [lockedEntry]
  by_cases hm : t.ranges[r].cond = .migrating
  · have hu : u = lockJob t r := if_pos hm
    obtain ⟨hjobFrame, hpaused⟩ := lockJob_spec t r
    have hp : (fun j => decide (rekeyOf t r = some j) && pausable t j) = pausedBy s [r] := funext fun j => by
      unfold pausedBy lockFinds
      rw [List.any_cons, List.any_nil, Bool.or_false, hl, ← hcond, hm, hframe]
      simp
      rfl
    rw [hu]
    refine ⟨hjobFrame, ?_⟩
    rw [hp] at hpaused
    exact hpaused.congr ⟨by rw [hframe], by rw [hframe]⟩ ⟨rfl, rfl⟩
  · have hu : u = t := if_neg hm
    rw [hu]
    refine ⟨rfl, .none (fun j => ?_) (by rw [hframe]) (by rw [hframe])⟩
    rw [hcond] at hm
    simp [pausedBy, lockFinds, hm, -Fin.getElem_fin]

theorem lockRange_locked (cause : LockCause) (s : State) (r : RangeIx) (hs : s.startUp = none) :
    Locked cause [r] s (lockRange cause s r) := by
  cases hl : lockable s r with
  | false =>
    have hsame : lockRange cause s r = s := if_neg (fun e => by
      rw [show lockable s r = true from e] at hl
      cases hl)
    have hfilter : [r].filter (lockable s) = [] := by simp [hl]
    rw [hsame]
    refine ⟨rfl, fun q => ?_, fun i => ?_, .none (fun j => ?_) rfl rfl, ?_⟩
    · by_cases h : q = r
      · subst h
        simp [hl]
      · simp [h]
    · rw [hfilter]
      rfl
    · simp [pausedBy, lockFinds, hl]
    · rw [hfilter]
      rfl
  | true =>
    have hfilter : [r].filter (lockable s) = [r] := by simp [hl]
    have hstep : lockRange cause s r = raise (if (namesReleased s r).ranges[r].cond = .migrating then
        lockJob (namesReleased s r) r else namesReleased s r) (lockedEvent cause r) := if_pos hl
    obtain ⟨hframe, hslots⟩ := namesReleased_spec s r
    obtain ⟨hjobFrame, hpaused⟩ := lockJob_namesReleased hl
    rw [hstep]
    generalize (if (namesReleased s r).ranges[r].cond = .migrating then lockJob (namesReleased s r) r
      else namesReleased s r) = u at hjobFrame hpaused ⊢
    generalize namesReleased s r = t at hframe hslots hjobFrame
    have hstart : u.startUp = none := by rw [hjobFrame, hframe]; exact hs
    rw [raise_journal u _ hstart]
    refine ⟨?_, fun q => ?_, fun i => ?_, hpaused.congr ⟨rfl, rfl⟩ ⟨rfl, rfl⟩, ?_⟩
    · rw [hjobFrame, hframe]
    · rw [hjobFrame, hframe]
      by_cases h : q = r
      · subst h
        simp [hl]
      · have h' : ¬ r.val = q.val := fun e => h (Fin.ext e).symm
        simp [h, h']
    · rw [hfilter, ← hslots i, hjobFrame]
    · rw [hfilter, hjobFrame, hframe]
      rfl

/-! ## The whole procedure -/

theorem timesNamed_append (s : State) (l m : List RangeIx) (i : SlotIx) :
    timesNamed s (l ++ m) i = timesNamed s m i + timesNamed s l i := by
  unfold timesNamed
  rw [List.countP_append, List.countP_append]
  omega

theorem timesNamed_congr {s t : State} {l : List RangeIx} (h : ∀ r ∈ l, t.ranges[r] = s.ranges[r]) (i : SlotIx) :
    timesNamed t l i = timesNamed s l i := by
  unfold timesNamed
  congr 1 <;> exact List.countP_congr fun r hr => by rw [h r hr]

/-- What one range's lock leaves of another range: its entry, its guards and its REKEY job. -/
theorem Locked.lockable {cause : LockCause} {l : List RangeIx} {a t : State} (h : Locked cause l a t) {r : RangeIx}
    (hr : r ∉ l) : t.ranges[r] = a.ranges[r] ∧ Machine.lockable t r = Machine.lockable a r := by
  have hentry : t.ranges[r] = a.ranges[r] := by
    rw [h.ranges r]
    simp [hr]
  refine ⟨hentry, ?_⟩
  have hguard : guarded t r = guarded a r := by
    rw [h.frame]
    rfl
  unfold Machine.lockable
  rw [hentry, hguard]

theorem Locked.cons {cause : LockCause} {r : RangeIx} {l : List RangeIx} {a t u : State} (hr : r ∉ l)
    (h : Locked cause [r] a t) (k : Locked cause l t u) : Locked cause (r :: l) a u := by
  have hkept : ∀ q ∈ l, t.ranges[q] = a.ranges[q] ∧ Machine.lockable t q = Machine.lockable a q := fun q hq =>
    h.lockable (fun e => hr (List.mem_singleton.1 e ▸ hq))
  have hfilter : l.filter (Machine.lockable t) = l.filter (Machine.lockable a) :=
    List.filter_congr fun q hq => (hkept q hq).2
  have hcons : (r :: l).filter (Machine.lockable a) = [r].filter (Machine.lockable a) ++ l.filter (Machine.lockable a) :=
    List.filter_append (l₁ := [r]) (l₂ := l)
  refine ⟨?_, fun q => ?_, fun i => ?_, ?_, ?_⟩
  · rw [k.frame, h.frame]
  · rw [k.ranges q]
    by_cases hq : q ∈ l
    · have hqr : q ≠ r := fun e => hr (e ▸ hq)
      simp [hq, hqr, hkept q hq, -Fin.getElem_fin]
    · rw [h.ranges q]
      simp [hq, -Fin.getElem_fin]
  · rw [k.slots i, h.slots i, hfilter, hcons, timesNamed_append, Function.iterate_add_apply,
      timesNamed_congr fun q hq => (hkept q (List.mem_filter.1 hq).1).1]
  · have hp : pausedBy a (r :: l) = fun j => pausedBy a [r] j || pausedBy t l j := funext fun j => by
      have hfinds : l.any (lockFinds t j) = l.any (lockFinds a j) := by
        rw [Bool.eq_iff_iff, List.any_eq_true, List.any_eq_true]
        refine exists_congr fun q => and_congr_right fun hq => ?_
        unfold lockFinds
        rw [h.jobs.rekeyOf, (hkept q hq).1, (hkept q hq).2]
      have hafter := h.jobs.pausable_after j
      unfold pausedBy at hafter ⊢
      rw [hfinds, hafter, List.any_cons, List.any_cons, List.any_nil, Bool.or_false]
      cases Machine.pausable a j <;> cases lockFinds a j r <;> simp
    rw [hp]
    exact h.jobs.trans k.jobs
  · rw [k.journal, h.journal, hfilter, hcons, List.map_append, List.foldl_append]

theorem foldl_lockRange_locked (cause : LockCause) (l : List RangeIx) (hl : l.Nodup) (s : State) (hs : s.startUp = none) :
    Locked cause l s (l.foldl (lockRange cause) s) := by
  induction l generalizing s with
  | nil => exact .nil cause s
  | cons r l ih =>
    obtain ⟨hr, hl⟩ := List.nodup_cons.1 hl
    have h := lockRange_locked cause s r hs
    exact h.cons hr (ih hl _ (by rw [h.frame]; exact hs))

theorem lockProcedure_locked (set : List RangeIx) (cause : LockCause) (s : State) (hs : s.startUp = none) :
    Locked cause (allRanges.filter set.contains) s (lockProcedure s set cause) :=
  foldl_lockRange_locked cause _ ((by decide : allRanges.Nodup).filter _) s hs

/-- A slot that is named just once, and by a range of the list, is named just once by the ranges of the list. -/
theorem timesNamed_of_namings {s : State} {l : List RangeIx} (hl : l.Sublist allRanges) {r : RangeIx} (hr : r ∈ l)
    {i : SlotIx} (hnames : s.ranges[r].slot = some i ∨ nextSlotOf s.ranges[r] = some i) (hone : namings s i = 1) :
    timesNamed s l i = 1 := by
  have hslot := hl.countP_le (p := fun q => decide (s.ranges[q].slot = some i))
  have hnext := hl.countP_le (p := fun q => decide (nextSlotOf s.ranges[q] = some i))
  have hpos : 0 < l.countP (fun q => s.ranges[q].slot = some i) ∨
      0 < l.countP (fun q => nextSlotOf s.ranges[q] = some i) :=
    hnames.imp (fun h => List.countP_pos_iff.2 ⟨r, hr, decide_eq_true h⟩)
      (fun h => List.countP_pos_iff.2 ⟨r, hr, decide_eq_true h⟩)
  unfold namings at hone
  unfold timesNamed
  omega

theorem timesNamed_eq_zero {s : State} {l : List RangeIx} {i : SlotIx}
    (h : ∀ r ∈ l, s.ranges[r].slot ≠ some i ∧ nextSlotOf s.ranges[r] ≠ some i) : timesNamed s l i = 0 := by
  have hslot : l.countP (fun r => s.ranges[r].slot = some i) = 0 :=
    List.countP_eq_zero.2 fun r hr e => (h r hr).1 (of_decide_eq_true e)
  have hnext : l.countP (fun r => nextSlotOf s.ranges[r] = some i) = 0 :=
    List.countP_eq_zero.2 fun r hr e => (h r hr).2 (of_decide_eq_true e)
  unfold timesNamed
  rw [hslot, hnext]

theorem holdsLane_iff {s : State} {j : JobNo} :
    holdsLane s j = true ↔ ∃ b, jobAt s j = some b ∧ b.state = .running ∧ b.policy = .holding := by
  unfold holdsLane
  cases jobAt s j <;> simp

/-- Settles O29: each range's lock is one step of `Locked`, and such steps on distinct ranges compose. -/
theorem lockProcedureLocksGuardedRanges : Obligations.LockProcedureLocksGuardedRanges := by
  intro s set cause hs t hit paused
  have hlocked : Locked cause (allRanges.filter set.contains) s t := lockProcedure_locked set cause s hs
  have hhit : ∀ r, hit r = (set.contains r && lockable s r) := fun r => by
    simp [hit, lockable, Bool.and_assoc]
  have hfilter : (allRanges.filter set.contains).filter (lockable s) = allRanges.filter hit := by
    rw [List.filter_filter]
    exact List.filter_congr fun r _ => by rw [hhit, Bool.and_comm]
  have hpaused : pausedBy s (allRanges.filter set.contains) = paused := funext fun j => by
    unfold pausedBy
    rw [List.any_filter]
    refine congrArg (· && pausable s j) (congrArg (fun f => List.any allRanges f) (funext fun r => ?_))
    unfold lockFinds
    rw [hhit, Bool.and_assoc, Bool.and_assoc, Bool.and_assoc]
  obtain ⟨hframe, hranges, hslots, hjobs, hjournal⟩ := hlocked
  rw [hfilter] at hslots hjournal
  rw [hpaused] at hjobs
  refine ⟨hframe, fun r => ?_, fun i hnone => ?_, fun i r hr hnames hone => ?_, hjobs.sweep, hjobs.jobs,
    fun hyield => ?_, fun j b hb hp hrun hhold => ?_, hjournal⟩
  · have hmem : ((allRanges.filter set.contains).contains r && lockable s r) = hit r := by
      rw [hhit]
      simp [mem_allRanges]
    rw [hranges r, hmem]
    rfl
  · have hzero : timesNamed s (allRanges.filter hit) i = 0 :=
      timesNamed_eq_zero fun r hr => hnone r (List.mem_filter.1 hr).2
    rw [hslots i, hzero]
    rfl
  · have htimes : timesNamed s (allRanges.filter hit) i = 1 :=
      timesNamed_of_namings List.filter_sublist (List.mem_filter.2 ⟨mem_allRanges r, hr⟩) hnames hone
    rw [hslots i, htimes]
    rfl
  · have hnone : allJobs.any (fun j => paused j && holdsLane s j) = false := List.any_eq_false.2 fun j _ e => by
      obtain ⟨hp, hlane⟩ := Bool.and_eq_true_iff.1 e
      obtain ⟨b, hb, hrun, hhold⟩ := holdsLane_iff.1 hlane
      rw [hyield j b hb hp hrun] at hhold
      cases hhold
    exact hjobs.arb.trans (if_neg (Bool.eq_false_iff.1 hnone))
  · have hsome : allJobs.any (fun j => paused j && holdsLane s j) = true :=
      List.any_eq_true.2 ⟨j, mem_allJobs j, Bool.and_eq_true_iff.2 ⟨hp, holdsLane_iff.2 ⟨b, hb, hrun, hhold⟩⟩⟩
    exact hjobs.arb.trans (if_pos hsome)

end Sys2Proof.Machine
end

section
/-! Resolution: the entry that takes an LBA among those that contain it (R29). -/

namespace Sys2Proof.Machine

/-- Whether the entry `a` comes before the entry `b` in the order of precedence: greater start, then smaller length, then
lower index (R29). -/
def Precedes (s : State) (a b : RangeIx) : Prop :=
  s.ranges[b].start < s.ranges[a].start ∨ (s.ranges[b].start = s.ranges[a].start ∧ s.ranges[a].len < s.ranges[b].len) ∨
    (s.ranges[b].start = s.ranges[a].start ∧ s.ranges[b].len = s.ranges[a].len ∧ a < b)

theorem Precedes.trans {s : State} {a b c : RangeIx} (h : Precedes s a b) (k : Precedes s b c) : Precedes s a c := by
  simp only [Precedes, Fin.lt_def] at *
  omega

theorem Precedes.asymm {s : State} {a b : RangeIx} (h : Precedes s a b) : ¬ Precedes s b a := by
  simp only [Precedes, Fin.lt_def] at *
  omega

theorem precedes_of_wins {s : State} {a b : RangeIx} (h : wins s a b = true) : Precedes s a b := by
  simp only [wins, Bool.or_eq_true, Bool.and_eq_true, decide_eq_true_eq] at h
  unfold Precedes
  rcases h with h | ⟨hstart, hlen⟩
  · exact .inl h
  · exact .inr (.inl ⟨hstart.symm, hlen⟩)

/-- Between entries that neither wins, the lower index comes first. -/
theorem precedes_of_not_wins {s : State} {a b : RangeIx} (h : ¬ wins s b a = true) (hlt : a < b) : Precedes s a b := by
  simp only [wins, Bool.or_eq_true, Bool.and_eq_true, decide_eq_true_eq, not_or, not_and] at h
  simp only [Precedes, Fin.lt_def] at *
  omega

/-- What an LBA resolves to among some entries: range 0 where none contains it, else the first in precedence that does. -/
def ResolvesAmong (s : State) (lba : Nat) (l : List RangeIx) (best : RangeIx) : Prop :=
  (best = 0 ∧ ∀ r ∈ l, containsLba s r lba = false) ∨
    (best ≠ 0 ∧ best ∈ l ∧ containsLba s best lba = true ∧
      ∀ r ∈ l, r ≠ best → containsLba s r lba = true → Precedes s best r)

/-- One more entry, of an index above those before it. -/
theorem ResolvesAmong.snoc {s : State} {lba : Nat} {l : List RangeIx} {best r : RangeIx} (h : ResolvesAmong s lba l best)
    (hr : r ≠ 0) (hl : ∀ q ∈ l, q < r) :
    ResolvesAmong s lba (l ++ [r]) (if containsLba s r lba && (best = 0 || wins s r best) then r else best) := by
  cases hc : containsLba s r lba with
  | false =>
    have hnot : ∀ q ∈ l ++ [r], containsLba s q lba = true → q ∈ l := fun q hq hcq => by
      rcases List.mem_append.1 hq with hq | hq
      · exact hq
      · rw [List.mem_singleton.1 hq, hc] at hcq
        cases hcq
    rcases h with ⟨h0, hnone⟩ | ⟨h0, hmem, hin, hfirst⟩
    · exact .inl ⟨h0, fun q hq => Bool.eq_false_iff.2 fun hcq => by rw [hnone q (hnot q hq hcq)] at hcq; cases hcq⟩
    · exact .inr ⟨h0, List.mem_append_left _ hmem, hin, fun q hq hne hcq => hfirst q (hnot q hq hcq) hne hcq⟩
  | true =>
    have hlast : r ∈ l ++ [r] := List.mem_append_right _ (List.mem_singleton.2 rfl)
    rcases h with ⟨h0, hnone⟩ | ⟨h0, hmem, hin, hfirst⟩
    · rw [if_pos (by simp [h0])]
      refine .inr ⟨hr, hlast, hc, fun q hq hne hcq => ?_⟩
      rcases List.mem_append.1 hq with hq | hq
      · rw [hnone q hq] at hcq
        cases hcq
      · exact absurd (List.mem_singleton.1 hq) hne
    · by_cases hw : wins s r best = true
      · rw [if_pos (by simp [hw])]
        have hrb : Precedes s r best := precedes_of_wins hw
        refine .inr ⟨hr, hlast, hc, fun q hq hne hcq => ?_⟩
        rcases List.mem_append.1 hq with hq | hq
        · by_cases hqb : q = best
          · rw [hqb]
            exact hrb
          · exact hrb.trans (hfirst q hq hqb hcq)
        · exact absurd (List.mem_singleton.1 hq) hne
      · rw [if_neg (by simp [hw, h0])]
        refine .inr ⟨h0, List.mem_append_left _ hmem, hin, fun q hq hne hcq => ?_⟩
        rcases List.mem_append.1 hq with hq | hq
        · exact hfirst q hq hne hcq
        · rw [List.mem_singleton.1 hq]
          exact precedes_of_not_wins hw (hl best hmem)

theorem foldl_resolvesAmong {s : State} {lba : Nat} (l pre : List RangeIx) (best : RangeIx)
    (hl : (pre ++ l).Pairwise (· < ·)) (h0 : ∀ r ∈ l, r ≠ 0) (h : ResolvesAmong s lba pre best) :
    ResolvesAmong s lba (pre ++ l) (l.foldl (fun best r =>
      if containsLba s r lba && (best = 0 || wins s r best) then r else best) best) := by
  induction l generalizing pre best with
  | nil => simpa using h
  | cons r l ih =>
    have hlt : ∀ q ∈ pre, q < r := fun q hq => (List.pairwise_append.1 hl).2.2 q hq r (List.mem_cons_self ..)
    have hsplit : pre ++ r :: l = (pre ++ [r]) ++ l := by simp
    rw [hsplit] at hl ⊢
    exact ih _ _ hl (fun q hq => h0 q (List.mem_cons_of_mem _ hq)) (h.snoc (h0 r (List.mem_cons_self ..)) hlt)

theorem resolve_resolvesAmong (s : State) (lba : Nat) : ResolvesAmong s lba definedRanges (resolve s lba) :=
  foldl_resolvesAmong definedRanges [] 0 (by decide) (fun r hr => (mem_definedRanges r).1 hr)
    (.inl ⟨rfl, fun _ h => absurd h List.not_mem_nil⟩)

theorem resolve_eq_zero {s : State} {lba : Nat} (h : ∀ r : RangeIx, r ≠ 0 → containsLba s r lba = false) :
    resolve s lba = 0 := by
  rcases resolve_resolvesAmong s lba with ⟨h0, -⟩ | ⟨h0, -, hin, -⟩
  · exact h0
  · rw [h _ h0] at hin
    cases hin

/-- An LBA that some entry contains resolves to the first in precedence of those that do. -/
theorem resolve_precedes {s : State} {lba : Nat} (h : ∃ r : RangeIx, r ≠ 0 ∧ containsLba s r lba = true) :
    resolve s lba ≠ 0 ∧ containsLba s (resolve s lba) lba = true ∧
    ∀ r : RangeIx, r ≠ 0 → r ≠ resolve s lba → containsLba s r lba = true → Precedes s (resolve s lba) r := by
  rcases resolve_resolvesAmong s lba with ⟨-, hnone⟩ | ⟨h0, -, hin, hfirst⟩
  · obtain ⟨r, hr, hc⟩ := h
    rw [hnone r ((mem_definedRanges r).2 hr)] at hc
    cases hc
  · exact ⟨h0, hin, fun r hr => hfirst r ((mem_definedRanges r).2 hr)⟩

/-- Settles O15: the fold over the entries keeps the first in precedence, and precedence is a strict order of the spans. -/
theorem resolutionFollowsPrecedence : Obligations.ResolutionFollowsPrecedence := by
  refine ⟨fun s lba => ⟨resolve_eq_zero, resolve_precedes⟩, fun s t lba hsame => ?_⟩
  have hcontains : ∀ r : RangeIx, r ≠ 0 → containsLba s r lba = containsLba t r lba := fun r hr => by
    obtain ⟨hactive, hspan⟩ := hsame r hr
    unfold containsLba
    rw [← hactive]
    cases ha : s.ranges[r].active with
    | false => rfl
    | true => rw [(hspan ha).1, (hspan ha).2]
  by_cases hs : ∃ r : RangeIx, r ≠ 0 ∧ containsLba s r lba = true
  · have ht : ∃ r : RangeIx, r ≠ 0 ∧ containsLba t r lba = true := by
      obtain ⟨r, hr, hc⟩ := hs
      exact ⟨r, hr, by rw [← hcontains r hr]; exact hc⟩
    obtain ⟨ha0, hain, hafirst⟩ := resolve_precedes hs
    obtain ⟨hb0, hbin, hbfirst⟩ := resolve_precedes ht
    by_contra hne
    have hst := hafirst _ hb0 (Ne.symm hne) (by rw [hcontains _ hb0]; exact hbin)
    have hts := hbfirst _ ha0 hne (by rw [← hcontains _ ha0]; exact hain)
    have hspan : ∀ r : RangeIx, r ≠ 0 → containsLba s r lba = true →
        s.ranges[r].start = t.ranges[r].start ∧ s.ranges[r].len = t.ranges[r].len := fun r hr hc => by
      refine (hsame r hr).2 ?_
      simp only [containsLba, Bool.and_eq_true] at hc
      exact hc.1.1
    obtain ⟨hastart, halen⟩ := hspan _ ha0 hain
    obtain ⟨hbstart, hblen⟩ := hspan _ hb0 (by rw [hcontains _ hb0]; exact hbin)
    refine hst.asymm ?_
    unfold Precedes at hts ⊢
    rw [hastart, halen, hbstart, hblen]
    exact hts
  · have hnone : ∀ r : RangeIx, r ≠ 0 → containsLba s r lba = false := fun r hr =>
      Bool.eq_false_iff.2 fun hc => hs ⟨r, hr, hc⟩
    rw [resolve_eq_zero hnone, resolve_eq_zero fun r hr => by rw [← hcontains r hr]; exact hnone r hr]

end Sys2Proof.Machine
end

section
/-! RANGE.DEFINE, RANGE.DELETE and RANGE.FLAGS from their parameter check to the completion of their writes (R40 to R44). -/

namespace Sys2Proof.Machine

/-! ## Legal indices -/

theorem toIndex_val {n : Nat} (i : Fin n) : toIndex n i.val = some i := dif_pos i.isLt

theorem toIndex_of_le {n k : Nat} (h : n ≤ k) : toIndex n k = none := dif_neg (Nat.not_lt.2 h)

theorem toDefined_val {r : RangeIx} (hr : r ≠ 0) : toDefined r.val = some r := by
  unfold toDefined
  rw [toIndex_val]
  exact if_neg hr

theorem toDefined_eq_none {n : Nat} (h : n = 0 ∨ 16 ≤ n) : toDefined n = none := by
  rcases h with rfl | h
  · rfl
  · unfold toDefined
    rw [toIndex_of_le h]

/-- A number that is no legal index, or the number of an entry 1–15. -/
theorem toDefined_cases (n : Nat) : (n = 0 ∨ 16 ≤ n) ∨ ∃ r : RangeIx, n = r.val ∧ r ≠ 0 := by
  by_cases h : n = 0 ∨ 16 ≤ n
  · exact .inl h
  · have hlt : n < 16 := by omega
    exact .inr ⟨⟨n, hlt⟩, rfl, fun e => h (.inl (congrArg Fin.val e))⟩

/-! ## Completion of the last write (R174, R182) -/

/-- A request that settles its change at the completion of the last write it waits for. -/
theorem LastWrite.settles {s t w : State} {v : Service} {a : After} (h : LastWrite s v a t) {range : Option RangeIx}
    {cred : Option CredIx} {r : Results} (hfinish : finishService t = settled w range cred v r) (hw : w.startUp = none) :
    exec .storeWriteCompletion s = .next (settled w range cred v r) :=
  h.finish hfinish (settled_startUp _ _ _ _ _ hw)

/-! ## RANGE.DEFINE (R40 to R42) -/

theorem Serves.exec_rangeDefine {s u : State} {b : RequestBlock} {d : Bool} {n start len flags : Nat}
    (h : Serves s b (.rangeDefine n start len flags) true (some 0) u d) (hf : u.control.frozen = false) :
    exec .rangeDefine s = .next (serveRangeDefine u d n start len flags) := by
  simp only [exec, execRangeDefine, h.starts]
  rw [h.ownerRequest (by simp [hf])]

/-- The span of RANGE.DEFINE is lawful: aligned, not empty and within U (R40). -/
def LawfulSpan (s : State) (start len : Nat) : Prop :=
  start % 8 = 0 ∧ len % 8 = 0 ∧ 8 ≤ len ∧ start + len ≤ s.regions.u

/-- The entry of RANGE.DEFINE is taken, or its span meets a range that is not STEADY (R41). -/
def DefineBusy (s : State) (r : RangeIx) (start len : Nat) : Prop :=
  s.ranges[r].active = true ∨ ∃ q ∈ rangesOfSpan s start (start + len), s.ranges[q].cond ≠ .steady

theorem unlawful_iff (s : State) (start len : Nat) :
    (start % 8 ≠ 0 || len % 8 ≠ 0 || len < 8 || s.regions.u < start + len) = true ↔ ¬ LawfulSpan s start len := by
  simp only [LawfulSpan, Bool.or_eq_true, decide_eq_true_eq]
  omega

theorem defineBusy_iff (s : State) (r : RangeIx) (start len : Nat) :
    (s.ranges[r].active || (rangesOfSpan s start (start + len)).any (fun q => s.ranges[q].cond ≠ .steady)) = true ↔
      DefineBusy s r start len := by
  simp [DefineBusy]

theorem serveRangeDefine_badRequest {s : State} (d : Bool) {n start len : Nat} (flags : Nat)
    (h : (n = 0 ∨ 16 ≤ n) ∨ ¬ LawfulSpan s start len) :
    serveRangeDefine s d n start len flags = refuse s d .badRequest := by
  unfold serveRangeDefine
  rcases toDefined_cases n with hn | ⟨r, rfl, hr⟩
  · rw [toDefined_eq_none hn]
  · rw [toDefined_val hr]
    refine if_pos ((unlawful_iff s start len).2 (h.resolve_left fun hn => ?_))
    rcases hn with hn | hn
    · exact hr (Fin.ext hn)
    · exact absurd r.isLt (Nat.not_lt.2 hn)

theorem serveRangeDefine_lawful {s : State} (d : Bool) {r : RangeIx} (hr : r ≠ 0) {start len : Nat} (flags : Nat)
    (h : LawfulSpan s start len) :
    (DefineBusy s r start len → serveRangeDefine s d r.val start len flags = refuse s d .rangeBusy) ∧
    (¬ DefineBusy s r start len → emptyMediaSlots s = [] →
      serveRangeDefine s d r.val start len flags = refuse s d .slotsExhausted) ∧
    (¬ DefineBusy s r start len → ∀ i rest, emptyMediaSlots s = i :: rest →
      let gen := s.store.ranges[r].gen + 1
      let key := Config.newKey s.fresh
      serveRangeDefine s d r.val start len flags = proceed
        { s with fresh := s.fresh + 1
                 slots := s.slots.set i ⟨.loaded, some key, some (r, gen), some .current, true, 0⟩ } d
        [.rangeDefine r start len (toFlags flags) gen key] (.rangeDefine r start len (toFlags flags) gen)) := by
  unfold serveRangeDefine
  rw [toDefined_val hr]
  dsimp only
  rw [if_neg fun e => (unlawful_iff s start len).1 e h]
  refine ⟨fun hbusy => if_pos ((defineBusy_iff s r start len).2 hbusy), fun hbusy hnone => ?_, fun hbusy i rest hsome => ?_⟩
  · rw [if_neg fun e => hbusy ((defineBusy_iff s r start len).1 e), hnone]
    rfl
  · rw [if_neg fun e => hbusy ((defineBusy_iff s r start len).1 e)]
    have hplace : emptyMediaSlots (takeKey s).2 = i :: rest := hsome
    simp only [placeKey, hplace, hsome]
    rfl

/-- The slot held for a new range is taken up by its entry (R54). -/
theorem takeUp_defined {t : State} {r : RangeIx} {start len : Nat} {f : Flags} {gen : Gen} {key : Key} {i : SlotIx}
    (hi : i ≠ 0) (hslot : t.slots[i] = ⟨.loaded, some key, some (r, gen), some .current, true, 0⟩)
    (hother : ∀ k : SlotIx, k ≠ i → t.slots[k].held = false) :
    takeUp (modRange t r (fun _ => definedEntry start len f gen)) (fun _ => true) =
      { t with ranges := t.ranges.set r ⟨true, start, len, .opened, .steady, some i, none, gen, f, false⟩
               slots := t.slots.set i ⟨.loaded, some key, some (r, gen), some .current, false, 1⟩ } := by
  rw [takeUp_one (modRange t r (fun _ => definedEntry start len f gen)) _ i hi hother]
  have hentry : (modRange t r (fun _ => definedEntry start len f gen)).slots[i] =
      ⟨.loaded, some key, some (r, gen), some .current, true, 0⟩ := hslot
  have htake : canTake (modRange t r (fun _ => definedEntry start len f gen)) r .current = true := by
    unfold canTake
    rw [modRange_ranges, if_pos rfl]
    rfl
  unfold takeUpSlot
  rw [hentry]
  dsimp only
  rw [if_pos rfl, htake]
  simp [nameSlot, modSlot, modRange, definedEntry, hslot, Vector.set_set]

/-- Settles O52: the checks in their order, and the slot that is held for the entry until the write completes. -/
theorem rangeDefineCreatesAnOpenRange : Obligations.RangeDefineCreatesAnOpenRange := by
  intro s b u d n start len flags
  refine ⟨?_, fun v r f gen key i t h hi hslot hother => ?_⟩
  · intro h hf lawful
    rw [h.exec_rangeDefine hf]
    refine ⟨fun hbad => ?_, ?_⟩
    · rw [serveRangeDefine_badRequest d flags (or_assoc.2 hbad), refuse_eq _ _ _ h.service]
    · rintro r rfl hr hl
      obtain ⟨hbusy, hnone, hsome⟩ := serveRangeDefine_lawful d hr flags hl
      refine ⟨fun k => ?_, fun k hempty => ?_, fun k i rest hempty => ?_⟩
      · rw [hbusy k, refuse_eq _ _ _ h.service]
      · rw [hnone k hempty, refuse_eq _ _ _ h.service]
      · rw [hsome k i rest hempty, proceed_stored _ _ _ _ (.inr (List.cons_ne_nil _ _))]
  · refine h.settles ?_ h.startUp
    rw [← takeUp_defined hi hslot hother]
    obtain ⟨hv, ha⟩ := h.inService
    unfold finishService
    rw [hv]
    dsimp only
    rw [ha]
    rfl

end Sys2Proof.Machine
end

section
/-! RANGE.DELETE and RANGE.FLAGS: their checks and writes, and what a range that becomes FREE takes with it (R25, R43, R44). -/

namespace Sys2Proof.Machine

/-! ## RANGE.DELETE's checks and writes (R40, R43) -/

theorem Serves.exec_rangeDelete {s u : State} {b : RequestBlock} {d : Bool} {n : Nat}
    (h : Serves s b (.rangeDelete n) true (some 0) u d) (hf : u.control.frozen = false) :
    exec .rangeDelete s = .next (serveRangeDelete u d n) := by
  simp only [exec, execRangeDelete, h.starts]
  rw [h.ownerRequest (by simp [hf])]

/-- The records that RANGE.DELETE stores before the FREE record: the credentials that lose a grant, and the damaged list. -/
def deletedRecords (s : State) (r : RangeIx) : List StoreOp :=
  grantOps s r ++ if s.damaged.any (fun e => e.range = r) then [.damagedRange r] else []

theorem serveRangeDelete_illegal {s : State} (d : Bool) {n : Nat} (h : n = 0 ∨ 16 ≤ n) :
    serveRangeDelete s d n = refuse s d .badRequest := by
  unfold serveRangeDelete
  rw [toDefined_eq_none h]

theorem serveRangeDelete_defined (s : State) (d : Bool) {r : RangeIx} (hr : r ≠ 0) : serveRangeDelete s d r.val =
    if s.ranges[r].active = false then refuse s d .badRequest
    else if s.ranges[r].cond ≠ .steady then refuse s d .rangeBusy
    else proceed s d (deletedRecords s r ++ [.rangeFree r]) (.rangeDelete r) := by
  unfold serveRangeDelete
  rw [toDefined_val hr]
  simp only [Bool.not_eq_true', deletedRecords]

/-! ## RANGE.FLAGS' checks and writes (R40, R44) -/

theorem Serves.exec_rangeFlags {s u : State} {b : RequestBlock} {d : Bool} {n flags : Nat}
    (h : Serves s b (.rangeFlags n flags) true (some 0) u d) (hf : u.control.frozen = false) :
    exec .rangeFlags s = .next (serveRangeFlags u d n flags) := by
  simp only [exec, execRangeFlags, h.starts]
  rw [h.ownerRequest (by simp [hf])]

theorem serveRangeFlags_illegal {s : State} (d : Bool) {n : Nat} (flags : Nat) (h : 16 ≤ n) :
    serveRangeFlags s d n flags = refuse s d .badRequest := by
  unfold serveRangeFlags
  rw [toIndex_of_le h]

theorem serveRangeFlags_free {s : State} (d : Bool) {r : RangeIx} (flags : Nat) (h : s.ranges[r].active = false) :
    serveRangeFlags s d r.val flags = refuse s d .badRequest := by
  unfold serveRangeFlags
  rw [toIndex_val]
  dsimp only
  rw [h]
  rfl

/-- Flags that bar RECOVERY from a range to which credential 1 holds a grant (R44). -/
def BarsRecovery (s : State) (r : RangeIx) (f : Flags) : Prop :=
  f.recoveryBarred = true ∧ (grantOf s.creds[(1 : CredIx)] r).isSome = true

theorem serveRangeFlags_plain {s : State} (d : Bool) {r : RangeIx} {flags : Nat} (ha : s.ranges[r].active = true)
    (hb : ¬ BarsRecovery s r (toFlags flags)) :
    serveRangeFlags s d r.val flags = proceed s d [.rangeFlags r (toFlags flags)] (.rangeFlags r (toFlags flags) false) := by
  have hbar : ((toFlags flags).recoveryBarred && (grantOf s.creds[(1 : CredIx)] r).isSome) = false :=
    Bool.eq_false_iff.2 fun e => hb (Bool.and_eq_true_iff.1 e)
  unfold serveRangeFlags
  rw [toIndex_val]
  dsimp only
  rw [hbar, ha]
  rfl

theorem serveRangeFlags_bars {s : State} (d : Bool) {r : RangeIx} {flags : Nat} (ha : s.ranges[r].active = true)
    (hb : BarsRecovery s r (toFlags flags)) :
    let need := openedByLoss s 1 [r]
    serveRangeFlags s d r.val flags =
      if (emptyMediaSlots s).length < keyNeed s need then refuse s d .slotsExhausted
      else proceed (holdKeys s need) d
        [credOp s 1 (fun x => { x with grants := withoutGrant x.grants r }), .rangeFlags r (toFlags flags)]
        (.rangeFlags r (toFlags flags) true) := by
  have hbar : ((toFlags flags).recoveryBarred && (grantOf s.creds[(1 : CredIx)] r).isSome) = true :=
    Bool.and_eq_true_iff.2 hb
  unfold serveRangeFlags
  rw [toIndex_val]
  dsimp only
  rw [hbar, ha]
  simp only [lacksSlots, decide_eq_true_eq]
  rfl

/-! ## A range that becomes FREE (R25, R43, R55) -/

/-- A job whose turn ends leaves the stack, and a HOLD job that was RUNNING gives up its dedicated lane (R16, R125). -/
theorem endTurn_eq {s : State} {j : JobNo} {b : Job} (hb : jobAt s j = some b) (f : Job → Job) :
    endTurn s j f = { s with
      sweep := { s.sweep with jobs := s.sweep.jobs.set j (.job (f b)), stack := s.sweep.stack.filter (· ≠ j) }
      arb := if holdsLane s j then undedicated s.arb else s.arb } := by
  unfold endTurn holdsLane
  rw [hb]
  dsimp only
  rw [undedicate_eq]
  split <;> rfl

/-- What jobs an entry of the job table holds depends on the sweep alone. -/
theorem jobAt_congr {s t : State} (h : t.sweep.jobs = s.sweep.jobs) (j : JobNo) : jobAt t j = jobAt s j := by
  unfold jobAt
  rw [h]

theorem jobAt_set {s t : State} {j : JobNo} {b : Job} (h : t.sweep.jobs = s.sweep.jobs.set j (.job b)) (k : JobNo) :
    jobAt t k = if k = j then some b else jobAt s k := by
  unfold jobAt
  rw [h]
  by_cases hk : k = j
  · subst hk
    simp
  · have hk' : ¬ j.val = k.val := fun e => hk (Fin.ext e).symm
    simp [hk, hk']

/-- No live PURGE job in this entry of the job table names the range. -/
def NotPurged (s : State) (r : RangeIx) (j : JobNo) : Prop :=
  ∀ b, jobAt s j = some b → b.kind = .purge → finished b = false → r ∉ b.ranges

/-- The live PURGE jobs of some entries have ceased to name a range, `a` before and `t` after. -/
structure RangeForgotten (r : RangeIx) (l : List JobNo) (a t : State) : Prop where
  frame  : t = { a with sweep := t.sweep, arb := t.arb, journal := t.journal }
  gone   : ∀ j ∈ l, NotPurged t r j
  others : ∀ j, j ∉ l → jobAt t j = jobAt a j
  same   : (∀ j ∈ l, NotPurged a r j) → t = a

theorem RangeForgotten.nil (r : RangeIx) (a : State) : RangeForgotten r [] a a :=
  ⟨rfl, fun _ h => absurd h List.not_mem_nil, fun _ _ => rfl, fun _ => rfl⟩

theorem RangeForgotten.cons {r : RangeIx} {j : JobNo} {l : List JobNo} {a t u : State} (hj : j ∉ l)
    (h : RangeForgotten r [j] a t) (k : RangeForgotten r l t u) : RangeForgotten r (j :: l) a u := by
  refine ⟨by rw [k.frame, h.frame], fun i hi => ?_, fun i hi => ?_, fun hsame => ?_⟩
  · rcases List.mem_cons.1 hi with rfl | hi
    · have hkept : jobAt u i = jobAt t i := k.others i hj
      unfold NotPurged
      rw [hkept]
      exact h.gone i (List.mem_singleton.2 rfl)
    · exact k.gone i hi
  · obtain ⟨hij, hil⟩ := not_or.1 fun e => hi (List.mem_cons.2 e)
    rw [k.others i hil, h.others i fun e => hij (List.mem_singleton.1 e)]
  · have ht : t = a := h.same fun i hi => hsame i (List.mem_cons.2 (.inl (List.mem_singleton.1 hi)))
    rw [← ht]
    refine k.same fun i hi => ?_
    rw [ht]
    exact hsame i (List.mem_cons_of_mem _ hi)

/-- A job that is not at work on the range stands. -/
theorem forgetRange_of_notPurged {r : RangeIx} {s : State} {j : JobNo} (h : NotPurged s r j) : forgetRange r s j = s := by
  unfold forgetRange
  cases hb : jobAt s j with
  | none => rfl
  | some b =>
    refine if_neg fun e => ?_
    simp only [Bool.and_eq_true, decide_eq_true_eq, Bool.not_eq_true', List.contains_iff_mem] at e
    obtain ⟨⟨hkind, hlive⟩, hmem⟩ := e
    exact h b hb hkind hlive hmem

/-- A job that has been CANCELLED. -/
def cancelledJob (b : Job) : Job := { b with state := .cancelled, pause := none, stall := none, pending := .noAction }

theorem finished_cancelledJob (b : Job) : finished (cancelledJob b) = true := rfl

/-- The end of a job that has no unfinished range releases nothing. -/
theorem finishJob_of_worked {s : State} {j : JobNo} {b : Job} (hb : jobAt s j = some b) (hn : unfinished b = []) :
    (finishJob s j .cancelled []).1 = endTurn s j cancelledJob := by
  unfold finishJob
  rw [hb]
  dsimp only
  rw [hn]
  split <;> rfl

/-- A live PURGE job that names the range: it loses it, and a job that is left with nothing to do, and has no chunk in motion,
is CANCELLED. -/
theorem forgetRange_of_purged {r : RangeIx} {s : State} {j : JobNo} {b : Job} (hs : s.startUp = none)
    (hb : jobAt s j = some b) (hkind : b.kind = .purge) (hlive : finished b = false) (hmem : r ∈ b.ranges) :
    ∃ c, (c = withoutRange s r b ∨ finished c = true) ∧
      forgetRange r s j = { s with sweep := (forgetRange r s j).sweep, arb := (forgetRange r s j).arb
                                   journal := (forgetRange r s j).journal } ∧
      (forgetRange r s j).sweep.jobs = s.sweep.jobs.set j (.job c) := by
  have hset : jobAt (setJob s j (.job (withoutRange s r b))) j = some (withoutRange s r b) := by
    rw [jobAt_set (s := s) rfl, if_pos rfl]
  unfold forgetRange
  rw [hb]
  dsimp only
  rw [if_pos (by simp [hkind, hlive, hmem])]
  have hwithout : withoutRange (setJob s j (.job (withoutRange s r b))) r b = withoutRange s r b := rfl
  rw [hwithout]
  by_cases hdone : ((unfinished (withoutRange s r b)).isEmpty && !hasChunk (setJob s j (.job (withoutRange s r b))) j) = true
  · rw [if_pos hdone]
    have hempty : unfinished (withoutRange s r b) = [] := List.isEmpty_iff.1 (Bool.and_eq_true_iff.1 hdone).1
    have hstart : ∀ f, (endTurn (setJob s j (.job (withoutRange s r b))) j f).startUp = none := fun f =>
      (endTurn_spared (s := s) (setJob_spared Spared.refl)).started hs
    rw [finishJob_of_worked hset hempty, raise_journal _ _ (hstart _), endTurn_eq hset]
    refine ⟨cancelledJob (withoutRange s r b), .inr (finished_cancelledJob _), rfl, ?_⟩
    exact Vector.set_set ..
  · rw [if_neg hdone]
    exact ⟨_, .inl rfl, rfl, rfl⟩

theorem forgetRange_forgotten (r : RangeIx) {s : State} (j : JobNo) (hs : s.startUp = none) :
    RangeForgotten r [j] s (forgetRange r s j) := by
  by_cases h : NotPurged s r j
  · rw [forgetRange_of_notPurged h]
    exact ⟨rfl, fun i hi => by rw [List.mem_singleton.1 hi]; exact h, fun _ _ => rfl, fun _ => rfl⟩
  · unfold NotPurged at h
    push Not at h
    obtain ⟨b, hb, hkind, hlive, hmem⟩ := h
    obtain ⟨c, hc, hframe, hjobs⟩ := forgetRange_of_purged hs hb hkind hlive hmem
    refine ⟨hframe, fun i hi d hd _ hdlive => ?_, fun i hi => ?_, fun hnone => ?_⟩
    · rw [List.mem_singleton.1 hi, jobAt_set hjobs, if_pos rfl] at hd
      rw [← Option.some.inj hd] at hdlive ⊢
      rcases hc with rfl | hc
      · simp [withoutRange]
      · rw [hc] at hdlive
        cases hdlive
    · rw [jobAt_set hjobs, if_neg fun e => hi (List.mem_singleton.2 e)]
    · exact absurd hmem (hnone j (List.mem_singleton.2 rfl) b hb hkind hlive)

theorem foldl_forgetRange (r : RangeIx) (l : List JobNo) (hl : l.Nodup) (s : State) (hs : s.startUp = none) :
    RangeForgotten r l s (l.foldl (forgetRange r) s) := by
  induction l generalizing s with
  | nil => exact .nil r s
  | cons j l ih =>
    obtain ⟨hj, hl⟩ := List.nodup_cons.1 hl
    have h := forgetRange_forgotten r j hs
    exact h.cons hj (ih hl _ (by rw [h.frame]; exact hs))

/-- RANGE.DELETE's tables, before the jobs that name the range are dealt with. -/
def freedRange (s : State) (r : RangeIx) : State :=
  let t := modRange (releaseNames s r) r freedEntry
  { t with
    creds := vmap (fun c => { c with grants := withoutGrant c.grants r }) t.creds
    damaged := t.damaged.filter (fun e => e.range ≠ r)
    intents := t.intents.filter (fun e => e.range ≠ r) }

theorem freedRange_eq (s : State) (r : RangeIx) : freedRange s r =
    { s with
      ranges := s.ranges.set r (freedEntry s.ranges[r])
      slots := (freedRange s r).slots
      creds := vmap (fun c => { c with grants := withoutGrant c.grants r }) s.creds
      damaged := s.damaged.filter (fun e => e.range ≠ r)
      intents := s.intents.filter (fun e => e.range ≠ r) } := by
  unfold freedRange releaseNames
  dsimp only
  rw [releaseOpt_eq, releaseOpt_eq s]
  simp [modRange, freedEntry, Vector.set_set]

theorem freedRange_slots {s : State} {r : RangeIx} (h : nextSlotOf s.ranges[r] = none) (i : SlotIx) :
    (freedRange s r).slots[i] = if s.ranges[r].slot = some i then released s.slots[i] else s.slots[i] := by
  show (releaseOpt (releaseOpt s s.ranges[r].slot) (nextSlotOf s.ranges[r])).slots[i] = _
  rw [h]
  exact releaseOpt_slots s _ i

theorem deleteRange_forgotten (s : State) (r : RangeIx) (hs : s.startUp = none) :
    RangeForgotten r allJobs (freedRange s r) (deleteRange s r) := by
  have hfold : deleteRange s r = allJobs.foldl (forgetRange r) (freedRange s r) := by
    unfold deleteRange freedRange
    dsimp only
  have hstart : (freedRange s r).startUp = none := by
    rw [freedRange_eq]
    exact hs
  rw [hfold]
  exact foldl_forgetRange r allJobs (by decide) _ hstart

theorem deleteRange_startUp {s : State} (r : RangeIx) (hs : s.startUp = none) : (deleteRange s r).startUp = none := by
  rw [(deleteRange_forgotten s r hs).frame, freedRange_eq]
  exact hs

/-! ## Completion -/

theorem stored_startUp (s : State) (d : Bool) (ops : List StoreOp) (a : After) : (stored s d ops a).startUp = s.startUp := by
  unfold stored
  split <;> rfl

theorem finishService_rangeDelete {t : State} {v : Service} {r : RangeIx} (hv : t.control.service = some v)
    (ha : v.after = .rangeDelete r) : finishService t =
      answerWith (raise (engine (deleteRange t r)) (configEvent (some r) none v)) (deleteOps t r) ⟨.done, .none⟩ := by
  unfold finishService
  rw [hv]
  dsimp only
  rw [ha]
  exact respondAfter_eq _ _ _

theorem engine_startUp {s : State} (h : s.startUp = none) : (engine s).startUp = none :=
  (engine_spared Spared.refl).started h

/-- A range with no intent entry is answered at once. -/
theorem LastWrite.rangeDelete_settles {s t : State} {v : Service} {r : RangeIx} (h : LastWrite s v (.rangeDelete r) t)
    (hn : intentOf t r = none) :
    exec .storeWriteCompletion s = .next (settled (engine (deleteRange t r)) (some r) none v .none) := by
  refine h.settles ?_ (engine_startUp (deleteRange_startUp r h.startUp))
  rw [finishService_rangeDelete h.inService.1 h.inService.2]
  simp only [deleteOps, hn]
  rfl

/-- One with an intent entry waits for the intent list without it. -/
theorem LastWrite.rangeDelete_stores {s t : State} {v : Service} {r : RangeIx} (h : LastWrite s v (.rangeDelete r) t)
    (hn : intentOf t r ≠ none) :
    exec .storeWriteCompletion s = .next (stored (raise (engine (deleteRange t r)) (configEvent (some r) none v)) false
      [.intents [r] [] []] (.respond ⟨.done, .none⟩)) := by
  refine h.finish ?_ (by rw [stored_startUp]; exact raise_startUp _ _ (engine_startUp (deleteRange_startUp r h.startUp)))
  rw [finishService_rangeDelete h.inService.1 h.inService.2]
  have hops : deleteOps t r = [.intents [r] [] []] := if_pos (Option.isSome_iff_ne_none.2 hn)
  rw [hops]
  rfl

theorem takeUpSlot_startUp (want : RangeIx → Bool) (s : State) (i : SlotIx) : (takeUpSlot want s i).startUp = s.startUp := by
  unfold takeUpSlot nameSlot
  dsimp only
  repeat' split
  all_goals rfl

theorem takeUp_startUp (s : State) (want : RangeIx → Bool) : (takeUp s want).startUp = s.startUp := by
  unfold takeUp
  induction mediaSlots generalizing s with
  | nil => rfl
  | cons i l ih => rw [List.foldl_cons, ih, takeUpSlot_startUp]

theorem openIfUnguarded_startUp {s : State} (r : RangeIx) (h : s.startUp = none) : (openIfUnguarded s r).startUp = none := by
  unfold openIfUnguarded
  dsimp only
  split
  · exact (returnUnlocked_spared Spared.refl).started h
  · exact h

/-- RANGE.FLAGS takes effect (R44). -/
theorem LastWrite.rangeFlags_finish {s t : State} {v : Service} {r : RangeIx} {f : Flags} {bar : Bool}
    (h : LastWrite s v (.rangeFlags r f bar) t) : finishService t =
      settled (if bar then credChanged (modRange t r (fun x => { x with flags := f })) 1
          (fun x => { x with grants := withoutGrant x.grants r }) [r]
        else modRange t r (fun x => { x with flags := f })) (some r) none v .none := by
  obtain ⟨hv, ha⟩ := h.inService
  unfold finishService
  rw [hv]
  dsimp only
  rw [ha]
  rfl

/-- The loss of one grant takes up the held keys and opens the range that is left unguarded (R33, R54, R77). -/
theorem credChanged_one (s : State) (c : CredIx) (f : Cred → Cred) (r : RangeIx) :
    credChanged s c f [r] = engine (openIfUnguarded (takeUp (modCred s c f) (fun _ => true)) r) := by
  simp only [credChanged, List.isEmpty_cons, Bool.false_eq_true, if_false, List.foldl_cons, List.foldl_nil]

theorem LastWrite.rangeFlags_bars {s t : State} {v : Service} {r : RangeIx} {f : Flags}
    (h : LastWrite s v (.rangeFlags r f true) t) : exec .storeWriteCompletion s = .next (settled
      (engine (openIfUnguarded (takeUp (modCred (modRange t r (fun x => { x with flags := f })) 1
        (fun x => { x with grants := withoutGrant x.grants r })) (fun _ => true)) r)) (some r) none v .none) := by
  refine h.settles (h.rangeFlags_finish.trans ?_) (engine_startUp (openIfUnguarded_startUp r ?_))
  · rw [if_pos rfl, credChanged_one]
  · rw [takeUp_startUp]
    exact h.startUp

/-- Settles O53: the checks and writes of both requests, then their completions. -/
theorem rangeDeleteAndFlagsChangeTheEntry : Obligations.RangeDeleteAndFlagsChangeTheEntry := by
  intro s b u d n hf
  refine ⟨fun h => ⟨fun hn => ?_, ?_⟩, fun flags h => ⟨fun hn => ?_, ?_⟩,
    fun v t r => ⟨fun f h => ?_, fun f h => ?_, fun h => ?_⟩⟩
  · rw [h.exec_rangeDelete hf, serveRangeDelete_illegal d hn, refuse_eq _ _ _ h.service]
  · rintro r rfl hr
    rw [h.exec_rangeDelete hf, serveRangeDelete_defined u d hr]
    refine ⟨fun ha => ?_, fun ha hc => ?_, fun ha hc => ?_⟩
    · rw [if_pos ha, refuse_eq _ _ _ h.service]
    · rw [if_neg (by simp [ha, -Fin.getElem_fin]), if_pos hc, refuse_eq _ _ _ h.service]
    · rw [if_neg (by simp [ha, -Fin.getElem_fin]), if_neg (not_not.2 hc), proceed_stored _ _ _ _ (.inr (by simp))]
      rfl
  · rw [h.exec_rangeFlags hf, serveRangeFlags_illegal d flags hn, refuse_eq _ _ _ h.service]
  · rintro r rfl
    rw [h.exec_rangeFlags hf]
    refine ⟨fun ha => ?_, fun ha hb => ?_, fun ha hb => ?_⟩
    · rw [serveRangeFlags_free d flags ha, refuse_eq _ _ _ h.service]
    · rw [serveRangeFlags_plain d ha hb, proceed_stored _ _ _ _ (.inr (List.cons_ne_nil _ _))]
    · rw [serveRangeFlags_bars d ha hb]
      refine ⟨fun hroom => ?_, fun hroom => ?_⟩
      · rw [if_pos hroom, refuse_eq _ _ _ h.service]
      · rw [if_neg (Nat.not_lt.2 hroom), proceed_stored _ _ _ _ (.inr (List.cons_ne_nil _ _))]
        rfl
  · exact h.settles h.rangeFlags_finish h.startUp
  · exact h.rangeFlags_bars
  · obtain ⟨hframe, hgone, -, hsame⟩ := deleteRange_forgotten t r h.startUp
    refine ⟨deleteRange t r, ?_, ?_, fun q hq => ?_, fun hnext i => ?_, fun c => ?_, fun j b hb => ?_, fun hnone => ?_,
      h.rangeDelete_settles, h.rangeDelete_stores⟩
    · rw [hframe, freedRange_eq]
    · rw [hframe, freedRange_eq]
      simp
      rfl
    · have hq' : ¬ r.val = q.val := fun e => hq (Fin.ext e).symm
      rw [hframe, freedRange_eq]
      simp [hq']
    · rw [hframe]
      exact freedRange_slots hnext i
    · rw [hframe, freedRange_eq]
      exact vmap_getElem _ _ _
    · exact hgone j (mem_allJobs j) b hb
    · have hbefore : ∀ j ∈ allJobs, NotPurged (freedRange t r) r j := fun j _ b hb => by
        rw [freedRange_eq] at hb
        exact hnone j b hb
      rw [hsame hbefore, freedRange_eq]
      exact ⟨rfl, rfl, rfl⟩

end Sys2Proof.Machine
end

section
/-! What a wipe does to the sweep jobs of its ranges, and what the jobs that it cancels leave to be stored (R39, R108). -/

namespace Sys2Proof.Machine

/-! ## What cancelled jobs leave to be stored (R39) -/

theorem Release.nil_join (a : Release) : Release.join ⟨[], []⟩ a = a := rfl

theorem Release.join_nil (a : Release) : a.join ⟨[], []⟩ = a := by
  simp [Release.join]

theorem Release.join_assoc (a b c : Release) : (a.join b).join c = a.join (b.join c) := by
  simp [Release.join]

/-- An intent entry without its purge option, where its range is one of a list. -/
def dropPurge (l : List RangeIx) (e : Intent) : Intent := if l.contains e.range then { e with purge := none } else e

theorem dropPurge_range (l : List RangeIx) (e : Intent) : (dropPurge l e).range = e.range := by
  unfold dropPurge
  split <;> rfl

theorem dropPurge_gen (l : List RangeIx) (e : Intent) : (dropPurge l e).gen = e.gen := by
  unfold dropPurge
  split <;> rfl

theorem dropPurge_append (l m : List RangeIx) (e : Intent) : dropPurge (l ++ m) e = dropPurge m (dropPurge l e) := by
  unfold dropPurge
  by_cases hl : e.range ∈ l <;> by_cases hm : e.range ∈ m <;> simp [hl, hm]

theorem editIntents_drop (l : List Intent) (d : List RangeIx) : editIntents l [] d [] = l.map (dropPurge d) := by
  unfold editIntents
  have hkept : l.filter (fun e => !([] : List RangeIx).contains e.range) = l := List.filter_eq_self.2 fun _ _ => rfl
  rw [List.append_nil, hkept]
  rfl

/-- Ranges outside a wipe's set have been released by the jobs that it cancels, `a` before and `t` after: PURGING ones are
STEADY, and the intent entries of DRAINING ones lose their purge option. -/
structure Released (set : List RangeIx) (n : Release) (a t : State) : Prop where
  outside : ∀ r : RangeIx, r ∉ set → t.ranges[r] =
    if a.ranges[r].cond = .purging ∧ r ∈ n.steady then { a.ranges[r] with cond := .steady } else a.ranges[r]
  intents : t.intents = a.intents.map (dropPurge n.drop)

theorem Released.none {set : List RangeIx} {a t : State} (h : ∀ r : RangeIx, r ∉ set → t.ranges[r] = a.ranges[r])
    (hi : t.intents = a.intents) : Released set ⟨[], []⟩ a t := by
  refine ⟨fun r hr => ?_, ?_⟩
  · rw [h r hr, if_neg fun e => List.not_mem_nil e.2]
  · rw [hi]
    exact (List.map_id _).symm

/-- A step that releases nothing. -/
theorem Released.exists_none {set : List RangeIx} {a t : State} (b : Release)
    (h : ∀ r : RangeIx, r ∉ set → t.ranges[r] = a.ranges[r]) (hi : t.intents = a.intents) :
    ∃ n, b = b.join n ∧ Released set n a t :=
  ⟨⟨[], []⟩, b.join_nil.symm, .none h hi⟩

theorem Released.trans {set : List RangeIx} {m n : Release} {a t u : State} (h : Released set m a t)
    (k : Released set n t u) : Released set (m.join n) a u := by
  refine ⟨fun r hr => ?_, ?_⟩
  · rw [k.outside r hr, h.outside r hr]
    by_cases hp : a.ranges[r].cond = .purging <;> by_cases hm : r ∈ m.steady <;> by_cases hn : r ∈ n.steady <;>
      simp [Release.join, hp, hm, hn, -Fin.getElem_fin]
  · rw [k.intents, h.intents, List.map_map]
    exact congrArg (fun f => List.map f a.intents) (funext fun e => (dropPurge_append _ _ e).symm)

/-- Releasing is a relation of the range table and the intent list alone. -/
theorem Released.congr {set : List RangeIx} {n : Release} {a b t u : State} (h : Released set n a t)
    (ha : b.ranges = a.ranges ∧ b.intents = a.intents) (ht : u.ranges = t.ranges ∧ u.intents = t.intents) :
    Released set n b u := by
  refine ⟨?_, ?_⟩
  · rw [ha.1, ht.1]
    exact h.outside
  · rw [ha.2, ht.2]
    exact h.intents

/-- A step that releases ranges outside a wipe's set and changes nothing else. -/
structure Releases (set : List RangeIx) (x y : State × Release) : Prop where
  frame    : y.1 = { x.1 with ranges := y.1.ranges, intents := y.1.intents }
  inside   : ∀ r ∈ set, y.1.ranges[r] = x.1.ranges[r]
  released : ∃ n, y.2 = x.2.join n ∧ Released set n x.1 y.1

theorem Releases.refl (set : List RangeIx) (x : State × Release) : Releases set x x :=
  ⟨rfl, fun _ _ => rfl, Released.exists_none _ (fun _ _ => rfl) rfl⟩

theorem Releases.trans {set : List RangeIx} {x y z : State × Release} (h : Releases set x y) (k : Releases set y z) :
    Releases set x z := by
  obtain ⟨m, hm, hrel⟩ := h.released
  obtain ⟨n, hn, krel⟩ := k.released
  exact ⟨by rw [k.frame, h.frame], fun r hr => (k.inside r hr).trans (h.inside r hr), m.join n,
    by rw [hn, hm, Release.join_assoc], hrel.trans krel⟩

/-- One range of a cancelled PURGE job: PURGING, DRAINING, or of no concern (R39). -/
theorem releaseRange_releases {set : List RangeIx} (x : State × Release) {r : RangeIx} (hr : r ∉ set) :
    Releases set x (releaseRange x r) := by
  have hne : ∀ q ∈ set, q ≠ r := fun q hq e => hr (e ▸ hq)
  unfold releaseRange
  dsimp only
  split
  · exact .refl set x
  · split
    · next hp =>
      refine ⟨rfl, fun q hq => ?_, ⟨[r], []⟩, by simp [Release.join], fun q _ => ?_, (List.map_id _).symm⟩
      · rw [modRange_ranges, if_neg (hne q hq)]
      · rw [modRange_ranges]
        by_cases hq : q = r
        · subst hq
          simp [hp, -Fin.getElem_fin]
        · simp [hq]
    · split
      · next hp hd =>
        refine ⟨rfl, fun _ _ => rfl, ⟨if x.1.ranges[r].finishing then [r] else [], [r]⟩, ?_, fun q _ => ?_,
          editIntents_drop _ _⟩
        · unfold Release.join
          split <;> simp
        · refine (if_neg fun e => ?_).symm
          have hq : q = r := by
            have := e.2
            split at this
            · exact List.mem_singleton.1 this
            · exact absurd this List.not_mem_nil
          rw [hq] at e
          exact hp e.1
      · exact .refl set x

theorem foldl_releaseRange {set : List RangeIx} (l : List RangeIx) (hl : ∀ r ∈ l, r ∉ set) (x : State × Release) :
    Releases set x (l.foldl releaseRange x) := by
  induction l generalizing x with
  | nil => exact .refl set x
  | cons r l ih =>
    exact (releaseRange_releases x (hl r (List.mem_cons_self ..))).trans
      (ih (fun q hq => hl q (List.mem_cons_of_mem _ hq)) _)

/-! ## The jobs that a wipe reaches (R108) -/

/-- Whether a wipe of some ranges reaches a job: it is live, is no PURGE of level 0, and names one of them. -/
def reaches (l : List RangeIx) (b : Job) : Bool :=
  !finished b && (b.kind = .rekey || b.level ≠ 0) && b.ranges.any l.contains

theorem reaches_append (l m : List RangeIx) (b : Job) : reaches (l ++ m) b = (reaches l b || reaches m b) := by
  unfold reaches
  have hany : b.ranges.any (l ++ m).contains = (b.ranges.any l.contains || b.ranges.any m.contains) := by
    rw [← any_or]
    exact congrArg (fun f => List.any b.ranges f) (funext fun q => by simp)
  rw [hany, Bool.and_or_distrib_left]

theorem reaches_nil (b : Job) : reaches [] b = false := by
  simp [reaches]

theorem reaches_live {l : List RangeIx} {b : Job} (h : reaches l b = true) : finished b = false := by
  simp only [reaches, Bool.and_eq_true, Bool.not_eq_true'] at h
  exact h.1.1

theorem reaches_singleton (r : RangeIx) (b : Job) :
    reaches [r] b = (!finished b && b.ranges.contains r && (b.kind = .rekey || b.level ≠ 0)) := by
  have hany : b.ranges.any [r].contains = b.ranges.contains r := by
    rw [Bool.eq_iff_iff]
    simp [List.any_eq_true]
  unfold reaches
  rw [hany, Bool.and_right_comm]

/-- A job whose chunk is in motion remembers the wipe's set (R108). -/
def remembering (set : List RangeIx) (b : Job) : Job :=
  { b with wipeSet := b.wipeSet ++ set.filter (fun q => !b.wipeSet.contains q) }

theorem remembering_twice (set : List RangeIx) (b : Job) : remembering set (remembering set b) = remembering set b := by
  unfold remembering
  exact congrArg (fun l => { b with wipeSet := l }) (remembered_twice b.wipeSet set)

/-- Whether a wipe that reaches jobs by `p` cancels a job at once: it has no chunk in motion. -/
def cutBy (s : State) (p : JobNo → Job → Bool) (j : JobNo) : Bool := !hasChunk s j && (jobAt s j).any (p j)

/-- What a wipe that reaches jobs by `p` makes of a job. -/
def wipedJob (set : List RangeIx) (cut reached : Bool) (b : Job) : Job :=
  if cut then cancelledJob b else if reached then remembering set b else b

/-- A wipe of a set has dealt with the jobs that it reaches by `p`, `a` before and `t` after. -/
structure JobsWiped (set : List RangeIx) (p : JobNo → Job → Bool) (a t : State) : Prop where
  live  : ∀ j b, p j b = true → finished b = false
  blind : ∀ j b, p j (remembering set b) = p j b
  sweep : t.sweep = { a.sweep with jobs := t.sweep.jobs, stack := a.sweep.stack.filter (fun j => !cutBy a p j) }
  jobs  : ∀ j, jobAt t j = (jobAt a j).map (fun b => wipedJob set (cutBy a p j) (p j b) b)
  arb   : t.arb = if allJobs.any (fun j => cutBy a p j && holdsLane a j) then undedicated a.arb else a.arb

theorem JobsWiped.none {set : List RangeIx} {p : JobNo → Job → Bool} {a t : State}
    (live : ∀ j b, p j b = true → finished b = false) (blind : ∀ j b, p j (remembering set b) = p j b)
    (hp : ∀ j b, jobAt a j = some b → p j b = false)
    (hs : t.sweep = a.sweep) (harb : t.arb = a.arb) : JobsWiped set p a t := by
  have hcut : ∀ j, cutBy a p j = false := fun j => by
    unfold cutBy
    cases hb : jobAt a j with
    | none => simp
    | some b => simp [hp j b hb]
  refine ⟨live, blind, ?_, fun j => ?_, ?_⟩
  · simp [hcut, hs]
  · have hjob : jobAt t j = jobAt a j := jobAt_congr (by rw [hs]) j
    rw [hjob, hcut j]
    cases hb : jobAt a j with
    | none => rfl
    | some b => simp [wipedJob, hp j b hb]
  · simp [hcut, harb]

theorem holdsLane_congr {s t : State} (h : t.sweep.jobs = s.sweep.jobs) (j : JobNo) : holdsLane t j = holdsLane s j := by
  unfold holdsLane
  rw [jobAt_congr h]

theorem cutBy_congr {s t : State} (h : t.sweep.jobs = s.sweep.jobs) (hc : t.sweep.chunk = s.sweep.chunk)
    (p : JobNo → Job → Bool) (j : JobNo) : cutBy t p j = cutBy s p j := by
  unfold cutBy hasChunk
  rw [jobAt_congr h, hc]

/-- The reach of a wipe is a relation of the sweep and of the arbiter alone. -/
theorem JobsWiped.congr {set : List RangeIx} {p : JobNo → Job → Bool} {a b t u : State} (h : JobsWiped set p a t)
    (ha : b.sweep = a.sweep ∧ b.arb = a.arb) (ht : u.sweep = t.sweep ∧ u.arb = t.arb) : JobsWiped set p b u := by
  have hcut : cutBy b p = cutBy a p := funext fun j => cutBy_congr (by rw [ha.1]) (by rw [ha.1]) p j
  have hlane : holdsLane b = holdsLane a := funext fun j => holdsLane_congr (by rw [ha.1]) j
  refine ⟨h.live, h.blind, ?_, fun j => ?_, ?_⟩
  · rw [ht.1, ha.1, hcut]
    exact h.sweep
  · have hjobA : jobAt b j = jobAt a j := jobAt_congr (by rw [ha.1]) j
    have hjobT : jobAt u j = jobAt t j := jobAt_congr (by rw [ht.1]) j
    rw [hjobT, hjobA, hcut]
    exact h.jobs j
  · rw [ht.2, ha.2, hcut, hlane]
    exact h.arb

theorem JobsWiped.hasChunk {set : List RangeIx} {p : JobNo → Job → Bool} {a t : State} (h : JobsWiped set p a t)
    (j : JobNo) : hasChunk t j = hasChunk a j := by
  unfold Machine.hasChunk
  rw [h.sweep]

/-- A job that has been cancelled is not cancelled again. -/
theorem JobsWiped.cutBy_after {set : List RangeIx} {p q : JobNo → Job → Bool} {a t u : State} (h : JobsWiped set p a t)
    (k : JobsWiped set q t u) (j : JobNo) : cutBy t q j = (cutBy a q j && !cutBy a p j) := by
  have hq : ∀ b, q j (cancelledJob b) = false := fun b => Bool.eq_false_iff.2 fun e => by
    have := k.live j _ e
    rw [finished_cancelledJob] at this
    cases this
  unfold cutBy at *
  rw [h.hasChunk j, h.jobs j]
  cases hb : jobAt a j with
  | none => simp
  | some b =>
    have hcut : cutBy a p j = (!Machine.hasChunk a j && p j b) := by simp [cutBy, hb]
    simp only [Option.map_some, Option.any_some, hcut, wipedJob]
    cases Machine.hasChunk a j <;> cases p j b <;> simp [hq, k.blind]

theorem JobsWiped.holdsLane_after {set : List RangeIx} {p : JobNo → Job → Bool} {a t : State} (h : JobsWiped set p a t)
    {j : JobNo} (hp : cutBy a p j = false) : holdsLane t j = holdsLane a j := by
  unfold holdsLane
  rw [h.jobs j, hp]
  cases jobAt a j with
  | none => rfl
  | some b =>
    simp only [Option.map_some, wipedJob, Bool.false_eq_true, if_false]
    split <;> rfl

theorem cutBy_or (s : State) (p q : JobNo → Job → Bool) (j : JobNo) :
    cutBy s (fun j b => p j b || q j b) j = (cutBy s p j || cutBy s q j) := by
  unfold cutBy
  cases jobAt s j with
  | none => simp
  | some b => simp [Bool.and_or_distrib_left]

/-- Two reaches of one wipe, one after the other: a job is cancelled once, and remembers the set once. -/
theorem JobsWiped.trans {set : List RangeIx} {p q : JobNo → Job → Bool} {a t u : State} (h : JobsWiped set p a t)
    (k : JobsWiped set q t u) : JobsWiped set (fun j b => p j b || q j b) a u := by
  refine ⟨fun j b e => ?_, fun j b => ?_, ?_, fun j => ?_, ?_⟩
  · rcases Bool.or_eq_true_iff.1 e with e | e
    · exact h.live j b e
    · exact k.live j b e
  · rw [h.blind, k.blind]
  · rw [k.sweep, h.sweep]
    simp only [List.filter_filter, cutBy_or, h.cutBy_after k]
    refine congrArg (fun f => ({ a.sweep with jobs := u.sweep.jobs, stack := a.sweep.stack.filter f } : Sweep))
      (funext fun j => ?_)
    cases cutBy a p j <;> cases cutBy a q j <;> rfl
  · rw [k.jobs j, h.jobs j, Option.map_map, cutBy_or, h.cutBy_after k]
    cases hb : jobAt a j with
    | none => rfl
    | some b =>
      have hcutp : cutBy a p j = (!Machine.hasChunk a j && p j b) := by simp [cutBy, hb]
      have hcutq : cutBy a q j = (!Machine.hasChunk a j && q j b) := by simp [cutBy, hb]
      have hq : q j (cancelledJob b) = false := Bool.eq_false_iff.2 fun e => by
        have := k.live j _ e
        rw [finished_cancelledJob] at this
        cases this
      simp only [Option.map_some, Function.comp_apply, hcutp, hcutq, wipedJob]
      cases Machine.hasChunk a j <;> cases hp : p j b <;> cases hqb : q j b <;>
        simp [hq, hqb, k.blind, remembering_twice]
  · have hany : allJobs.any (fun j => cutBy a (fun j b => p j b || q j b) j && holdsLane a j) =
        (allJobs.any (fun j => cutBy a p j && holdsLane a j) || allJobs.any (fun j => cutBy t q j && holdsLane t j)) := by
      rw [← any_or]
      refine congrArg (fun f => List.any allJobs f) (funext fun j => ?_)
      rw [cutBy_or, h.cutBy_after k]
      cases hp : cutBy a p j with
      | true => cases cutBy a q j <;> simp
      | false =>
        rw [h.holdsLane_after hp]
        simp
    rw [k.arb, h.arb, hany]
    cases allJobs.any (fun j => cutBy a p j && holdsLane a j) <;> cases allJobs.any (fun j => cutBy t q j && holdsLane t j) <;>
      simp [undedicated_twice]

end Sys2Proof.Machine
end

section
/-! The completion of a commit's intent write: the ranges of the set drain, and the jobs that name them are dealt with (R107,
R108, R112). -/

namespace Sys2Proof.Machine

/-! ## One job of one range (R108) -/

/-- The entries of jobs that a wipe cancels. -/
def CancelledByWipe (e : Event) : Prop := e.kind = .sweepCancelled ∧ e.detail = .cancelled .wipe

/-- A wipe of a set has dealt with the jobs that it reaches by `p`: the jobs, what they leave to be stored, and the journal. -/
structure JobsDealt (set : List RangeIx) (p : JobNo → Job → Bool) (x y : State × Release) : Prop where
  frame    : y.1 = { x.1 with ranges := y.1.ranges, arb := y.1.arb, sweep := y.1.sweep, intents := y.1.intents
                              journal := y.1.journal }
  inside   : ∀ r ∈ set, y.1.ranges[r] = x.1.ranges[r]
  released : ∃ n, y.2 = x.2.join n ∧ Released set n x.1 y.1
  jobs     : JobsWiped set p x.1 y.1
  journal  : ∃ es : List Event, y.1.journal = es.foldl journalRecord x.1.journal ∧ ∀ e ∈ es, CancelledByWipe e

theorem JobsDealt.refl {set : List RangeIx} {p : JobNo → Job → Bool} {x : State × Release}
    (h : JobsWiped set p x.1 x.1) : JobsDealt set p x x :=
  ⟨rfl, fun _ _ => rfl, Released.exists_none _ (fun _ _ => rfl) rfl, h, [], rfl,
    fun _ h => absurd h List.not_mem_nil⟩

theorem JobsDealt.trans {set : List RangeIx} {p q : JobNo → Job → Bool} {x y z : State × Release}
    (h : JobsDealt set p x y) (k : JobsDealt set q y z) : JobsDealt set (fun j b => p j b || q j b) x z := by
  obtain ⟨m, hm, hrel⟩ := h.released
  obtain ⟨n, hn, krel⟩ := k.released
  obtain ⟨es, hes, hall⟩ := h.journal
  obtain ⟨fs, hfs, kall⟩ := k.journal
  refine ⟨by rw [k.frame, h.frame], fun r hr => (k.inside r hr).trans (h.inside r hr),
    ⟨m.join n, by rw [hn, hm, Release.join_assoc], hrel.trans krel⟩, h.jobs.trans k.jobs, es ++ fs, ?_, fun e he => ?_⟩
  · rw [hfs, hes, List.foldl_append]
  · rcases List.mem_append.1 he with he | he
    · exact hall e he
    · exact kall e he

/-- The end of a job by a wipe: its turn ends, and the ranges outside the wipe's set that it has not finished are released. -/
theorem finishJob_cancelled {s : State} {j : JobNo} {b : Job} (hb : jobAt s j = some b) (set : List RangeIx) :
    Releases set (endTurn s j cancelledJob, ⟨[], []⟩) (finishJob s j .cancelled set) := by
  unfold finishJob
  rw [hb]
  dsimp only
  split
  · exact foldl_releaseRange _ (fun r hr => by simpa using (List.mem_filter.1 hr).2) _
  · exact .refl _ _

theorem any_job (f : JobNo → Bool) (j : JobNo) : allJobs.any (fun i => decide (i = j) && f i) = f j := by
  rw [Bool.eq_iff_iff, List.any_eq_true]
  refine ⟨fun ⟨i, _, hi⟩ => ?_, fun h => ⟨j, mem_allJobs j, by simp [h]⟩⟩
  obtain ⟨hij, hf⟩ := Bool.and_eq_true_iff.1 hi
  rw [← of_decide_eq_true hij]
  exact hf

theorem modJob_eq {s : State} {j : JobNo} {b : Job} (hb : jobAt s j = some b) (f : Job → Job) :
    modJob s j f = setJob s j (.job (f b)) := by
  unfold modJob
  rw [hb]

/-- A job that a wipe cancels, with nothing else. -/
theorem endTurn_cancelled {s : State} {j : JobNo} {b : Job} (hb : jobAt s j = some b) (set : List RangeIx)
    {p : JobNo → Job → Bool} (live : ∀ i c, p i c = true → finished c = false)
    (blind : ∀ i c, p i (remembering set c) = p i c) (hp : p j b = true)
    (hother : ∀ i c, i ≠ j → p i c = false) (hc : hasChunk s j = false) :
    JobsWiped set p s (endTurn s j cancelledJob) := by
  have hcut : ∀ i, cutBy s p i = decide (i = j) := fun i => by
    unfold cutBy
    by_cases hi : i = j
    · subst hi
      simp [hb, hc, hp]
    · have : (jobAt s i).any (p i) = false := by
        cases jobAt s i with
        | none => rfl
        | some c => exact hother i c hi
      simp [hi, this]
  rw [endTurn_eq hb]
  refine ⟨live, blind, ?_, fun i => ?_, ?_⟩
  · simp [hcut]
  · rw [jobAt_set (s := s) rfl, hcut]
    by_cases hi : i = j
    · subst hi
      simp [hb, wipedJob]
    · rw [if_neg hi]
      cases jobAt s i with
      | none => rfl
      | some c => simp [wipedJob, hi, hother i c hi]
  · simp only [hcut, any_job]

/-- A job whose chunk is in motion, and which remembers the set. -/
theorem modJob_remembering {s : State} {j : JobNo} {b : Job} (hb : jobAt s j = some b) (set : List RangeIx)
    {p : JobNo → Job → Bool} (live : ∀ i c, p i c = true → finished c = false)
    (blind : ∀ i c, p i (remembering set c) = p i c) (hp : p j b = true)
    (hother : ∀ i c, i ≠ j → p i c = false) (hc : hasChunk s j = true) :
    JobsWiped set p s (modJob s j (remembering set)) := by
  have hcut : ∀ i, cutBy s p i = false := fun i => by
    unfold cutBy
    by_cases hi : i = j
    · subst hi
      simp [hc]
    · cases jobAt s i with
      | none => simp
      | some c => simp [hother i c hi]
  rw [modJob_eq hb]
  refine ⟨live, blind, ?_, fun i => ?_, ?_⟩
  · simp [hcut, setJob]
  · rw [jobAt_set (s := s) rfl, hcut]
    by_cases hi : i = j
    · subst hi
      simp [hb, wipedJob, hp]
    · rw [if_neg hi]
      cases jobAt s i with
      | none => rfl
      | some c => simp [wipedJob, hother i c hi]
  · simp [hcut, setJob]

/-- The jobs of some entries that a wipe of a range reaches. -/
def reachesOf (r : RangeIx) (l : List JobNo) (j : JobNo) (b : Job) : Bool := l.contains j && reaches [r] b

theorem reachesOf_live {r : RangeIx} {l : List JobNo} (j : JobNo) (b : Job) (h : reachesOf r l j b = true) :
    finished b = false :=
  reaches_live (Bool.and_eq_true_iff.1 h).2

theorem reachesOf_blind {r : RangeIx} {l : List JobNo} {set : List RangeIx} (j : JobNo) (b : Job) :
    reachesOf r l j (remembering set b) = reachesOf r l j b := rfl

/-- A job that the wipe does not reach, one with a chunk in motion, and one that is cancelled (R108). -/
theorem wipeJob_dealt (set : List RangeIx) (r : RangeIx) (x : State × Release) (j : JobNo) (hs : x.1.startUp = none) :
    JobsDealt set (reachesOf r [j]) x (wipeJob set r x j) := by
  have hother : ∀ i c, i ≠ j → reachesOf r [j] i c = false := fun i c hi => by simp [reachesOf, hi]
  have hnone : (∀ b, jobAt x.1 j = some b → reaches [r] b = false) → JobsDealt set (reachesOf r [j]) x x := fun h =>
    .refl (.none reachesOf_live reachesOf_blind (fun i b hb => by
      by_cases hi : i = j
      · rw [hi] at hb
        simp [reachesOf, h b hb]
      · exact hother i b hi) rfl rfl)
  unfold wipeJob
  dsimp only
  cases hb : jobAt x.1 j with
  | none => exact hnone fun b h => by rw [hb] at h; cases h
  | some b =>
    dsimp only
    rw [← reaches_singleton]
    cases hr : reaches [r] b with
    | false =>
      rw [if_neg Bool.false_ne_true]
      exact hnone fun c h => by rw [hb] at h; cases h; exact hr
    | true =>
      have hp : reachesOf r [j] j b = true := by simp [reachesOf, hr]
      rw [if_pos rfl]
      cases hc : hasChunk x.1 j with
      | true =>
        rw [if_pos rfl]
        have hjobs := modJob_remembering hb set reachesOf_live reachesOf_blind hp hother hc
        show JobsDealt set (reachesOf r [j]) x (modJob x.1 j (remembering set), x.2)
        rw [modJob_eq hb] at hjobs ⊢
        exact ⟨rfl, fun _ _ => rfl, Released.exists_none _ (fun _ _ => rfl) rfl, hjobs, [], rfl,
          fun _ h => absurd h List.not_mem_nil⟩
      | false =>
        rw [if_neg Bool.false_ne_true]
        have hjobs := endTurn_cancelled hb set reachesOf_live reachesOf_blind hp hother hc
        obtain ⟨hframe, hinside, n, hn, hrel⟩ := finishJob_cancelled hb set
        unfold cancelByWipe
        dsimp only
        generalize finishJob x.1 j .cancelled set = y at hframe hinside hn hrel ⊢
        rw [endTurn_eq hb] at hframe hinside hrel hjobs
        have hstart : y.1.startUp = none := by rw [hframe]; exact hs
        rw [raise_journal _ _ hstart]
        refine ⟨by rw [hframe], hinside, ⟨n, by rw [hn, Release.nil_join], hrel.congr ⟨rfl, rfl⟩ ⟨rfl, rfl⟩⟩,
          hjobs.congr ⟨rfl, rfl⟩ ⟨by rw [hframe], by rw [hframe]⟩,
          [{ kind := .sweepCancelled, range := some r, job := some j, detail := .cancelled .wipe }], by rw [hframe]; rfl,
          fun e he => ?_⟩
        rw [List.mem_singleton.1 he]
        exact ⟨rfl, rfl⟩

theorem foldl_wipeJob_dealt (set : List RangeIx) (r : RangeIx) (l : List JobNo) (x : State × Release)
    (hs : x.1.startUp = none) : JobsDealt set (reachesOf r l) x (l.foldl (wipeJob set r) x) := by
  induction l generalizing x with
  | nil => exact .refl (.none reachesOf_live reachesOf_blind (fun _ _ _ => rfl) rfl rfl)
  | cons j l ih =>
    have h := wipeJob_dealt set r x j hs
    have k := ih (wipeJob set r x j) (by rw [h.frame]; exact hs)
    have hp : (fun i b => reachesOf r [j] i b || reachesOf r l i b) = reachesOf r (j :: l) := by
      funext i b
      unfold reachesOf
      rw [← Bool.and_or_distrib_right]
      congr 1
      rw [Bool.eq_iff_iff]
      simp
    rw [← hp]
    exact h.trans k

theorem wipeJobs_dealt (set : List RangeIx) (r : RangeIx) (x : State × Release) (hs : x.1.startUp = none) :
    JobsDealt set (fun _ b => reaches [r] b) x (wipeJobs set r x) := by
  have hp : reachesOf r allJobs = fun _ b => reaches [r] b := funext fun j => funext fun b => by
    simp [reachesOf, mem_allJobs j]
  rw [← hp]
  exact foldl_wipeJob_dealt set r allJobs x hs

/-! ## The ranges of a commit (R107, R108) -/

/-- A range that a wipe has made DRAINING. -/
def drainingEntry (x : RangeEntry) : RangeEntry :=
  { x with lock := .locked, cond := .draining, slot := none, mig := x.mig.map (fun m => { m with nextSlot := none }) }

/-- The state in which a range has ceased to name its slots and is DRAINING and LOCKED. -/
def namesDrained (s : State) (r : RangeIx) : State :=
  modRange (releaseNames s r) r (fun y => { y with lock := .locked, cond := .draining })

theorem namesDrained_spec (s : State) (r : RangeIx) :
    namesDrained s r = { s with ranges := s.ranges.set r (drainingEntry s.ranges[r]), slots := (namesDrained s r).slots } ∧
    ∀ i : SlotIx, (namesDrained s r).slots[i] = released^[timesNamed s [r] i] s.slots[i] := by
  refine ⟨?_, (namesReleased_spec s r).2⟩
  unfold namesDrained releaseNames
  dsimp only
  rw [releaseOpt_eq, releaseOpt_eq s]
  simp [modRange, drainingEntry, Vector.set_set]

/-- The entry of the journal for a range of a commit. -/
def committedEvent (s : State) (r : RangeIx) : Event :=
  { kind := .wipeCommitted, range := some r, detail := .gen (((intentOf s r).map (·.gen)).getD 0) }

/-- A commit's intent write has completed for a list of the ranges of its set, `x` before and `y` after; `d` are those of
them that it made DRAINING. -/
structure Committed (set l d : List RangeIx) (x y : State × Release) : Prop where
  frame    : y.1 = { x.1 with ranges := y.1.ranges, slots := y.1.slots, arb := y.1.arb, sweep := y.1.sweep
                              intents := y.1.intents, journal := y.1.journal }
  nodup    : d.Nodup
  drained  : ∀ r, r ∈ d ↔ r ∈ l ∧ x.1.ranges[r].cond ≠ .draining
  inside   : ∀ r ∈ set, y.1.ranges[r] = if r ∈ d then drainingEntry x.1.ranges[r] else x.1.ranges[r]
  released : ∃ n, y.2 = x.2.join n ∧ Released set n x.1 y.1
  slots    : ∀ i : SlotIx, y.1.slots[i] = Machine.released^[timesNamed x.1 d i] x.1.slots[i]
  jobs     : JobsWiped set (fun _ b => reaches d b) x.1 y.1
  journal  : ∃ es : List Event, y.1.journal = es.foldl journalRecord x.1.journal ∧
    es.filter (fun e => e.kind = .wipeCommitted) = l.map (committedEvent x.1) ∧
    ∀ e ∈ es, e.kind = .wipeCommitted ∨ CancelledByWipe e

theorem Committed.nil (set : List RangeIx) (x : State × Release) : Committed set [] [] x x where
  frame := rfl
  nodup := List.nodup_nil
  drained r := by simp
  inside r _ := by simp
  released := Released.exists_none _ (fun _ _ => rfl) rfl
  slots i := rfl
  jobs := .none (fun _ _ h => reaches_live h) (fun _ _ => rfl) (fun _ b _ => reaches_nil b) rfl rfl
  journal := ⟨[], rfl, rfl, fun _ h => absurd h List.not_mem_nil⟩

/-- The intent entries keep their ranges and generations. -/
theorem Released.intentOf {set : List RangeIx} {n : Release} {a t : State} (h : Released set n a t) (r : RangeIx) :
    intentOf t r = (intentOf a r).map (dropPurge n.drop) := by
  unfold Machine.intentOf
  rw [h.intents, List.find?_map]
  refine congrArg (Option.map _) (congrArg (fun f => List.find? f a.intents) (funext fun e => ?_))
  simp [dropPurge_range]

theorem Released.committedEvent {set : List RangeIx} {n : Release} {a t : State} (h : Released set n a t) (r : RangeIx) :
    committedEvent t r = committedEvent a r := by
  unfold Machine.committedEvent
  rw [h.intentOf r, Option.map_map]
  refine congrArg (fun (g : Option Gen) => ({ kind := .wipeCommitted, range := some r, detail := .gen (g.getD 0) } : Event)) ?_
  exact congrArg (fun f => Option.map f (Machine.intentOf a r)) (funext fun e => dropPurge_gen _ e)

/-- WIPE_COMMITTED of a range with an intent entry. -/
theorem commitRange_eq (set : List RangeIx) (x : State × Release) (r : RangeIx) :
    let y := if x.1.ranges[r].cond = .draining then x else makeDraining set x r
    (intentOf y.1 r).isSome = true → commitRange set x r = (raise y.1 (committedEvent y.1 r), y.2) := by
  intro y hi
  obtain ⟨e, he⟩ := Option.isSome_iff_exists.1 hi
  unfold commitRange committedEvent
  show (match intentOf y.1 r with | some e => _ | none => y) = _
  rw [he]
  rfl

theorem makeDraining_eq (set : List RangeIx) (x : State × Release) (r : RangeIx) :
    makeDraining set x r = wipeJobs set r (namesDrained x.1 r, x.2) := rfl

/-- A range that drains already is told of alone; any other is made DRAINING first. -/
theorem commitRange_committed {set : List RangeIx} {x : State × Release} {r : RangeIx} (hr : r ∈ set)
    (hs : x.1.startUp = none) (hi : (intentOf x.1 r).isSome = true) :
    ∃ d, Committed set [r] d x (commitRange set x r) := by
  by_cases hd : x.1.ranges[r].cond = .draining
  · have hstep := commitRange_eq set x r
    dsimp only at hstep
    rw [if_pos hd] at hstep
    rw [hstep hi, raise_journal _ _ hs]
    refine ⟨[], rfl, List.nodup_nil, fun q => ?_, fun q _ => by simp, Released.exists_none _ (fun _ _ => rfl) rfl,
      fun i => rfl,
      .none (fun _ _ h => reaches_live h) (fun _ _ => rfl) (fun _ b _ => reaches_nil b) rfl rfl,
      [committedEvent x.1 r], rfl, rfl, fun e he => .inl ?_⟩
    · refine ⟨fun h => absurd h List.not_mem_nil, fun ⟨hq, hn⟩ => ?_⟩
      rw [List.mem_singleton.1 hq] at hn
      exact absurd hd hn
    · rw [List.mem_singleton.1 he]
      rfl
  · have hstep := commitRange_eq set x r
    dsimp only at hstep
    rw [if_neg hd] at hstep
    obtain ⟨hnames, hslots⟩ := namesDrained_spec x.1 r
    have hdealt := wipeJobs_dealt set r (namesDrained x.1 r, x.2) (by rw [hnames]; exact hs)
    rw [← makeDraining_eq] at hdealt
    obtain ⟨hframe, hinside, ⟨n, hn, hrel⟩, hjobs, es, hes, hall⟩ := hdealt
    have hrel : Released set n x.1 (makeDraining set x r).1 := by
      refine ⟨fun q hq => ?_, by rw [hrel.intents, hnames]⟩
      have hqr : ¬ r.val = q.val := fun e => hq (Fin.ext e ▸ hr)
      have hentry : (namesDrained x.1 r).ranges[q] = x.1.ranges[q] := by
        rw [hnames]
        simp [hqr]
      rw [hrel.outside q hq, hentry]
    have hsome : (intentOf (makeDraining set x r).1 r).isSome = true := by
      rw [hrel.intentOf r, Option.isSome_map]
      exact hi
    have hevent := hrel.committedEvent r
    rw [hstep hsome, hevent]
    generalize makeDraining set x r = y at hframe hinside hn hrel hjobs hes ⊢
    generalize namesDrained x.1 r = t at hnames hslots hframe hinside hn hjobs hes
    have hstart : y.1.startUp = none := by rw [hframe, hnames]; exact hs
    rw [raise_journal _ _ hstart]
    refine ⟨[r], by rw [hframe, hnames], List.nodup_singleton r, fun q => ?_, fun q hq => ?_,
      ⟨n, hn, hrel.congr ⟨rfl, rfl⟩ ⟨rfl, rfl⟩⟩, fun i => ?_,
      hjobs.congr ⟨by rw [hnames], by rw [hnames]⟩ ⟨rfl, rfl⟩, es ++ [committedEvent x.1 r], ?_, ?_, fun e he => ?_⟩
    · refine ⟨fun h => ⟨h, ?_⟩, fun h => h.1⟩
      rw [List.mem_singleton.1 h]
      exact hd
    · refine (hinside q hq).trans ?_
      by_cases hqr : q = r
      · subst hqr
        rw [hnames]
        simp
      · have hqr' : ¬ r.val = q.val := fun e => hqr (Fin.ext e).symm
        rw [hnames]
        simp [hqr, hqr']
    · rw [← hslots i, hframe]
    · rw [hes, List.foldl_append, hnames]
      rfl
    · rw [List.filter_append, List.filter_eq_nil_iff.2 fun e he => by rw [(hall e he).1]; decide]
      rfl
    · rcases List.mem_append.1 he with he | he
      · exact .inr (hall e he)
      · rw [List.mem_singleton.1 he]
        exact .inl rfl

/-- One range of a commit and the others: a range is made DRAINING once. -/
theorem Committed.cons {set l d e : List RangeIx} {r : RangeIx} {x y z : State × Release} (hr : r ∈ set)
    (hl : ∀ q ∈ l, q ∈ set) (h : Committed set [r] d x y) (k : Committed set l e y z) :
    Committed set (r :: l) (d ++ e) x z := by
  obtain ⟨m, hm, hrel⟩ := h.released
  obtain ⟨n, hn, krel⟩ := k.released
  obtain ⟨es, hes, htold, hall⟩ := h.journal
  obtain ⟨fs, hfs, ktold, kall⟩ := k.journal
  have hdrained : ∀ q ∈ d, y.1.ranges[q].cond = .draining := fun q hq => by
    have hqr : q = r := List.mem_singleton.1 ((h.drained q).1 hq).1
    rw [h.inside q (hqr ▸ hr), if_pos hq]
    rfl
  have hkept : ∀ q ∈ set, q ∉ d → y.1.ranges[q] = x.1.ranges[q] := fun q hq hqd => by rw [h.inside q hq, if_neg hqd]
  have hapart : ∀ q ∈ e, q ∉ d := fun q hq hqd => ((k.drained q).1 hq).2 (hdrained q hqd)
  have hset : ∀ q ∈ e, q ∈ set := fun q hq => hl q ((k.drained q).1 hq).1
  refine ⟨by rw [k.frame, h.frame], ?_, fun q => ?_, fun q hq => ?_,
    ⟨m.join n, by rw [hn, hm, Release.join_assoc], hrel.trans krel⟩, fun i => ?_, ?_, es ++ fs, ?_, ?_, fun f hf => ?_⟩
  · exact List.nodup_append.2 ⟨h.nodup, k.nodup, fun a ha b hb hab => hapart b hb (hab ▸ ha)⟩
  · rw [List.mem_append, List.mem_cons]
    constructor
    · rintro (hq | hq)
      · obtain ⟨hqr, hcond⟩ := (h.drained q).1 hq
        exact ⟨.inl (List.mem_singleton.1 hqr), hcond⟩
      · obtain ⟨hql, hcond⟩ := (k.drained q).1 hq
        rw [hkept q (hset q hq) (hapart q hq)] at hcond
        exact ⟨.inr hql, hcond⟩
    · rintro ⟨hq, hcond⟩
      by_cases hqd : q ∈ d
      · exact .inl hqd
      · rcases hq with hq | hq
        · exact .inl ((h.drained q).2 ⟨List.mem_singleton.2 hq, hcond⟩)
        · refine .inr ((k.drained q).2 ⟨hq, ?_⟩)
          rw [hkept q (hl q hq) hqd]
          exact hcond
  · rw [k.inside q hq]
    by_cases hqe : q ∈ e
    · rw [if_pos hqe, if_pos (List.mem_append_right _ hqe), hkept q hq (hapart q hqe)]
    · rw [if_neg hqe, h.inside q hq]
      by_cases hqd : q ∈ d <;> simp [hqd, hqe, -Fin.getElem_fin]
  · rw [k.slots i, h.slots i, timesNamed_append, Function.iterate_add_apply,
      timesNamed_congr fun q hq => hkept q (hset q hq) (hapart q hq)]
  · have hp : (fun (_ : JobNo) b => reaches (d ++ e) b) = fun _ b => reaches d b || reaches e b :=
      funext fun _ => funext fun b => reaches_append d e b
    rw [hp]
    exact h.jobs.trans k.jobs
  · rw [hfs, hes, List.foldl_append]
  · rw [List.filter_append, htold, ktold]
    exact congrArg (_ :: ·) (List.map_congr_left fun q _ => hrel.committedEvent q)
  · rcases List.mem_append.1 hf with hf | hf
    · exact hall f hf
    · exact kall f hf

theorem foldl_commitRange (set l : List RangeIx) (hl : ∀ r ∈ l, r ∈ set) (x : State × Release) (hs : x.1.startUp = none)
    (hi : ∀ r ∈ l, (intentOf x.1 r).isSome = true) : ∃ d, Committed set l d x (l.foldl (commitRange set) x) := by
  induction l generalizing x with
  | nil => exact ⟨[], .nil set x⟩
  | cons r l ih =>
    have hr : r ∈ set := hl r (List.mem_cons_self ..)
    have hl' : ∀ q ∈ l, q ∈ set := fun q hq => hl q (List.mem_cons_of_mem _ hq)
    obtain ⟨d, h⟩ := commitRange_committed hr hs (hi r (List.mem_cons_self ..))
    obtain ⟨n, -, hrel⟩ := h.released
    obtain ⟨e, k⟩ := ih hl' (commitRange set x r) (by rw [h.frame]; exact hs) fun q hq => by
      rw [hrel.intentOf q, Option.isSome_map]
      exact hi q (List.mem_cons_of_mem _ hq)
    exact ⟨d ++ e, h.cons hr hl' k⟩

end Sys2Proof.Machine
end

section
/-! WIPE.PREPARE and WIPE.COMMIT: their checks, the PURGE jobs that a commit queues, and the whole of its completion (R103 to
R107, R112). -/

namespace Sys2Proof.Machine

/-! ## PURGE jobs of up to 4 ranges (R112) -/

theorem groupsOf4_length (l : List RangeIx) : (groupsOf4 l).length = (l.length + 3) / 4 := by
  induction l using groupsOf4.induct with
  | case1 a b c d rest ih =>
    simp only [groupsOf4, List.length_cons, ih]
    omega
  | case2 => rfl
  | case3 l hlong hne =>
    match l with
    | [] => exact absurd rfl hne
    | [_] | [_, _] | [_, _, _] => simp [groupsOf4]
    | a :: b :: c :: d :: rest => exact absurd rfl (hlong a b c d rest)

/-- The k-th group is the k-th 4 ranges. -/
theorem groupsOf4_getElem? (l : List RangeIx) (k : Nat) (hk : k < (groupsOf4 l).length) :
    (groupsOf4 l)[k]? = some ((l.drop (4 * k)).take 4) := by
  induction l using groupsOf4.induct generalizing k with
  | case1 a b c d rest ih =>
    cases k with
    | zero => rfl
    | succ k =>
      have hk' : k < (groupsOf4 rest).length := by
        simp only [groupsOf4, List.length_cons] at hk
        omega
      have hdrop : 4 * (k + 1) = 4 * k + 1 + 1 + 1 + 1 := by omega
      rw [groupsOf4, List.getElem?_cons_succ, ih k hk', hdrop]
      rfl
  | case2 => exact absurd hk (Nat.not_lt_zero _)
  | case3 l hlong hne =>
    match l with
    | [] => exact absurd rfl hne
    | a :: b :: c :: d :: rest => exact absurd rfl (hlong a b c d rest)
    | [a] | [a, b] | [a, b, c] =>
      have hk0 : k = 0 := Nat.lt_one_iff.1 hk
      subst hk0
      rfl

/-- PURGE jobs of an option have been queued for some groups of ranges, one after another while an entry was found, `a` before
and `t` after. -/
structure PurgesPlaced (o : PurgeOpt) (groups : List (List RangeIx)) (a t : State) (jobs : List JobNo) : Prop where
  frame  : t = { a with sweep := { a.sweep with jobs := t.sweep.jobs, nextStamp := a.sweep.nextStamp + jobs.length } }
  count  : jobs.length = groups.length ∨ freeEntry t = none
  found  : ∀ j ∈ jobs, takesNew a.sweep.jobs[j] = true
  others : ∀ j : JobNo, j ∉ jobs → t.sweep.jobs[j] = a.sweep.jobs[j]
  placed : ∀ k (h : k < jobs.length), ∃ g b, groups[k]? = some g ∧ jobAt t jobs[k] = some b ∧ NewPurge a o g b

theorem PurgesPlaced.none (o : PurgeOpt) {groups : List (List RangeIx)} {a : State}
    (h : groups = [] ∨ freeEntry a = none) : PurgesPlaced o groups a a [] where
  frame := rfl
  count := h.imp (fun e => by rw [e]; rfl) id
  found j hj := absurd hj List.not_mem_nil
  others j _ := rfl
  placed k hk := absurd hk (Nat.not_lt_zero k)

theorem NewPurge.congr {s t : State} {o : PurgeOpt} {g : List RangeIx} {b : Job} (h : NewPurge s o g b)
    (hr : rangeStart t = rangeStart s) : NewPurge t o g b := by
  obtain ⟨hkind, hoption, hranges, hbegins, hchunks, hqueued⟩ := h
  rw [← hr] at hbegins
  exact ⟨hkind, hoption, hranges, hbegins, hchunks, hqueued⟩

theorem rangeStart_congr {s t : State} (h : ∀ r : RangeIx, t.ranges[r].start = s.ranges[r].start) :
    rangeStart t = rangeStart s := funext fun r => by
  unfold rangeStart
  rw [h r]

/-- The first LBA of a group's PURGE job. -/
def groupStart (s : State) (g : List RangeIx) : Nat := (g.head?.map (rangeStart s)).getD 0

/-- The PURGE job that is queued for a group. -/
def queuedPurge (s : State) (o : PurgeOpt) (g : List RangeIx) : Job :=
  { purgeJob o g (groupStart s g) false with stamp := s.sweep.nextStamp }

theorem queuedPurge_new (s : State) (o : PurgeOpt) (g : List RangeIx) : NewPurge s o g (queuedPurge s o g) :=
  ⟨rfl, ⟨rfl, rfl, rfl⟩, rfl, ⟨rfl, rfl⟩, rfl, rfl, rfl, rfl, rfl⟩

/-- The first group takes an entry, and the others theirs. -/
theorem PurgesPlaced.cons {o : PurgeOpt} {g : List RangeIx} {gs : List (List RangeIx)} {a t : State} {j : JobNo}
    {jobs : List JobNo} (hj : takesNew a.sweep.jobs[j] = true)
    (k : PurgesPlaced o gs (queueJob a j (purgeJob o g (groupStart a g) false)) t jobs) :
    PurgesPlaced o (g :: gs) a t (j :: jobs) := by
  have hentry : ∀ i : JobNo, (queueJob a j (purgeJob o g (groupStart a g) false)).sweep.jobs[i] =
      if i = j then .job (queuedPurge a o g) else a.sweep.jobs[i] := fun i => setJob_jobs a j i _
  have hnot : j ∉ jobs := fun hmem => by
    have := k.found j hmem
    rw [hentry j, if_pos rfl] at this
    cases this
  refine ⟨?_, ?_, fun i hi => ?_, fun i hi => ?_, fun n hn => ?_⟩
  · rw [k.frame]
    simp [queueJob, setJob, Nat.add_assoc, Nat.add_comm]
  · exact k.count.imp (fun e => by rw [List.length_cons, List.length_cons, e]) id
  · rcases List.mem_cons.1 hi with rfl | hi
    · exact hj
    · have hij : i ≠ j := fun e => hnot (e ▸ hi)
      have := k.found i hi
      rw [hentry i, if_neg hij] at this
      exact this
  · obtain ⟨hij, hi⟩ := not_or.1 fun e => hi (List.mem_cons.2 e)
    rw [k.others i hi, hentry i, if_neg hij]
  · cases n with
    | zero =>
      have hjob : t.sweep.jobs[j] = .job (queuedPurge a o g) := by rw [k.others j hnot, hentry j, if_pos rfl]
      refine ⟨g, queuedPurge a o g, rfl, ?_, queuedPurge_new a o g⟩
      show jobAt t j = _
      unfold jobAt
      rw [hjob]
    | succ n =>
      obtain ⟨h, b, hg, hb, hnew⟩ := k.placed n (Nat.lt_of_succ_lt_succ hn)
      exact ⟨h, b, hg, hb, hnew.congr rfl⟩

theorem freeEntry_takesNew {s : State} {j : JobNo} (h : freeEntry s = some j) : takesNew s.sweep.jobs[j] = true :=
  List.find?_some (p := fun j : JobNo => takesNew s.sweep.jobs[j]) h

theorem placeGroups_placed (o : PurgeOpt) (s : State) (groups : List (List RangeIx)) :
    PurgesPlaced o groups s (placeGroups o s groups).1 (placeGroups o s groups).2.2 := by
  induction groups generalizing s with
  | nil => exact .none o (.inl rfl)
  | cons g gs ih =>
    unfold placeGroups
    cases hf : freeEntry s with
    | none => exact .none o (.inr hf)
    | some j => exact .cons (freeEntry_takesNew hf) (ih _)

/-! ## WIPE.PREPARE (R103, R104) -/

theorem Serves.exec_wipePrepare {s u : State} {b : RequestBlock} {c : Option CredIx} {d : Bool} {level pattern : Nat}
    {sel : Option (List Nat)} (h : Serves s b (.wipePrepare level pattern sel) true c u d) :
    exec .wipePrepare s = .next (servePrepare u c d level pattern sel) := by
  simp only [exec, execWipePrepare, h.starts]
  rw [h.withProof]

/-- OWNER, RECOVERY or a credential with a READ_WRITE grant to every named range (R103). -/
def MayPrepare (s : State) (c : Option CredIx) (l : List Nat) : Prop :=
  ∃ e : CredIx, c = some e ∧
    (e = 0 ∨ e = 1 ∨ ∀ n ∈ l, ∃ r : RangeIx, n = r.val ∧ grantOf s.creds[e] r = some .readWrite)

theorem mayPrepare_iff (s : State) (c : Option CredIx) (l : List Nat) : mayPrepare s c l = true ↔ MayPrepare s c l := by
  unfold mayPrepare MayPrepare
  cases c with
  | none => simp
  | some e =>
    simp only [Bool.or_eq_true, decide_eq_true_eq, List.all_eq_true, or_assoc, Option.some.injEq, exists_eq_left']
    refine or_congr Iff.rfl (or_congr Iff.rfl (forall₂_congr fun n _ => ?_))
    by_cases hn : n < 16
    · have hi : toIndex 16 n = some ⟨n, hn⟩ := dif_pos hn
      rw [hi]
      refine ⟨fun h => ⟨⟨n, hn⟩, rfl, of_decide_eq_true h⟩, ?_⟩
      rintro ⟨r, rfl, hr⟩
      exact decide_eq_true hr
    · rw [toIndex_of_le (Nat.not_lt.1 hn)]
      refine ⟨fun h => absurd h Bool.false_ne_true, ?_⟩
      rintro ⟨r, rfl, -⟩
      exact absurd r.isLt hn

/-- The purge option of a lawful level and pattern. -/
def purgeOption (level pattern : Nat) : Option PurgeOpt :=
  if level = 0 then none
  else some ⟨level, .yielding, if pattern = 0 then .zeros else if pattern = 1 then .ones else .random⟩

theorem toPurgeOption_lawful {level pattern : Nat} (hl : level ≤ 3) (hp : level = 0 ∨ pattern ≤ 2) :
    toPurgeOption level pattern = some (purgeOption level pattern) := by
  unfold toPurgeOption purgeOption
  by_cases h0 : level = 0
  · rw [if_pos h0, if_pos h0]
  · have hpattern : pattern = 0 ∨ pattern = 1 ∨ pattern = 2 := by
      have := hp.resolve_left h0
      omega
    rw [if_neg h0, if_neg h0, if_pos hl]
    rcases hpattern with rfl | rfl | rfl <;> rfl

theorem toPurgeOption_unlawful {level pattern : Nat} (h : 3 < level ∨ (level ≠ 0 ∧ 2 < pattern)) :
    toPurgeOption level pattern = none := by
  have h0 : level ≠ 0 := by omega
  unfold toPurgeOption
  rw [if_neg h0]
  by_cases hl : level ≤ 3
  · obtain ⟨n, rfl⟩ : ∃ n, pattern = n + 3 := ⟨pattern - 3, by omega⟩
    rw [if_pos hl]
    rfl
  · rw [if_neg hl]

theorem nextTicket_fresh (s : State) : nextTicket s ≠ 0 ∧ nextTicket s ≠ s.control.lastTicket := by
  unfold nextTicket
  dsimp only
  split
  · next h => simpa using h
  · split
    · next h =>
      rw [h]
      decide
    · next h => exact ⟨by decide, fun e => h e.symm⟩

/-- The checks of WIPE.PREPARE in their order. -/
theorem servePrepare_refused {s : State} (d : Bool) {c : Option CredIx} {level pattern : Nat} {sel : Option (List Nat)} :
    (¬ MayPrepare s c (preparedNumbers s sel) → servePrepare s c d level pattern sel = refuse s d .notPermitted) ∧
    (MayPrepare s c (preparedNumbers s sel) → s.control.frozen = true →
      servePrepare s c d level pattern sel = refuse s d .frozen) ∧
    (MayPrepare s c (preparedNumbers s sel) → s.control.frozen = false →
      toRangeSet s (preparedNumbers s sel) = none ∨ toPurgeOption level pattern = none →
      servePrepare s c d level pattern sel = refuse s d .badRequest) := by
  unfold servePrepare
  dsimp only
  refine ⟨fun hm => ?_, fun hm hf => ?_, fun hm hf hbad => ?_⟩
  · rw [if_pos (by simp [mt (mayPrepare_iff s c _).1 hm])]
  · rw [if_neg (by simp [(mayPrepare_iff s c _).2 hm]), if_pos hf]
  · rw [if_neg (by simp [(mayPrepare_iff s c _).2 hm]), if_neg (by simp [hf])]
    rcases hbad with h | h
    · rw [h]
    · rw [h]
      cases toRangeSet s (preparedNumbers s sel) <;> rfl

theorem servePrepare_lawful {s : State} (d : Bool) {e : CredIx} {level pattern : Nat} {sel : Option (List Nat)}
    {set : List RangeIx} {o : Option PurgeOpt} (hm : MayPrepare s (some e) (preparedNumbers s sel))
    (hf : s.control.frozen = false) (hset : toRangeSet s (preparedNumbers s sel) = some set)
    (ho : toPurgeOption level pattern = some o) : servePrepare s (some e) d level pattern sel =
      if ∃ r ∈ set, s.ranges[r].cond = .draining then refuse s d .rangeBusy
      else carried (recordPrepared s e (allRanges.filter set.contains) o) d
        (.prepared (nextTicket s) (allRanges.filter set.contains)) := by
  unfold servePrepare
  dsimp only
  rw [if_neg (by simp [(mayPrepare_iff s _ _).2 hm]), if_neg (by simp [hf]), hset, ho]
  dsimp only
  by_cases hd : ∃ r ∈ set, s.ranges[r].cond = .draining
  · rw [if_pos hd, if_pos (by simpa using hd)]
  · rw [if_neg hd, if_neg (by simpa using hd)]
    rfl

/-! ## WIPE.COMMIT's checks (R105, R106) -/

theorem Serves.exec_wipeCommit {s u : State} {b : RequestBlock} {c : Option CredIx} {d : Bool} {n : Nat}
    (h : Serves s b (.wipeCommit n) true c u d) :
    exec .wipeCommit s = .next (serveCommit s.control.prepared u c d n) := by
  simp only [exec, execWipeCommit, h.starts]
  rw [h.withProof]

theorem serveCommit_noTicket {s : State} {prepared : Option Prepared} {c : Option CredIx} {d : Bool} {n : Nat}
    (h : n = 0 ∨ ∀ p, prepared = some p → p.ticket.toNat ≠ n ∨ c ≠ some p.cred) :
    serveCommit prepared s c d n = refuse s d .noTicket := by
  unfold serveCommit
  cases prepared with
  | none => rfl
  | some p =>
    refine if_pos ?_
    simp only [Bool.or_eq_true, decide_eq_true_eq, or_assoc]
    exact h.imp id fun k => k p rfl

theorem serveCommit_ticket {s : State} {p : Prepared} {c : Option CredIx} {d : Bool} {n : Nat} (hn : n ≠ 0)
    (ht : p.ticket.toNat = n) (hc : c = some p.cred) :
    serveCommit (some p) s c d n = proceed s d [] (.commitCheck p.set p.purge) :=
  if_neg (by simp [hn, ht, hc])

theorem commitRoom_iff (s : State) (set : List RangeIx) (o : Option PurgeOpt) :
    let free := allJobs.countP (fun j => s.sweep.jobs[j] = .free || (jobAt s j).any finished)
    let cancelled := allJobs.countP (fun j => !hasChunk s j && (jobAt s j).any (fun x =>
      !finished x && (x.kind = .rekey || x.level ≠ 0) && x.ranges.any set.contains))
    commitRoom s set o = true ↔ (o = none ∨ (set.length + 3) / 4 ≤ free + cancelled) := by
  intro free cancelled
  have hfree : jobRoom s = free := by
    unfold jobRoom
    rw [← List.countP_eq_length_filter]
    refine List.countP_congr fun j _ => ?_
    unfold jobAt takesNew
    cases s.sweep.jobs[j] <;> simp
  have hcancelled : (allJobs.filter (cancelledAtOnce s set)).length = cancelled := by
    rw [← List.countP_eq_length_filter]
    refine List.countP_congr fun j _ => ?_
    unfold cancelledAtOnce
    cases jobAt s j with
    | none => simp
    | some b =>
      simp only [Option.any_some, Bool.and_eq_true]
      tauto
  unfold commitRoom
  rw [hfree, hcancelled]
  simp

/-- The condition and room checks of WIPE.COMMIT, with the service that stands behind them (R105, R106). -/
theorem finishService_commitCheck {t : State} {v : Service} {set : List RangeIx} {o : Option PurgeOpt}
    (hv : t.control.service = some v) (ha : v.after = .commitCheck set o) : finishService t =
      if ∃ r ∈ set, t.ranges[r].cond = .draining then respond t ⟨.rangeBusy, .none⟩
      else if commitRoom t set o = false then respond t ⟨.tableFull, .none⟩
      else stored { t with intents := t.intents ++ commitEntries t set o } false [.intents [] [] (commitEntries t set o)]
        (.commit set o) := by
  unfold finishService
  rw [hv]
  dsimp only
  rw [ha]
  dsimp only
  by_cases hd : ∃ r ∈ set, t.ranges[r].cond = .draining
  · rw [if_pos hd, if_pos (by simpa using hd)]
    rfl
  · rw [if_neg hd, if_neg (by simpa using hd)]
    cases hroom : commitRoom t set o with
    | false => rfl
    | true =>
      simp only [stored, hv]
      rfl

theorem stored_setAfter (s : State) (x : List Intent) (a a' : After) (d : Bool) (op : StoreOp) (ops : List StoreOp) :
    stored { setAfter s a with intents := x } d (op :: ops) a' = stored { s with intents := x } d (op :: ops) a' := by
  have hservice : (s.control.service.map (fun v => { v with after := a })).map (fun v => { v with after := a' }) =
      s.control.service.map (fun v => { v with after := a' }) := by
    rw [Option.map_map]
    rfl
  unfold stored
  split
  · next h =>
    cases d <;> cases ops <;> cases h
  · next x rest h =>
    simp only [setAfter, hservice]

/-- WIPE.COMMIT with no device record write due makes its checks at once (log entry 12). -/
theorem commitCheck_now {s : State} {v : Service} (hv : s.control.service = some v) (set : List RangeIx)
    (o : Option PurgeOpt) : proceed s false [] (.commitCheck set o) =
      if ∃ r ∈ set, s.ranges[r].cond = .draining then respond s ⟨.rangeBusy, .none⟩
      else if commitRoom s set o = false then respond s ⟨.tableFull, .none⟩
      else stored { s with intents := s.intents ++ commitEntries s set o } false [.intents [] [] (commitEntries s set o)]
        (.commit set o) := by
  have hv' : (setAfter s (.commitCheck set o)).control.service = some { v with after := .commitCheck set o } := by
    simp [setAfter, hv]
  rw [proceed_now, finishService_commitCheck hv' rfl]
  simp only [respond_setAfter]
  refine congrArg (ite _ _) (congrArg (ite _ _) ?_)
  exact stored_setAfter s _ _ _ false _ []

end Sys2Proof.Machine
end

section
/-! The whole completion of WIPE.COMMIT's intent write, and the wipe requests together (R103 to R107). -/

namespace Sys2Proof.Machine

/-! ## The completion of the intent write (R107) -/

/-- The intent list with the entries of a commit's set pending no longer. -/
def commitMarked (t : State) (set : List RangeIx) : State :=
  { t with intents := t.intents.map (fun e => if set.contains e.range then { e with stored := true } else e) }

/-- The ranges of a commit's set have been dealt with one after another. -/
def commitDrained (t : State) (set : List RangeIx) : State × Release :=
  set.foldl (commitRange set) (commitMarked t set, ⟨[], []⟩)

/-- The PURGE jobs of a commit have been queued: the state, and the job numbers. -/
def commitQueued (t : State) (set : List RangeIx) (o : Option PurgeOpt) : State × List JobNo :=
  match o with
  | none => ((commitDrained t set).1, [])
  | some p =>
    let g := placeGroups p (commitDrained t set).1 (groupsOf4 set)
    (g.1, g.2.2)

theorem commitMarked_intentOf (t : State) (set : List RangeIx) (r : RangeIx) : intentOf (commitMarked t set) r =
    (intentOf t r).map (fun e => if set.contains e.range then { e with stored := true } else e) := by
  unfold intentOf commitMarked
  rw [List.find?_map]
  refine congrArg (Option.map _) (congrArg (fun f => List.find? f t.intents) (funext fun e => ?_))
  dsimp only [Function.comp_apply]
  split <;> rfl

theorem commitMarked_gen (t : State) (set : List RangeIx) (r : RangeIx) :
    (intentOf (commitMarked t set) r).map (·.gen) = (intentOf t r).map (·.gen) := by
  rw [commitMarked_intentOf, Option.map_map]
  refine congrArg (fun f => Option.map f (intentOf t r)) (funext fun e => ?_)
  dsimp only [Function.comp_apply]
  split <;> rfl

theorem commitMarked_committedEvent (t : State) (set : List RangeIx) (r : RangeIx) :
    committedEvent (commitMarked t set) r = committedEvent t r := by
  unfold committedEvent
  rw [commitMarked_gen]

theorem commitStored_eq (t : State) (set : List RangeIx) (o : Option PurgeOpt) : commitStored t set o =
    ((commitQueued t set o).1, (commitDrained t set).2,
      .committed (set.map (fun r => ((intentOf t r).map (·.gen)).getD 0)) (commitQueued t set o).2) := by
  have hgens : set.map (fun r => ((intentOf (commitMarked t set) r).map (·.gen)).getD 0) =
      set.map (fun r => ((intentOf t r).map (·.gen)).getD 0) :=
    List.map_congr_left fun r _ => by rw [commitMarked_gen]
  rw [← hgens]
  cases o <;> rfl

theorem finishService_commit {t : State} {v : Service} {set : List RangeIx} {o : Option PurgeOpt}
    (hv : t.control.service = some v) (ha : v.after = .commit set o) : finishService t =
      answerWith (engine (commitQueued t set o).1) (commitDrained t set).2.ops
        ⟨.done, .committed (set.map (fun r => ((intentOf t r).map (·.gen)).getD 0)) (commitQueued t set o).2⟩ := by
  have hcommit : finishService t = respondAfter (engine (commitStored t set o).1) (commitStored t set o).2.1.ops
      ⟨.done, (commitStored t set o).2.2⟩ := by
    unfold finishService
    rw [hv]
    dsimp only
    rw [ha]
  rw [hcommit, commitStored_eq, respondAfter_eq]

theorem answerWith_startUp (s : State) (ops : List StoreOp) (r : Response) : (answerWith s ops r).startUp = s.startUp := by
  unfold answerWith
  cases ops with
  | nil => exact respond_startUp s r
  | cons x l => rfl

/-- The ranges of the set, in the state in which the commit found them. -/
theorem commitDrained_committed {t : State} {set : List RangeIx} (hs : t.startUp = none)
    (hi : ∀ r ∈ set, (intentOf t r).isSome = true) :
    ∃ d, Committed set set d (commitMarked t set, ⟨[], []⟩) (commitDrained t set) :=
  foldl_commitRange set set (fun _ h => h) _ hs fun r hr => by
    rw [commitMarked_intentOf, Option.isSome_map]
    exact hi r hr

/-- The PURGE jobs of a commit, with or without a purge option. -/
theorem commitQueued_placed (t : State) (set : List RangeIx) (o : Option PurgeOpt) :
    ∃ p groups, PurgesPlaced p groups (commitDrained t set).1 (commitQueued t set o).1 (commitQueued t set o).2 := by
  cases o with
  | none => exact ⟨⟨0, .yielding, .zeros⟩, [], .none _ (.inl rfl)⟩
  | some p => exact ⟨p, groupsOf4 set, placeGroups_placed p _ _⟩

theorem Release.ops_eq (x : Release) :
    x.ops = x.steady.map .rangeSteady ++ if x.drop = [] then [] else [.intents [] x.drop []] := by
  unfold Release.ops
  cases x.drop <;> rfl

theorem mem_ops (x : Release) {op : StoreOp} (h : op ∈ x.ops) :
    (∃ r, op = .rangeSteady r) ∨ ∃ drop, op = .intents [] drop [] := by
  rw [Release.ops_eq] at h
  rcases List.mem_append.1 h with h | h
  · obtain ⟨r, -, hr⟩ := List.mem_map.1 h
    exact .inl ⟨r, hr.symm⟩
  · split at h
    · exact absurd h List.not_mem_nil
    · exact .inr ⟨x.drop, List.mem_singleton.1 h⟩

/-- What a commit leaves when its jobs are dealt with and its PURGE jobs are queued, `t` before and `w` after: `d` are the
ranges that it made DRAINING, `n` what the cancelled jobs leave to be stored, and `jobs` the new jobs. -/
structure CommitDone (set : List RangeIx) (o : Option PurgeOpt) (d : List RangeIx) (n : Release) (jobs : List JobNo)
    (t w : State) : Prop where
  frame    : w = { t with ranges := w.ranges, slots := w.slots, arb := w.arb, sweep := w.sweep, intents := w.intents
                          journal := w.journal }
  nodup    : d.Nodup
  drained  : ∀ r, r ∈ d ↔ r ∈ set ∧ t.ranges[r].cond ≠ .draining
  inside   : ∀ r ∈ set, w.ranges[r] = if r ∈ d then drainingEntry t.ranges[r] else t.ranges[r]
  outside  : ∀ r, r ∉ set → w.ranges[r] =
    if t.ranges[r].cond = .purging ∧ r ∈ n.steady then { t.ranges[r] with cond := .steady } else t.ranges[r]
  intents  : w.intents = t.intents.map (fun e => { e with
    stored := e.stored || set.contains e.range, purge := if n.drop.contains e.range then none else e.purge })
  slots    : ∀ i : SlotIx, w.slots[i] = released^[timesNamed t d i] t.slots[i]
  sweep    : w.sweep = { t.sweep with
    jobs := w.sweep.jobs, stack := t.sweep.stack.filter (fun j => !cutBy t (fun _ b => reaches d b) j)
    nextStamp := t.sweep.nextStamp + jobs.length }
  kept     : ∀ j : JobNo, j ∉ jobs → jobAt w j =
    (jobAt t j).map (fun b => wipedJob set (cutBy t (fun _ b => reaches d b) j) (reaches d b) b)
  arb      : w.arb = if allJobs.any (fun j => cutBy t (fun _ b => reaches d b) j && holdsLane t j) then undedicated t.arb
    else t.arb
  journal  : ∃ es : List Event, w.journal = es.foldl journalRecord t.journal ∧
    es.filter (fun e => e.kind = .wipeCommitted) = set.map (committedEvent t) ∧
    ∀ e ∈ es, e.kind = .wipeCommitted ∨ CancelledByWipe e
  noJobs   : o = none → jobs = []
  newJobs  : ∀ p, o = some p → (jobs.length = (set.length + 3) / 4 ∨ freeEntry w = none) ∧
    ∀ k (h : k < jobs.length), ∃ y, jobAt w jobs[k] = some y ∧ NewPurge t p ((set.drop (4 * k)).take 4) y

theorem commitDone {t : State} {set : List RangeIx} (o : Option PurgeOpt) (hs : t.startUp = none)
    (hi : ∀ r ∈ set, (intentOf t r).isSome = true) :
    ∃ d, CommitDone set o d (commitDrained t set).2 (commitQueued t set o).2 t (commitQueued t set o).1 := by
  obtain ⟨d, hframe, hnodup, hdrained, hinside, ⟨n, hn, hrel⟩, hslots, hjobs, es, hes, htold, hall⟩ :=
    commitDrained_committed hs hi
  obtain ⟨p, groups, hplaced⟩ := commitQueued_placed t set o
  have hn : (commitDrained t set).2 = n := hn
  have hinside : ∀ r ∈ set, (commitDrained t set).1.ranges[r] =
      if r ∈ d then drainingEntry t.ranges[r] else t.ranges[r] :=
    hinside
  have houtside := hrel.outside
  have hintents : (commitDrained t set).1.intents = _ := hrel.intents
  have hstart : rangeStart (commitDrained t set).1 = rangeStart t := rangeStart_congr fun r => by
    by_cases hr : r ∈ set
    · rw [hinside r hr]
      split <;> rfl
    · rw [houtside r hr]
      split <;> rfl
  refine ⟨d, ?_, hnodup, hdrained, fun r hr => ?_, fun r hr => ?_, ?_, fun i => ?_, ?_, fun j hj => ?_, ?_,
    ⟨es, ?_, ?_, hall⟩, fun ho => ?_, fun q ho => ?_⟩
  · rw [hplaced.frame, hframe]
    rfl
  · rw [hplaced.frame]
    exact hinside r hr
  · rw [hplaced.frame, hn]
    exact houtside r hr
  · rw [hplaced.frame, hn]
    refine hintents.trans ?_
    show List.map _ (List.map _ _) = _
    rw [List.map_map]
    refine congrArg (fun f => List.map f t.intents) (funext fun e => ?_)
    dsimp only [Function.comp_apply]
    unfold dropPurge
    by_cases hset : set.contains e.range = true <;> by_cases hdrop : n.drop.contains e.range = true <;>
      simp [hset, hdrop, -List.contains_eq_mem]
  · rw [hplaced.frame]
    exact hslots i
  · rw [hplaced.frame, hjobs.sweep]
    rfl
  · have hkept : jobAt (commitQueued t set o).1 j = jobAt (commitDrained t set).1 j := by
      unfold jobAt
      rw [hplaced.others j hj]
    rw [hkept]
    exact hjobs.jobs j
  · rw [hplaced.frame]
    exact hjobs.arb
  · rw [hplaced.frame]
    exact hes
  · rw [htold]
    exact List.map_congr_left fun r _ => commitMarked_committedEvent t set r
  · rw [ho]
    rfl
  · subst ho
    have hqueued := placeGroups_placed q (commitDrained t set).1 (groupsOf4 set)
    refine ⟨hqueued.count.imp (fun e => e.trans (groupsOf4_length set)) id, fun k hk => ?_⟩
    obtain ⟨g, b, hg, hb, hnew⟩ := hqueued.placed k hk
    have hk' : k < (groupsOf4 set).length := (List.getElem?_eq_some_iff.1 hg).1
    rw [groupsOf4_getElem? set k hk'] at hg
    rw [← Option.some.inj hg] at hnew
    exact ⟨b, hb, hnew.congr hstart.symm⟩

/-! ## What a completed commit leaves, range by range, slot by slot and job by job -/

section
variable {set : List RangeIx} {o : Option PurgeOpt} {d : List RangeIx} {n : Release} {jobs : List JobNo} {t w : State}

/-- The ranges that are made DRAINING are the ranges of the set that were not. -/
theorem CommitDone.reaches_eq (h : CommitDone set o d n jobs t w) : reaches d = fun b =>
    !finished b && (b.kind = .rekey || b.level ≠ 0) &&
      b.ranges.any (fun r => set.contains r && t.ranges[r].cond ≠ .draining) := funext fun b => by
  have hmem : d.contains = fun r => set.contains r && decide (t.ranges[r].cond ≠ .draining) := funext fun r => by
    rw [Bool.eq_iff_iff, List.contains_iff_mem, h.drained r]
    simp
  unfold reaches
  rw [hmem]

theorem CommitDone.ranges_of_set (h : CommitDone set o d n jobs t w) {r : RangeIx} (hr : r ∈ set) :
    w.ranges[r] = if t.ranges[r].cond = .draining then t.ranges[r] else drainingEntry t.ranges[r] := by
  rw [h.inside r hr]
  by_cases hd : t.ranges[r].cond = .draining
  · rw [if_pos hd, if_neg fun e => ((h.drained r).1 e).2 hd]
  · rw [if_neg hd, if_pos ((h.drained r).2 ⟨hr, hd⟩)]

theorem CommitDone.draining (h : CommitDone set o d n jobs t w) {r : RangeIx} (hr : r ∈ set) :
    w.ranges[r].cond = .draining := by
  rw [h.ranges_of_set hr]
  split
  · assumption
  · rfl

/-- A PURGING range that a cancelled job has left STEADY is stored so. -/
theorem CommitDone.stores_steady (h : CommitDone set o d n jobs t w) {r : RangeIx} (hp : t.ranges[r].cond = .purging)
    (hw : w.ranges[r].cond = .steady) : StoreOp.rangeSteady r ∈ n.ops := by
  have hr : r ∉ set := fun hr => by
    rw [h.draining hr] at hw
    cases hw
  have hsteady : r ∈ n.steady := by
    by_contra hn
    rw [h.outside r hr, if_neg fun e => hn e.2, hp] at hw
    cases hw
  rw [Release.ops_eq]
  exact List.mem_append_left _ (List.mem_map_of_mem hsteady)

/-- The order of the ranges does not tell how often they name a slot. -/
theorem timesNamed_perm {s : State} {l m : List RangeIx} (h : l.Perm m) (i : SlotIx) :
    timesNamed s l i = timesNamed s m i := by
  unfold timesNamed
  rw [h.countP_eq, h.countP_eq]

/-- A slot that is named just once, and by a range that is made DRAINING, is released once. -/
theorem CommitDone.slot_lost (h : CommitDone set o d n jobs t w) {r : RangeIx} {i : SlotIx} (hr : r ∈ set)
    (hd : t.ranges[r].cond ≠ .draining) (hnames : t.ranges[r].slot = some i ∨ nextSlotOf t.ranges[r] = some i)
    (hone : namings t i = 1) : w.slots[i] = released t.slots[i] := by
  have hperm : d.Perm (allRanges.filter d.contains) :=
    (List.perm_ext_iff_of_nodup h.nodup ((by decide : allRanges.Nodup).filter _)).2 fun q => by simp [mem_allRanges q]
  have hmem : r ∈ allRanges.filter d.contains := hperm.mem_iff.1 ((h.drained r).2 ⟨hr, hd⟩)
  rw [h.slots i, timesNamed_perm hperm, timesNamed_of_namings List.filter_sublist hmem hnames hone]
  rfl

theorem CommitDone.slot_kept (h : CommitDone set o d n jobs t w) {i : SlotIx}
    (hnone : ∀ r, ¬ (r ∈ set ∧ t.ranges[r].cond ≠ .draining ∧
      (t.ranges[r].slot = some i ∨ nextSlotOf t.ranges[r] = some i))) : w.slots[i] = t.slots[i] := by
  rw [h.slots i, timesNamed_eq_zero fun r hr => ?_]
  · rfl
  · obtain ⟨hset, hcond⟩ := (h.drained r).1 hr
    exact not_or.1 fun e => hnone r ⟨hset, hcond, e⟩

theorem CommitDone.arb_holding (h : CommitDone set o d n jobs t w) {j : JobNo} {b : Job}
    (hcut : cutBy t (fun _ b => reaches d b) j = true) (hb : jobAt t j = some b) (hrun : b.state = .running)
    (hhold : b.policy = .holding) : w.arb = undedicated t.arb :=
  h.arb.trans (if_pos (List.any_eq_true.2
    ⟨j, mem_allJobs j, Bool.and_eq_true_iff.2 ⟨hcut, holdsLane_iff.2 ⟨b, hb, hrun, hhold⟩⟩⟩))

theorem CommitDone.arb_yielding (h : CommitDone set o d n jobs t w)
    (hyield : ∀ j b, cutBy t (fun _ b => reaches d b) j = true → jobAt t j = some b → b.state = .running →
      b.policy = .yielding) : w.arb = t.arb := by
  refine h.arb.trans (if_neg fun e => ?_)
  obtain ⟨j, -, hj⟩ := List.any_eq_true.1 e
  obtain ⟨hcut, hlane⟩ := Bool.and_eq_true_iff.1 hj
  obtain ⟨b, hb, hrun, hhold⟩ := holdsLane_iff.1 hlane
  rw [hyield j b hcut hb hrun] at hhold
  cases hhold

end

/-! ## The wipe requests -/

/-- A range of a commit is told of as it stands when it drains. -/
theorem commitRange_told (set : List RangeIx) (x y : State × Release) (r : RangeIx)
    (hy : (if x.1.ranges[r].cond = .draining then x else makeDraining set x r) = y) : commitRange set x r =
      (match intentOf y.1 r with
        | some e => raise y.1 { kind := .wipeCommitted, range := some r, detail := .gen e.gen }
        | none => y.1, y.2) := by
  unfold commitRange
  rw [hy]
  dsimp only
  cases intentOf y.1 r <;> rfl

theorem LastWrite.commitCheck {s t : State} {v : Service} {set : List RangeIx} {o : Option PurgeOpt}
    (h : LastWrite s v (.commitCheck set o) t) : exec .storeWriteCompletion s = .next (
      if ∃ r ∈ set, t.ranges[r].cond = .draining then respond t ⟨.rangeBusy, .none⟩
      else if commitRoom t set o = false then respond t ⟨.tableFull, .none⟩
      else stored { t with intents := t.intents ++ commitEntries t set o } false [.intents [] [] (commitEntries t set o)]
        (.commit set o)) := by
  refine h.finish (finishService_commitCheck h.inService.1 h.inService.2) ?_
  split
  · exact (respond_startUp ..).trans h.startUp
  · split
    · exact (respond_startUp ..).trans h.startUp
    · exact (stored_startUp ..).trans h.startUp

theorem LastWrite.commit {s t : State} {v : Service} {set : List RangeIx} {o : Option PurgeOpt}
    (h : LastWrite s v (.commit set o) t) {d : List RangeIx} {n : Release} {jobs : List JobNo}
    (hdone : CommitDone set o d n jobs t (commitQueued t set o).1) : exec .storeWriteCompletion s = .next
      (answerWith (engine (commitQueued t set o).1) (commitDrained t set).2.ops
        ⟨.done, .committed (set.map (fun r => ((intentOf t r).map (·.gen)).getD 0)) (commitQueued t set o).2⟩) := by
  refine h.finish (finishService_commit h.inService.1 h.inService.2) ?_
  rw [answerWith_startUp]
  refine engine_startUp ?_
  rw [hdone.frame]
  exact h.startUp

/-- Settles O56: the checks of both requests, then the completion of the intent write by `CommitDone`. -/
theorem wipeIsPreparedAndCommitted : Obligations.WipeIsPreparedAndCommitted := by
  intro s b c u d
  refine ⟨fun level pattern sel set h => ?_, fun n h => ⟨fun hbad => ?_, fun p hp hn ht hc => ?_⟩,
    fun set o => commitRoom_iff s set o, fun v set o t h => ?_, fun set x r => ?_, fun v set o t h hi => ?_⟩
  · intro l may
    have hl : l = preparedNumbers u sel := by cases sel <;> rfl
    have hmay : may ↔ MayPrepare u c (preparedNumbers u sel) := by
      rw [← hl]
      exact Iff.rfl
    obtain ⟨hdenied, hfrozen, hillegal⟩ :=
      servePrepare_refused (s := u) d (c := c) (level := level) (pattern := pattern) (sel := sel)
    rw [h.exec_wipePrepare, hl, hmay]
    refine ⟨fun hm => ?_, fun hm hf => ?_, fun hm hf hs => ?_, fun hm hf _ hbad => ?_, fun hm hf hs hlevel hpattern => ?_⟩
    · rw [hdenied hm, refuse_eq _ _ _ h.service]
    · rw [hfrozen hm hf, refuse_eq _ _ _ h.service]
    · rw [hillegal hm hf (.inl hs), refuse_eq _ _ _ h.service]
    · rw [hillegal hm hf (.inr (toPurgeOption_unlawful hbad)), refuse_eq _ _ _ h.service]
    · obtain ⟨e, he, -⟩ := id hm
      rw [he] at hm ⊢
      rw [servePrepare_lawful d hm hf hs (toPurgeOption_lawful hlevel hpattern)]
      refine ⟨fun hbusy => ?_, fun hquiet => ?_⟩
      · rw [if_pos hbusy, refuse_eq _ _ _ h.service]
      · refine ⟨nextTicket u, e, purgeOption level pattern, (nextTicket_fresh u).1, (nextTicket_fresh u).2, rfl, rfl, ?_⟩
        rw [if_neg fun ⟨r, hr, hd⟩ => hquiet r hr hd]
        exact congrArg Host.Outcome.next (carried_eq _ d _ h.service)
  · rw [h.exec_wipeCommit, serveCommit_noTicket hbad, refuse_eq _ _ _ h.service]
  · obtain ⟨v, hv⟩ := Option.isSome_iff_exists.1 h.service
    rw [h.exec_wipeCommit, hp, serveCommit_ticket hn ht hc]
    refine ⟨fun hd => ?_, fun hd hbusy => ?_, fun hd hquiet hroom => ?_, fun hd hquiet hroom => ?_⟩
    · rw [hd, proceed_stored _ _ _ _ (.inl rfl)]
    · rw [hd, commitCheck_now hv, if_pos hbusy]
    · rw [hd, commitCheck_now hv, if_neg fun ⟨r, hr, e⟩ => hquiet r hr e, if_pos hroom]
    · rw [hd, commitCheck_now hv, if_neg fun ⟨r, hr, e⟩ => hquiet r hr e, if_neg (by simp [hroom])]
      rfl
  · rw [h.commitCheck]
    refine ⟨fun hbusy => ?_, fun hquiet hroom => ?_, fun hquiet hroom => ?_⟩
    · rw [if_pos hbusy]
    · rw [if_neg fun ⟨r, hr, e⟩ => hquiet r hr e, if_pos hroom]
    · rw [if_neg fun ⟨r, hr, e⟩ => hquiet r hr e, if_neg (by simp [hroom])]
      rfl
  · intro told m
    have hm : makeDraining set x r = m := rfl
    clear_value m
    exact ⟨fun hd => commitRange_told set x x r (if_pos hd),
      fun hd => commitRange_told set x m r ((if_neg hd).trans hm)⟩
  · intro marked x y ops hit cut
    obtain ⟨e, hdone⟩ := commitDone o h.startUp hi
    have hx : x = commitDrained t set := rfl
    have hw : y = commitQueued t set o := by cases o <;> rfl
    have hops : ops = (commitDrained t set).2.ops := by rw [Release.ops_eq, ← hx]
    have hhit : reaches e = hit := hdone.reaches_eq
    have hcut : cutBy t (fun _ b => reaches e b) = cut := by rw [hhit]; rfl
    have hexec := h.commit hdone
    refine ⟨(commitQueued t set o).1, (commitQueued t set o).2, by rw [hw], by rw [hw], ?_⟩
    intro a
    rw [hops]
    refine ⟨fun hno => ?_, fun _ => hexec, fun r => hdone.stores_steady, fun op => mem_ops _, hdone.noJobs, hdone.newJobs,
      hdone.frame, by rw [hdone.frame], by rw [hdone.frame], by rw [hdone.frame], by rw [hdone.frame], hdone.intents, ?_,
      fun j hj => ?_, ?_, ?_, fun r hr => hdone.ranges_of_set hr, hdone.outside, ?_, hdone.journal,
      fun r hr => hdone.draining hr, fun r hr hd => ?_, fun r hr => ?_, fun i hmem hset => ?_⟩
    · rw [hexec, hno]
      rfl
    · rw [← hcut]
      exact hdone.sweep
    · rw [← hcut]
      refine (hdone.kept j hj).trans ?_
      rw [hhit]
      rfl
    · rintro ⟨j, b, hj, hb, hrun, hhold⟩
      rw [← hcut] at hj
      exact hdone.arb_holding hj hb hrun hhold
    · intro hyield
      refine hdone.arb_yielding fun j b hj => hyield j b ?_
      rw [← hcut]
      exact hj
    · exact fun i => ⟨hdone.slot_kept, fun r ⟨hr, hd, hnames⟩ hone => hdone.slot_lost hr hd hnames hone⟩
    · rw [hdone.ranges_of_set hr, if_neg hd]
      refine ⟨rfl, rfl, ?_⟩
      unfold nextSlotOf drainingEntry
      cases t.ranges[r].mig <;> rfl
    · rw [hdone.outside r hr]
      split <;> exact ⟨rfl, rfl⟩
    · rw [hdone.intents] at hmem
      obtain ⟨k, -, rfl⟩ := List.mem_map.1 hmem
      simp only [Bool.or_eq_true, List.contains_iff_mem]
      exact .inr hset

end Sys2Proof.Machine
end

section
/-! Every command, and one microsecond on an empty queue, keeps the EMPTY slots clean (O4): the operations of each command
keep them, and so does the command. -/

namespace Sys2Proof.Machine

/-! ## What an outcome keeps -/

/-- Where `o` is a next state, that state keeps what `s` has. -/
def Keeps (s : State) (o : Host.Outcome State Fault Refusal) : Prop := ∀ t, o = .next t → Kept s t

theorem Keeps.next {s t : State} (h : Kept s t) : Keeps s (.next t) := fun _ e => by cases e; exact h

theorem Keeps.same {s : State} : Keeps s (.next s) := .next .refl

theorem Keeps.fault {s : State} {f : Fault} : Keeps s (.fault f) := fun _ e => by cases e

theorem Keeps.ite {s : State} {p : Prop} [Decidable p] {a b : Host.Outcome State Fault Refusal}
    (ha : Keeps s a) (hb : Keeps s b) : Keeps s (if p then a else b) := by
  split
  · exact ha
  · exact hb

/-- A request of an owner keeps what its service keeps. -/
theorem Keeps.owner {s : State} {b : RequestBlock} {config : Bool} {go : State → Bool → State}
    (hgo : ∀ u d, Kept s u → Kept s (go u d)) : Keeps s (.next (ownerRequest (endPrepared s) b config go)) :=
  .next (ownerRequest_kept (endPrepared_kept .refl) hgo)

/-- A request with a proof keeps what its service keeps. -/
theorem Keeps.proof {s : State} {b : RequestBlock} {owner : Bool} {go : State → Option CredIx → Bool → State}
    (hgo : ∀ u c d, Kept s u → Kept s (go u c d)) : Keeps s (.next (withProof (endPrepared s) b owner go)) :=
  .next (withProof_kept (endPrepared_kept .refl) hgo)

/-! ## The requests -/

theorem execQuery_keeps (s : State) : Keeps s (execQuery s) := by
  unfold execQuery
  split
  · split
    · exact .next (withProof_kept .refl fun _ _ _ k => proceed_kept k)
    · exact .proof fun _ _ _ k => k
    · exact .proof fun _ _ _ k => k
  · exact .same

theorem execRestart_keeps (p : StartInputs) (s : State) : Keeps s (execRestart p s) := by
  unfold execRestart
  split
  · exact .owner fun _ _ k => proceed_kept k
  · exact .same

theorem execFreeze_keeps (s : State) : Keeps s (execFreeze s) := by
  unfold execFreeze
  split
  · exact .proof fun _ _ _ k => carried_kept (.lit k id id id id)
  · exact .same

theorem afterRead_length (j : Journal) : (afterRead j).ring.length ≤ j.ring.length := by
  simp [afterRead]

theorem execJournalRead_keeps (s : State) : Keeps s (execJournalRead s) := by
  unfold execJournalRead
  split
  · exact .proof fun u _ _ k => carried_kept (.lit k id id id (afterRead_length u.journal).trans)
  · exact .same

theorem execJournalMask_keeps (s : State) : Keeps s (execJournalMask s) := by
  unfold execJournalMask
  split
  · exact .proof fun _ _ _ k => carried_kept (.lit k id id id id)
  · exact .same

theorem execUnknownRequest_keeps (s : State) : Keeps s (execUnknownRequest s) := by
  unfold execUnknownRequest
  split
  · split
    · exact .next (respond_kept (endPrepared_kept .refl))
    · exact .same
  · exact .same

theorem execUnlock_keeps (s : State) : Keeps s (execUnlock s) := by
  unfold execUnlock
  split
  · refine .ite (.proof fun u c d k => ?_) .same
    cases c with
    | none => exact k
    | some c => exact serveUnlock_kept k
  · exact .same

theorem execUnlockAbsent_keeps (s : State) : Keeps s (execUnlockAbsent s) := by
  unfold execUnlockAbsent
  split
  · exact .ite (.next (serveUnlockAbsent_kept (endPrepared_kept .refl))) .same
  · exact .same

theorem execLock_keeps (s : State) : Keeps s (execLock s) := by
  unfold execLock
  split
  · exact .proof fun _ _ _ k => serveLock_kept k
  · exact .same

theorem execCredSet_keeps (s : State) : Keeps s (execCredSet s) := by
  unfold execCredSet
  split
  · exact .proof fun _ _ _ k => serveCredSet_kept k
  · exact .same

theorem execCredClear_keeps (s : State) : Keeps s (execCredClear s) := by
  unfold execCredClear
  split
  · exact .owner fun _ _ k => serveCredClear_kept k
  · exact .same

/-- A request that names a target credential is carried out on it, or is answered BAD_REQUEST. -/
theorem target_kept {s u : State} {d : Bool} {n : Nat} {op : CredIx → List StoreOp} {after : CredIx → After}
    (k : Kept s u) :
    Kept s (match toTarget u n with | none => refuse u d .badRequest | some c => proceed u d (op c) (after c)) := by
  split
  · exact refuse_kept k
  · exact proceed_kept k

theorem execCredDisable_keeps (s : State) : Keeps s (execCredDisable s) := by
  unfold execCredDisable
  split
  · exact .owner fun _ _ k => target_kept k
  · exact .same

theorem execCredEnable_keeps (s : State) : Keeps s (execCredEnable s) := by
  unfold execCredEnable
  split
  · exact .owner fun _ _ k => target_kept k
  · exact .same

theorem execCredGrant_keeps (s : State) : Keeps s (execCredGrant s) := by
  unfold execCredGrant
  split
  · exact .owner fun _ _ k => serveCredGrant_kept k
  · exact .same

theorem execCredRevoke_keeps (s : State) : Keeps s (execCredRevoke s) := by
  unfold execCredRevoke
  split
  · exact .owner fun _ _ k => serveCredRevoke_kept k
  · exact .same

theorem execCredBudget_keeps (s : State) : Keeps s (execCredBudget s) := by
  unfold execCredBudget
  split
  · exact .owner fun _ _ k => serveCredBudget_kept k
  · exact .same

theorem execRangeDefine_keeps (s : State) : Keeps s (execRangeDefine s) := by
  unfold execRangeDefine
  split
  · exact .owner fun _ _ k => serveRangeDefine_kept k
  · exact .same

theorem execRangeDelete_keeps (s : State) : Keeps s (execRangeDelete s) := by
  unfold execRangeDelete
  split
  · exact .owner fun _ _ k => serveRangeDelete_kept k
  · exact .same

theorem execRangeFlags_keeps (s : State) : Keeps s (execRangeFlags s) := by
  unfold execRangeFlags
  split
  · exact .owner fun _ _ k => serveRangeFlags_kept k
  · exact .same

theorem execRangeRekey_keeps (s : State) : Keeps s (execRangeRekey s) := by
  unfold execRangeRekey
  split
  · exact .proof fun _ _ _ k => serveRangeRekey_kept k
  · exact .same

theorem execCeilingSet_keeps (s : State) : Keeps s (execCeilingSet s) := by
  unfold execCeilingSet
  split
  · exact .owner fun _ _ k => serveCeiling_kept k
  · exact .same

theorem execReserveOpen_keeps (s : State) : Keeps s (execReserveOpen s) := by
  unfold execReserveOpen
  split
  · exact .proof fun _ _ _ k => serveReserveOpen_kept k
  · exact .same

theorem execReserveClose_keeps (s : State) : Keeps s (execReserveClose s) := by
  unfold execReserveClose
  split
  · exact .owner fun _ _ k => carried_kept (.lit k id id id id)
  · exact .same

theorem execPbwSet_keeps (s : State) : Keeps s (execPbwSet s) := by
  unfold execPbwSet
  split
  · exact .owner fun _ _ k => servePbw_kept k
  · exact .same

theorem execWipePrepare_keeps (s : State) : Keeps s (execWipePrepare s) := by
  unfold execWipePrepare
  split
  · exact .proof fun _ _ _ k => servePrepare_kept k
  · exact .same

theorem execWipeCommit_keeps (s : State) : Keeps s (execWipeCommit s) := by
  unfold execWipeCommit
  split
  · exact .proof fun _ _ _ k => serveCommit_kept k
  · exact .same

theorem execSweepStatus_keeps (s : State) : Keeps s (execSweepStatus s) := by
  unfold execSweepStatus
  split
  · exact .proof fun _ _ _ k => carried_kept (freeReported_kept k)
  · exact .same

theorem execSweepPause_keeps (s : State) : Keeps s (execSweepPause s) := by
  unfold execSweepPause
  split
  · refine .owner fun u d k => ?_
    split
    · exact refuse_kept k
    · split
      · exact refuse_kept k
      · exact carried_kept (pauseByRequest_kept k)
  · exact .same

theorem execSweepResume_keeps (s : State) : Keeps s (execSweepResume s) := by
  unfold execSweepResume
  split
  · refine .owner fun u d k => ?_
    split
    · exact refuse_kept k
    · split
      · exact refuse_kept k
      · exact carried_kept (resumeByRequest_kept k)
  · exact .same

theorem execSweepCancel_keeps (s : State) : Keeps s (execSweepCancel s) := by
  unfold execSweepCancel
  split
  · refine .owner fun u d k => ?_
    split
    · exact refuse_kept k
    · split
      · exact refuse_kept k
      · split
        · exact refuse_kept k
        · exact respondAfter_kept (cancelByRequest_kept k)
  · exact .same

theorem execTheftSet_keeps (s : State) : Keeps s (execTheftSet s) := by
  unfold execTheftSet
  split
  · exact .owner fun _ _ k => serveTheft_kept k
  · exact .same

theorem execPowerSet_keeps (s : State) : Keeps s (execPowerSet s) := by
  unfold execPowerSet
  split
  · exact .owner fun _ _ k => servePower_kept k
  · exact .same

/-! ## The front transactions and the media -/

theorem execFrontTransaction_keeps (d : Descriptor) (s : State) : Keeps s (execFrontTransaction d s) := by
  unfold execFrontTransaction
  refine .ite .same ?_
  split
  · exact .next (send_kept .refl)
  · exact .next (passOn_kept (resetTimers_kept (setTxn_kept .refl)))

theorem execLinkReset_keeps (s : State) : Keeps s (execLinkReset s) :=
  .ite (.next (linkReset_kept .refl)) .same

theorem execMediaCompletion_keeps (x : MediaTag) (res : MediaResult) (s : State) :
    Keeps s (execMediaCompletion x res s) := by
  unfold execMediaCompletion
  split
  · exact .fault
  · exact .next (setTag_kept .refl)
  · exact .next (actFor_kept (setTag_kept .refl))

theorem execLateCompletion_keeps (x : MediaTag) (s : State) : Keeps s (execLateCompletion x s) := by
  unfold execLateCompletion
  split
  · exact .fault
  · exact .next (setTag_kept .refl)
  · exact .same

theorem execMediaTimeout_keeps (x : MediaTag) (s : State) : Keeps s (execMediaTimeout x s) := by
  unfold execMediaTimeout
  split
  · exact .ite (.next (actFor_kept (raise_kept (setTag_kept .refl)))) .same
  · exact .same
  · exact .same

theorem execMediaTagGrant_keeps (x : MediaTag) (s : State) : Keeps s (execMediaTagGrant x s) := by
  unfold execMediaTagGrant
  split
  · split
    · exact .next (markIssued_kept (setTag_kept (.lit .refl id id id id)))
    · exact .same
  · exact .same
  · exact .same

/-! ## The lanes and the sweep engine's chunk -/

theorem execLaneGrant_keeps (l : LaneIx) (s : State) : Keeps s (execLaneGrant l s) :=
  .ite (.next (laneClaim_kept .refl)) .same

theorem execLanePassEnd_keeps (l : LaneIx) (data : List Block) (s : State) : Keeps s (execLanePassEnd l data s) := by
  unfold execLanePassEnd
  split
  · dsimp only
    split
    · exact .next (passEnd_kept (setLane_kept .refl))
    · exact .next (setLane_kept .refl)
  · exact .same
  · exact .same
  · exact .same

theorem execChunkPassEnd_keeps (s : State) : Keeps s (execChunkPassEnd s) := by
  unfold execChunkPassEnd
  split
  · refine .ite ?_ .same
    dsimp only
    split
    · exact .next (rekeyPassEnd_kept (releasePass_kept .refl))
    · exact .next (purgePassEnd_kept (releasePass_kept .refl))
  · exact .same

theorem execFenceSet_keeps (s : State) : Keeps s (execFenceSet s) := by
  unfold execFenceSet
  split
  · exact .next (setFence_kept .refl)
  · exact .same

/-! ## The store and the wipe controller -/

theorem execStoreWriteCompletion_keeps (s : State) : Keeps s (execStoreWriteCompletion s) := by
  unfold execStoreWriteCompletion
  split
  · exact .same
  · exact .next (completeWrite_kept .refl)

theorem execDrainFinish_keeps (r : RangeIx) (s : State) : Keeps s (execDrainFinish r s) :=
  .ite (.next (startDrainFinish_kept .refl)) .same

/-! ## Power and tamper -/

theorem execIdleRelockExpiry_keeps (s : State) : Keeps s (execIdleRelockExpiry s) :=
  .ite (.next (engine_kept (lockProcedure_kept (.lit .refl id id id id)))) .same

theorem execStepToIdle_keeps (s : State) : Keeps s (execStepToIdle s) :=
  .ite (.next (enterPower_kept .refl)) .same

theorem execDozeStepDue_keeps (s : State) : Keeps s (execDozeStepDue s) :=
  .ite (.next (.lit .refl id id id id)) .same

theorem execStepToDoze_keeps (s : State) : Keeps s (execStepToDoze s) :=
  .ite (.next (enterPower_kept (.foldl (fun _ _ k => pauseForDoze_kept k) .refl))) .same

theorem execWakeFromDozeComplete_keeps (s : State) : Keeps s (execWakeFromDozeComplete s) :=
  .ite (.next (admitWaiting_kept (backToActive_kept .refl))) .same

theorem execSleepRequestRise_keeps (s : State) : Keeps s (execSleepRequestRise s) := by
  have line : Kept s { s with sleepLine := true } := .lit .refl id id id id
  have entry := beginSleepEntry_kept (retryWaiting_kept line)
  unfold execSleepRequestRise
  exact .ite .same (.ite (.next line) (.ite (.next (becomeReady_kept entry)) (.next entry)))

theorem execSleepReady_keeps (s : State) : Keeps s (execSleepReady s) :=
  .ite (.next (becomeReady_kept .refl)) .same

theorem execSleepRequestFall_keeps (s : State) : Keeps s (execSleepRequestFall s) := by
  have line : Kept s { s with sleepLine := false } := .lit .refl id id id id
  unfold execSleepRequestFall
  refine .ite .same (.ite (.next line) ?_)
  split
  · exact .next (backToActive_kept line)
  · exact .next (.lit line id id id id)
  · exact .next line

theorem execWakeFromSleepComplete_keeps (s : State) : Keeps s (execWakeFromSleepComplete s) :=
  .ite (.next (admitWaiting_kept (backToActive_kept .refl))) .same

theorem execPowerGoodRise_keeps (p : StartInputs) (s : State) : Keeps s (execPowerGoodRise p s) :=
  .ite .same (.next (beginStartUp_kept (.lit .refl id id id id)))

theorem execPowerGoodFall_keeps (s : State) : Keeps s (execPowerGoodFall s) :=
  .ite (.next (.lit (clearVolatile_kept .refl) (fun _ => Nat.zero_le _) id id id)) .same

theorem execAcceptedEdge_keeps (line : TamperLine) (s : State) : Keeps s (execAcceptedEdge line s) :=
  .ite (.next (acceptEdge_kept .refl)) .same

theorem execTamperSample_keeps (line : TamperLine) (l : Level) (s : State) : Keeps s (execTamperSample line l s) :=
  .ite (.ite (.next (.lit .refl id id id id)) (.ite (.next (.lit .refl id id id id)) (.next (acceptEdge_kept .refl))))
    .same

/-! ## A step -/

theorem exec_keeps (i : Instr) (s : State) : Keeps s (exec i s) :=
  match i with
  | .frontTransaction d => execFrontTransaction_keeps d s
  | .linkReset => execLinkReset_keeps s
  | .mediaCompletion t res => execMediaCompletion_keeps t res s
  | .lateCompletion t => execLateCompletion_keeps t s
  | .mediaTimeout t => execMediaTimeout_keeps t s
  | .mediaTagGrant t => execMediaTagGrant_keeps t s
  | .laneGrant l => execLaneGrant_keeps l s
  | .lanePassEnd l data => execLanePassEnd_keeps l data s
  | .chunkPassEnd => execChunkPassEnd_keeps s
  | .storeWriteCompletion => execStoreWriteCompletion_keeps s
  | .fenceSet => execFenceSet_keeps s
  | .drainFinish r => execDrainFinish_keeps r s
  | .idleRelockExpiry => execIdleRelockExpiry_keeps s
  | .stepToIdle => execStepToIdle_keeps s
  | .dozeStepDue => execDozeStepDue_keeps s
  | .stepToDoze => execStepToDoze_keeps s
  | .wakeFromDozeComplete => execWakeFromDozeComplete_keeps s
  | .sleepRequestRise => execSleepRequestRise_keeps s
  | .sleepReady => execSleepReady_keeps s
  | .sleepRequestFall => execSleepRequestFall_keeps s
  | .wakeFromSleepComplete => execWakeFromSleepComplete_keeps s
  | .powerGoodRise p => execPowerGoodRise_keeps p s
  | .powerGoodFall => execPowerGoodFall_keeps s
  | .acceptedEdge line => execAcceptedEdge_keeps line s
  | .query => execQuery_keeps s
  | .restart p => execRestart_keeps p s
  | .freeze => execFreeze_keeps s
  | .journalRead => execJournalRead_keeps s
  | .journalMask => execJournalMask_keeps s
  | .unlock => execUnlock_keeps s
  | .unlockAbsent => execUnlockAbsent_keeps s
  | .lock => execLock_keeps s
  | .credSet => execCredSet_keeps s
  | .credClear => execCredClear_keeps s
  | .credDisable => execCredDisable_keeps s
  | .credEnable => execCredEnable_keeps s
  | .credGrant => execCredGrant_keeps s
  | .credRevoke => execCredRevoke_keeps s
  | .credBudget => execCredBudget_keeps s
  | .rangeDefine => execRangeDefine_keeps s
  | .rangeDelete => execRangeDelete_keeps s
  | .rangeFlags => execRangeFlags_keeps s
  | .rangeRekey => execRangeRekey_keeps s
  | .ceilingSet => execCeilingSet_keeps s
  | .reserveOpen => execReserveOpen_keeps s
  | .reserveClose => execReserveClose_keeps s
  | .pbwSet => execPbwSet_keeps s
  | .wipePrepare => execWipePrepare_keeps s
  | .wipeCommit => execWipeCommit_keeps s
  | .sweepStatus => execSweepStatus_keeps s
  | .sweepPause => execSweepPause_keeps s
  | .sweepResume => execSweepResume_keeps s
  | .sweepCancel => execSweepCancel_keeps s
  | .theftSet => execTheftSet_keeps s
  | .powerSet => execPowerSet_keeps s
  | .unknownRequest => execUnknownRequest_keeps s
  | .tamperSample line l => execTamperSample_keeps line l s

/-- A step keeps what its command keeps, or the tick on an empty queue. -/
theorem step_kept {s t : State} (h : step s = .next t) : Kept s t := by
  unfold step at h
  split at h
  · cases h
    exact tick_kept .refl
  · exact .trans (.lit .refl id id id id) (exec_keeps _ _ t h)

/-- Settles O4: every operation of every command keeps the EMPTY slots clean. -/
theorem everyStepKeepsEmptySlotsClean : Obligations.EveryStepKeepsEmptySlotsClean :=
  fun _ _ hclean hstep => (step_kept hstep).slots hclean

end Sys2Proof.Machine
end

section
/-! The ledger of the key slots: what of the state the reference counts speak of (O7), and the operations that leave it as it
is. -/

namespace Sys2Proof.Machine

/-! ## The ledger -/

/-- The segment whose pass a lane is granted to. -/
def laneSeg : Lane → Option Nat
  | .granted (.seg id) => some id
  | .granted .pass => none
  | .free => none
  | .dedicated => none

/-- The segment that a media request is of. -/
def reqSeg (q : MediaReq) : Option Nat :=
  match q.who with
  | .seg id => some id
  | .flush _ => none
  | .sweep _ => none
  | .recovery _ _ _ => none
  | .discard => none

/-- The segment whose request a media tag is busy with. -/
def tagSeg : TagState → Option Nat
  | .busy q _ => reqSeg q
  | .free => none
  | .quarantined => none

/-- What of a range entry the naming of slots depends on. `next` is absent where the entry has no migration record. -/
structure Naming where
  active    : Bool
  draining  : Bool
  migrating : Bool
  slot      : Option SlotIx
  next      : Option (Option SlotIx)
  finishing : Bool

/-- The naming of a range entry. -/
def namingOf (x : RangeEntry) : Naming :=
  ⟨x.active, x.cond = .draining, x.cond = .migrating, x.slot, x.mig.map (·.nextSlot), x.finishing⟩

/-- What the request in service has promised for its range. -/
inductive Duty
  | nothing
  | define (r : RangeIx)
  | rekey (r : RangeIx)

/-- The promise of a request: RANGE.DEFINE makes its range, and RANGE.REKEY migrates it. -/
def dutyAfter : After → Duty
  | .rangeDefine r _ _ _ _ => .define r
  | .rangeRekey r _ _ _ _ => .rekey r
  | _ => .nothing

/-- The promise of the request in service. -/
def dutyIn (c : Control) : Duty :=
  match c.service with
  | some v => dutyAfter v.after
  | none => .nothing

/-- What the reference counts speak of. `still` tells that no request is in service or queued and that no power operation is in
progress. -/
structure Ledger where
  powered  : Bool
  starting : Bool
  still    : Bool
  duty     : Duty
  segs     : List Segment
  nextSeg  : Nat
  wait     : List Nat
  lanes    : LaneIx → Option Nat
  asked    : List Nat
  tags     : MediaTag → Option Nat
  entries  : RangeIx → Naming
  slots    : SlotIx → Slot
  chunk    : Option Chunk
  records  : Vector RangeRecord 16

/-- Whether no request is in service or queued, and no power operation is in progress. -/
def stillIn (c : Control) (p : Power) : Bool := c.service.isNone && c.queue.isEmpty && p.op = .noOp

/-- The ledger of a state. -/
def ledger (s : State) : Ledger where
  powered := s.powered
  starting := s.startUp.isSome
  still := stillIn s.control s.power
  duty := dutyIn s.control
  segs := s.front.segs
  nextSeg := s.front.nextSeg
  wait := s.arb.wait
  lanes l := laneSeg s.arb.lanes[l]
  asked := s.media.waiting.filterMap reqSeg
  tags t := tagSeg s.media.tags[t]
  entries r := namingOf s.ranges[r]
  slots i := s.slots[i]
  chunk := s.sweep.chunk
  records := s.store.ranges

/-! ## Table updates -/

theorem ledger_foldl {α : Type} {f : State → α → State} (h : ∀ s x, ledger (f s x) = ledger s) (l : List α) (s : State) :
    ledger (l.foldl f s) = ledger s := by
  induction l generalizing s with
  | nil => rfl
  | cons a l ih => exact (ih _).trans (h s a)

theorem ledger_foldlFst {α β : Type} {f : State × β → α → State × β} (h : ∀ x a, ledger (f x a).1 = ledger x.1)
    (l : List α) (x : State × β) : ledger (l.foldl f x).1 = ledger x.1 := by
  induction l generalizing x with
  | nil => rfl
  | cons a l ih => exact (ih _).trans (h x a)

theorem ledger_modRange_eq (s : State) (r : RangeIx) (f : RangeEntry → RangeEntry) : ledger (modRange s r f) =
    { ledger s with entries := Function.update (ledger s).entries r (namingOf (f s.ranges[r])) } := by
  have h : (fun q : RangeIx => namingOf (modRange s r f).ranges[q]) =
      Function.update (ledger s).entries r (namingOf (f s.ranges[r])) := by
    funext q
    rw [modRange_ranges, Function.update_apply]
    split <;> rfl
  exact congrArg (fun e => { ledger s with entries := e }) h

/-- A change of a range entry that its naming does not see. -/
theorem ledger_modRange {s : State} {r : RangeIx} {f : RangeEntry → RangeEntry}
    (h : namingOf (f s.ranges[r]) = namingOf s.ranges[r]) : ledger (modRange s r f) = ledger s := by
  rw [ledger_modRange_eq, h]
  exact congrArg (fun e => { ledger s with entries := e }) (Function.update_eq_self r (ledger s).entries)

theorem ledger_modSlot_eq (s : State) (i : SlotIx) (f : Slot → Slot) : ledger (modSlot s i f) =
    { ledger s with slots := Function.update (ledger s).slots i (f s.slots[i]) } := by
  have h : (fun k : SlotIx => (modSlot s i f).slots[k]) = Function.update (ledger s).slots i (f s.slots[i]) := by
    funext k
    rw [modSlot_slots, Function.update_apply]
    split <;> rfl
  exact congrArg (fun e => { ledger s with slots := e }) h

theorem ledger_setLane_eq (s : State) (l : LaneIx) (x : Lane) : ledger (setLane s l x) =
    { ledger s with lanes := Function.update (ledger s).lanes l (laneSeg x) } := by
  have h : (fun k : LaneIx => laneSeg (setLane s l x).arb.lanes[k]) = Function.update (ledger s).lanes l (laneSeg x) := by
    funext k
    rw [setLane_lanes, Function.update_apply]
    split <;> rfl
  exact congrArg (fun e => { ledger s with lanes := e }) h

/-- A lane that no segment held or holds. -/
theorem ledger_setLane {s : State} {l : LaneIx} {x : Lane} (h : laneSeg x = laneSeg s.arb.lanes[l]) :
    ledger (setLane s l x) = ledger s := by
  rw [ledger_setLane_eq, h]
  exact congrArg (fun e => { ledger s with lanes := e }) (Function.update_eq_self l (ledger s).lanes)

theorem ledger_setTag_eq (s : State) (t : MediaTag) (x : TagState) : ledger (setTag s t x) =
    { ledger s with tags := Function.update (ledger s).tags t (tagSeg x) } := by
  have h : (fun k : MediaTag => tagSeg (setTag s t x).media.tags[k]) = Function.update (ledger s).tags t (tagSeg x) := by
    funext k
    rw [setTag_tags, Function.update_apply]
    split <;> rfl
  exact congrArg (fun e => { ledger s with tags := e }) h

theorem ledger_askTag_eq (s : State) (q : MediaReq) : ledger (askTag s q) =
    { ledger s with asked := (ledger s).asked ++ (reqSeg q).toList } := by
  have h : (askTag s q).media.waiting.filterMap reqSeg = (ledger s).asked ++ (reqSeg q).toList := by
    rw [askTag_waiting, List.filterMap_append]
    congr 1
  exact congrArg (fun e => { ledger s with asked := e }) h

/-- A request that is no segment's. -/
theorem ledger_askTag {s : State} {q : MediaReq} (h : reqSeg q = none) : ledger (askTag s q) = ledger s := by
  rw [ledger_askTag_eq, h]
  exact congrArg (fun e => { ledger s with asked := e }) (List.append_nil _)

@[simp] theorem ledger_modCred (s : State) (c : CredIx) (f : Cred → Cred) : ledger (modCred s c f) = ledger s := rfl

@[simp] theorem ledger_modDev (s : State) (f : Device → Device) : ledger (modDev s f) = ledger s := rfl

@[simp] theorem ledger_setTxn (s : State) (t : FrontTag) (x : Option Txn) : ledger (setTxn s t x) = ledger s := rfl

@[simp] theorem ledger_setStage (s : State) (t : FrontTag) (st : Stage) : ledger (setStage s t st) = ledger s := by
  unfold setStage
  split <;> rfl

@[simp] theorem ledger_setJob (s : State) (j : JobNo) (e : JobEntry) : ledger (setJob s j e) = ledger s := rfl

@[simp] theorem ledger_modJob (s : State) (j : JobNo) (f : Job → Job) : ledger (modJob s j f) = ledger s := by
  unfold modJob
  split <;> rfl

@[simp] theorem ledger_raise (s : State) (e : Event) : ledger (raise s e) = ledger s := by
  unfold raise
  split
  · rename_i u h
    have hs : (some { u with deferred := u.deferred ++ [e] }).isSome = s.startUp.isSome := by rw [h]; rfl
    exact congrArg (fun b => { ledger s with starting := b }) hs
  · rfl

@[simp] theorem ledger_raiseAll (s : State) (l : List Event) : ledger (raiseAll s l) = ledger s :=
  ledger_foldl ledger_raise l s

@[simp] theorem ledger_send (s : State) (t : FrontTag) (st : Status) (data : List Block) (resp : Option Response) :
    ledger (send s t st data resp) = ledger s := rfl

@[simp] theorem ledger_complete (s : State) (t : FrontTag) (st : Status) (data : List Block) (resp : Option Response) :
    ledger (complete s t st data resp) = ledger s := rfl

@[simp] theorem ledger_issue (s : State) (l : List (StoreOp × Done)) : ledger (issue s l) = ledger s := by
  cases l <;> rfl

@[simp] theorem ledger_issueEach (s : State) (l : List StoreOp) : ledger (issueEach s l) = ledger s :=
  ledger_foldl (fun s op => ledger_issue s [(op, .nothing)]) l s

@[simp] theorem ledger_issueChain (s : State) (l : List StoreOp) (last : Done) :
    ledger (issueChain s l last) = ledger s := by
  unfold issueChain
  split
  · rfl
  · exact ledger_issue _ _

@[simp] theorem ledger_issueAll (s : State) (l : List StoreOp) (last : Done) :
    ledger (issueAll s l last) = ledger s := by
  unfold issueAll
  split <;> simp

@[simp] theorem ledger_takeKey (s : State) : ledger (takeKey s).2 = ledger s := rfl

/-! ## The front port and the control unit -/

@[simp] theorem ledger_issueFlush (s : State) (t : FrontTag) : ledger (issueFlush s t) = ledger s := by
  unfold issueFlush
  rw [ledger_askTag rfl, ledger_setStage]

@[simp] theorem ledger_leaveWaitSet (id : Nat) (s : State) (t : FrontTag) : ledger (leaveWaitSet id s t) = ledger s := by
  unfold leaveWaitSet
  split
  · split
    · split
      · dsimp only
        split <;> simp
      · rfl
    all_goals rfl
  · rfl

@[simp] theorem ledger_clearDamage (s : State) (g : Segment) (st : Status) : ledger (clearDamage s g st) = ledger s := by
  unfold clearDamage
  split
  · dsimp only
    split <;> rfl
  · rfl

@[simp] theorem ledger_holdTxn (s : State) (t : FrontTag) : ledger (holdTxn s t) = ledger s := by
  unfold holdTxn
  split
  · exact ledger_setStage s t .held
  · rfl

@[simp] theorem ledger_admitFlush (s : State) (t : FrontTag) : ledger (admitFlush s t) = ledger s := by
  unfold admitFlush
  dsimp only
  split <;> simp

@[simp] theorem ledger_retryWaiting (s : State) : ledger (retryWaiting s) = ledger s :=
  ledger_foldl (fun s t => ledger_complete s t .retry [] none) _ { s with front := { s.front with waiting := [] } }

@[simp] theorem ledger_joinWaiting (s : State) (t : FrontTag) : ledger (joinWaiting s t) = ledger s := rfl

@[simp] theorem ledger_resetTimers (s : State) : ledger (resetTimers s) = ledger s := rfl

theorem ledger_control (s : State) (c : Control) : ledger { s with control := c } =
    { ledger s with still := stillIn c s.power, duty := dutyIn c } := rfl

/-- What the request in service waits for is settled. -/
theorem ledger_setAfter (s : State) (a : After) : ledger (setAfter s a) =
    { ledger s with duty := if s.control.service.isSome then dutyAfter a else .nothing } := by
  have hs : stillIn { s.control with service := s.control.service.map (fun v => { v with after := a }) } s.power =
      stillIn s.control s.power := by
    simp [stillIn]
  unfold setAfter
  rw [ledger_control, hs]
  unfold dutyIn
  cases s.control.service <;> rfl

@[simp] theorem ledger_endPrepared (s : State) : ledger (endPrepared s) = ledger s := rfl

@[simp] theorem ledger_configChanged (s : State) (r : Option RangeIx) (c : Option CredIx) (code : BitVec 16) :
    ledger (configChanged s r c code) = ledger s := ledger_raise _ _

@[simp] theorem ledger_countMatch (s : State) (c : CredIx) : ledger (countMatch s c) = ledger s := rfl

@[simp] theorem ledger_countMismatch (s : State) (b : RequestBlock) (c : CredIx) :
    ledger (countMismatch s b c) = ledger s := by
  unfold countMismatch
  dsimp only
  split <;> simp

@[simp] theorem ledger_recordPrepared (s : State) (c : CredIx) (set : List RangeIx) (p : Option PurgeOpt) :
    ledger (recordPrepared s c set p) = ledger s := rfl

@[simp] theorem ledger_setTheft (s : State) (p : TheftPolicy) (a b c : Bool) : ledger (setTheft s p a b c) = ledger s := by
  unfold setTheft
  dsimp only
  split <;> rfl

/-! ## The sweep engine's jobs and lanes -/

@[simp] theorem ledger_offStack (s : State) (j : JobNo) : ledger (offStack s j) = ledger s := rfl

@[simp] theorem ledger_undedicate (s : State) : ledger (undedicate s) = ledger s := by
  unfold undedicate
  split
  · rename_i l _
    dsimp only
    split
    · rename_i h
      exact ledger_setLane (l := l) (x := .free) (by rw [h]; rfl)
    · rfl
  · rfl

@[simp] theorem ledger_dedicate (s : State) : ledger (dedicate s) = ledger s := by
  unfold dedicate
  split
  · rename_i l h
    have hl : s.arb.lanes[l] = .free := by simpa using List.find?_some h
    exact ledger_setLane (l := l) (x := .dedicated) (by rw [hl]; rfl)
  · rfl

@[simp] theorem ledger_endTurn (s : State) (j : JobNo) (f : Job → Job) : ledger (endTurn s j f) = ledger s := by
  unfold endTurn
  split
  · dsimp only
    split <;> simp
  · rfl

@[simp] theorem ledger_becomeRunning (s : State) (j : JobNo) : ledger (becomeRunning s j) = ledger s := by
  unfold becomeRunning
  split
  · dsimp only
    split
    · exact ledger_dedicate _
    · rfl
  · rfl

@[simp] theorem ledger_preempt (s : State) (j : JobNo) : ledger (preempt s j) = ledger s := by
  unfold preempt
  split
  · dsimp only
    split <;> simp
  · rfl

@[simp] theorem ledger_queueJob (s : State) (j : JobNo) (b : Job) : ledger (queueJob s j b) = ledger s := rfl

@[simp] theorem ledger_pauseJob (s : State) (j : JobNo) (c : PauseCause) : ledger (pauseJob s j c) = ledger s :=
  ledger_endTurn _ _ _

@[simp] theorem ledger_pauseForDoze (s : State) (j : JobNo) : ledger (pauseForDoze s j) = ledger s := by
  unfold pauseForDoze
  split
  · split <;> simp
  · rfl

/-- A range that leaves PURGING names what it named. -/
theorem ledger_steady {s : State} {r : RangeIx} (h : s.ranges[r].cond = .purging) :
    ledger (modRange s r (fun y => { y with cond := .steady })) = ledger s :=
  ledger_modRange (by simp only [namingOf, h]; rfl)

@[simp] theorem ledger_releaseRange (x : State × Release) (r : RangeIx) : ledger (releaseRange x r).1 = ledger x.1 := by
  unfold releaseRange
  dsimp only
  split
  · rfl
  · split
    · rename_i h
      exact ledger_steady h
    · split <;> rfl

@[simp] theorem ledger_finishJob (s : State) (j : JobNo) (st : JobState) (l : List RangeIx) :
    ledger (finishJob s j st l).1 = ledger s := by
  unfold finishJob
  split
  · dsimp only
    split
    · rw [ledger_foldlFst ledger_releaseRange, ledger_endTurn]
    · exact ledger_endTurn _ _ _
  · rfl

@[simp] theorem ledger_cancelByWipe (s : State) (j : JobNo) (set : List RangeIx) (r : RangeIx) :
    ledger (cancelByWipe s j set r).1 = ledger s := by
  simp [cancelByWipe]

@[simp] theorem ledger_wipeJob (set : List RangeIx) (r : RangeIx) (x : State × Release) (j : JobNo) :
    ledger (wipeJob set r x j).1 = ledger x.1 := by
  unfold wipeJob
  dsimp only
  split
  · split
    · split <;> simp
    · rfl
  · rfl

@[simp] theorem ledger_wipeJobs (set : List RangeIx) (r : RangeIx) (x : State × Release) :
    ledger (wipeJobs set r x).1 = ledger x.1 :=
  ledger_foldlFst (ledger_wipeJob set r) _ x

@[simp] theorem ledger_returnJob (s : State) (j : JobNo) : ledger (returnJob s j) = ledger s := by
  unfold returnJob
  split
  · dsimp only
    split
    · rfl
    · split <;> rfl
  · rfl

@[simp] theorem ledger_returnIf (c : PauseCause) (s : State) (j : JobNo) : ledger (returnIf c s j) = ledger s := by
  unfold returnIf
  split
  · split <;> simp
  · rfl

@[simp] theorem ledger_returnPower (s : State) : ledger (returnPower s) = ledger s := ledger_foldl (ledger_returnIf .power) _ s

@[simp] theorem ledger_returnUnlocked (s : State) (r : RangeIx) : ledger (returnUnlocked s r) = ledger s := by
  unfold returnUnlocked
  split <;> simp

@[simp] theorem ledger_lockJob (s : State) (r : RangeIx) : ledger (lockJob s r) = ledger s := by
  unfold lockJob
  split
  · split
    · split <;> simp
    · rfl
  · rfl

@[simp] theorem ledger_reportAfter (s : State) (l : List StoreOp) (e : Event) : ledger (reportAfter s l e) = ledger s := by
  unfold reportAfter
  split <;> simp

@[simp] theorem ledger_settleTurn (s : State) (j : JobNo) (e : ChunkEnd) : ledger (settleTurn s j e) = ledger s := by
  unfold settleTurn
  split
  · split
    · simp
    · simp
    · split
      · simp
      · split
        · simp
        · simp
        · split
          · simp
          · split <;> simp
  · rfl

@[simp] theorem ledger_createRekey (s : State) (r : RangeIx) : ledger (createRekey s r) = ledger s := by
  unfold createRekey
  split
  · split
    · rw [ledger_modRange, ledger_queueJob]
      simp [namingOf, Option.map_map, Function.comp_def]
    · rfl
  · rfl

@[simp] theorem ledger_createPurge (s : State) : ledger (createPurge s) = ledger s := by
  unfold createPurge
  split <;> rfl

@[simp] theorem ledger_createUnscheduled (s : State) : ledger (createUnscheduled s) = ledger s := by
  unfold createUnscheduled
  rw [ledger_foldl (fun s _ => ledger_createPurge s), ledger_foldl ledger_createRekey]

@[simp] theorem ledger_chooseIdle (s : State) : ledger (chooseIdle s) = ledger s := by
  unfold chooseIdle
  split
  · rfl
  · simp
  · simp
  · split
    · split <;> simp
    · simp

@[simp] theorem ledger_choose (s : State) : ledger (choose s) = ledger s := by
  unfold choose
  split
  · split
    · split <;> simp
    · rfl
  · simp

@[simp] theorem ledger_askLanes (s : State) (p : LanePolicy) : ledger (askLanes s p) = ledger s := by
  unfold askLanes
  split
  · rfl
  · split
    · split
      · rename_i h
        exact ledger_setLane (by rw [h]; rfl)
      · rfl
    · rfl

@[simp] theorem ledger_endRange (s : State) (r : RangeIx) (op : StoreOp) (d : Done) : ledger (endRange s r op d) = ledger s := by
  unfold endRange
  split <;> rfl

@[simp] theorem ledger_settleRunning (s : State) : ledger (settleRunning s) = ledger s := by
  unfold settleRunning
  split <;> simp

@[simp] theorem ledger_offCompleting (s : State) (r : RangeIx) : ledger (offCompleting s r) = ledger s := rfl

@[simp] theorem ledger_freeFinished (s : State) (j : JobNo) : ledger (freeFinished s j) = ledger s := by
  unfold freeFinished
  split
  · split <;> rfl
  · rfl

theorem ledger_releaseLane (s : State) (l : LaneIx) (x : Lane) (hx : laneSeg x = none) :
    ledger (if s.arb.lanes[l] = .granted .pass then setLane s l x else s) = ledger s := by
  split
  · rename_i h
    exact ledger_setLane (by rw [h, hx]; rfl)
  · rfl

@[simp] theorem ledger_releasePass (s : State) : ledger (releasePass s) = ledger s :=
  ledger_foldl (fun s l => ledger_releaseLane s l _ (by split <;> rfl)) allLanes
    { s with arb := { s.arb with waitingPass := false } }

@[simp] theorem ledger_askSweep (s : State) (op : MediaOp) (addr count : Nat) (data : List Block) (q : SweepReq) :
    ledger (askSweep s op addr count data q) = ledger s := ledger_askTag rfl

@[simp] theorem ledger_writeRun (c : Chunk) (addr : Run → Nat) (q : Run → SweepReq) (s : State) (x : Run) :
    ledger (writeRun c addr q s x) = ledger s := ledger_askSweep _ _ _ _ _ _

/-! ## Locks, wipes and ranges -/

@[simp] theorem ledger_openIfUnguarded (s : State) (r : RangeIx) : ledger (openIfUnguarded s r) = ledger s := by
  unfold openIfUnguarded
  dsimp only
  split
  · rw [ledger_returnUnlocked, ledger_modRange rfl]
  · rfl

@[simp] theorem ledger_unlockRange (c : Option CredIx) (access : RangeIx → Access) (s : State) (r : RangeIx) :
    ledger (unlockRange c access s r) = ledger s := by
  unfold unlockRange
  dsimp only
  split
  · rw [ledger_raise, ledger_returnUnlocked, ledger_modRange rfl]
  · rfl

@[simp] theorem ledger_placeGroups (o : PurgeOpt) (s : State) (l : List (List RangeIx)) :
    ledger (placeGroups o s l).1 = ledger s := by
  induction l generalizing s with
  | nil => rfl
  | cons g gs ih =>
    unfold placeGroups
    split
    · exact ih _
    · rfl

@[simp] theorem ledger_displace (need n : Nat) (x : State × Release) : ledger (displace need n x).1 = ledger x.1 := by
  induction n generalizing x with
  | zero => rfl
  | succ n ih =>
    unfold displace
    split
    · split
      · exact (ih _).trans (by simp)
      · rfl
    · rfl

@[simp] theorem ledger_theftPurge (s : State) (c : TheftCause) (set : List RangeIx) :
    ledger (theftPurge s c set).1 = ledger s := by
  unfold theftPurge
  split
  · simp
  · rfl

@[simp] theorem ledger_issueTheft (s : State) (chain : List (StoreOp × Done)) : ledger (issueTheft s chain) = ledger s := by
  unfold issueTheft
  split
  · rfl
  · exact ledger_issue _ _

@[simp] theorem ledger_theftStored (s : State) (set : List RangeIx) : ledger (theftStored s set) = ledger s := by
  unfold theftStored
  refine (ledger_foldl (fun s r => ?_) _ _).trans rfl
  split <;> simp

@[simp] theorem ledger_forgetRange (r : RangeIx) (s : State) (j : JobNo) : ledger (forgetRange r s j) = ledger s := by
  unfold forgetRange
  split
  · split
    · dsimp only
      split <;> simp
    · rfl
  · rfl

/-! ## Start-up -/

@[simp] theorem ledger_setPhase (s : State) (p : Phase) : ledger (setPhase s p) = ledger s := by
  unfold setPhase
  exact congrArg (fun b => { ledger s with starting := b }) Option.isSome_map

@[simp] theorem ledger_setRecovery (s : State) (v : Option Recovery) : ledger (setRecovery s v) = ledger s := by
  unfold setRecovery
  exact congrArg (fun b => { ledger s with starting := b }) Option.isSome_map

@[simp] theorem ledger_startRecovery (s : State) (r : RangeIx) (g : Staged) : ledger (startRecovery s r g) = ledger s := by
  unfold startRecovery
  rw [ledger_foldl (fun s x => by unfold askStaged; exact ledger_askTag rfl), ledger_setRecovery]

@[simp] theorem ledger_storeRecovery (s : State) (v : Recovery) : ledger (storeRecovery s v) = ledger s := by
  simp [storeRecovery]

@[simp] theorem ledger_recoveryAnswer (s : State) (v : Recovery) (x : Run) (write again : Bool) (sent : List Block)
    (a : Answer) : ledger (recoveryAnswer s v x write again sent a) = ledger s := by
  unfold recoveryAnswer
  dsimp only
  split
  · exact ledger_askTag rfl
  · simp
  · split
    · simp
    · exact ledger_askTag rfl
  · split
    · simp
    · exact ledger_askTag rfl
  · simp

@[simp] theorem ledger_passIntent (x : State × List (StoreOp × Done)) (e : Intent) :
    ledger (passIntent x e).1 = ledger x.1 := by
  unfold passIntent
  dsimp only
  split <;> rfl

@[simp] theorem ledger_intentPass (s : State) : ledger (intentPass s) = ledger s := by
  unfold intentPass
  rw [ledger_issue, ledger_foldlFst ledger_passIntent]

@[simp] theorem ledger_lockedStartCheck (s : State) : ledger (lockedStartCheck s).2 = ledger s := by
  unfold lockedStartCheck
  split <;> rfl

@[simp] theorem ledger_pauseRunning (s : State) : ledger (pauseRunning s) = ledger s := by
  unfold pauseRunning
  split
  · split <;> simp
  · rfl

end Sys2Proof.Machine
end

section
/-! The law of the ledger (O7): where the segments stand, what each slot's count is, what the entries may name, and what is held
for the request in service; and the changes of the ledger that keep it. -/

namespace Sys2Proof.Machine

/-! ## References -/

/-- How often an entry names a slot. -/
def mentions (e : Naming) (i : SlotIx) : Nat := (if e.slot = some i then 1 else 0) + if e.next = some (some i) then 1 else 0

/-- How often entries name a slot. -/
def totalNamings (entries : RangeIx → Naming) (i : SlotIx) : Nat := ∑ r, mentions (entries r) i

/-- How many segments that have not retired are bound to a slot. -/
def bindings (l : List Segment) (i : SlotIx) : Nat := l.countP (fun g => g.state ≠ .retired && g.slot = some i)

/-- How many bindings a chunk has to a slot. -/
def chunkRefs (c : Option Chunk) (i : SlotIx) : Nat :=
  match c with
  | some c => [c.curSlot, c.nextSlot].count (some i)
  | none => 0

/-- One reference to a slot that may be absent. -/
def oneRef (k : Option SlotIx) (i : SlotIx) : Nat := if k = some i then 1 else 0

theorem namings_eq (s : State) (i : SlotIx) : namings s i = totalNamings (ledger s).entries i := by
  have hl : allRanges = List.finRange 16 := by decide
  have h : ∀ l : List RangeIx, (l.map (fun r => mentions (namingOf s.ranges[r]) i)).sum =
      l.countP (fun r => s.ranges[r].slot = some i) + l.countP (fun r => nextSlotOf s.ranges[r] = some i) := by
    intro l
    induction l with
    | nil => rfl
    | cons r l ih =>
      rw [List.map_cons, List.sum_cons, ih, List.countP_cons, List.countP_cons]
      have hn : ((namingOf s.ranges[r]).next = some (some i)) = (nextSlotOf s.ranges[r] = some i) := by
        unfold namingOf nextSlotOf
        cases s.ranges[r].mig <;> simp
      have hm : mentions (namingOf s.ranges[r]) i = (if s.ranges[r].slot = some i then 1 else 0) +
          if nextSlotOf s.ranges[r] = some i then 1 else 0 := by
        unfold mentions
        simp only [hn]
        rfl
      simp only [hm, decide_eq_true_eq]
      omega
  rw [namings, hl, ← h, totalNamings, Fin.sum_univ_def]
  rfl

theorem totalNamings_update (entries : RangeIx → Naming) (r : RangeIx) (e : Naming) (i : SlotIx) :
    totalNamings (Function.update entries r e) i + mentions (entries r) i = totalNamings entries i + mentions e i := by
  unfold totalNamings
  have h : ∀ q, mentions (Function.update entries r e q) i =
      Function.update (fun q => mentions (entries q) i) r (mentions e i) q := by
    intro q
    rw [Function.update_apply, Function.update_apply]
    split <;> rfl
  rw [Finset.sum_congr rfl fun q _ => h q, Finset.sum_update_of_mem (Finset.mem_univ r),
    ← Finset.add_sum_erase Finset.univ (fun q => mentions (entries q) i) (Finset.mem_univ r), Finset.sdiff_singleton_eq_erase]
  omega

theorem mentions_le_totalNamings (entries : RangeIx → Naming) (r : RangeIx) (i : SlotIx) :
    mentions (entries r) i ≤ totalNamings entries i :=
  Finset.single_le_sum (f := fun q => mentions (entries q) i) (fun _ _ => Nat.zero_le _) (Finset.mem_univ r)

/-! ## One slot -/

/-- The law of a slot that entries name `n` times and that has `b` other references; `zero` marks slot 0. -/
structure SlotLaw (x : Slot) (zero : Bool) (n b : Nat) : Prop where
  counted : x.count = n + b
  once    : n ≤ 1
  named   : n = 1 → zero = false ∧ x.state = .loaded ∧ x.held = false
  inUse   : zero = false → x.state = .loaded → x.held = false → n = 1
  waits   : x.state = .pendingZero → 0 < x.count
  clean   : slotClean x = true
  held    : x.held = true → zero = false ∧ x.state = .loaded ∧ n + b = 0

theorem emptySlot_law (zero : Bool) : SlotLaw emptySlot zero 0 0 :=
  ⟨rfl, Nat.zero_le _, nofun, nofun, nofun, rfl, nofun⟩

theorem slotClean_of_state {x : Slot} (h : x.state ≠ .empty) : slotClean x = true := by
  simp [slotClean, h]

theorem eq_emptySlot_of_clean {x : Slot} (h : slotClean x = true) (he : x.state = .empty) : x = emptySlot := by
  obtain ⟨state, key, owner, role, held, count⟩ := x
  simp_all [slotClean, emptySlot]

theorem SlotLaw.empty {x : Slot} {zero : Bool} {n b : Nat} (h : SlotLaw x zero n b) (he : x.state = .empty) :
    x = emptySlot ∧ n = 0 ∧ b = 0 := by
  have hx := eq_emptySlot_of_clean h.clean he
  have hc := h.counted
  rw [hx] at hc
  have : n + b = 0 := hc.symm
  exact ⟨hx, by omega, by omega⟩

/-- A LOADED slot that is not held takes one more binding. -/
theorem SlotLaw.bind {x : Slot} {zero : Bool} {n b : Nat} (h : SlotLaw x zero n b) (hl : x.state = .loaded)
    (hh : x.held = false) : SlotLaw { x with count := x.count + 1 } zero n (b + 1) where
  counted := by have := h.counted; simp only; omega
  once := h.once
  named := h.named
  inUse := h.inUse
  waits e := by rw [hl] at e; cases e
  clean := slotClean_of_state (by simp [hl])
  held e := by rw [hh] at e; cases e

/-- A slot after the drop of a reference. -/
def afterDrop (x : Slot) : Slot :=
  if x.state = .pendingZero && x.count ≤ 1 then emptySlot else { x with count := x.count - 1 }

theorem SlotLaw.drop {x : Slot} {zero : Bool} {n b : Nat} (h : SlotLaw x zero n (b + 1)) :
    SlotLaw (afterDrop x) zero n b := by
  have hc := h.counted
  unfold afterDrop
  split
  · rename_i e
    simp only [Bool.and_eq_true, decide_eq_true_eq] at e
    have : n = 0 ∧ b = 0 := by omega
    rw [this.1, this.2]
    exact emptySlot_law zero
  · rename_i e
    simp only [Bool.and_eq_true, decide_eq_true_eq, not_and, Nat.not_le] at e
    have hne : x.state ≠ .empty := fun he => absurd (h.empty he).2.2 (by omega)
    exact ⟨by simp only; omega, h.once, h.named, h.inUse, fun w => by have := e w; simp only; omega,
      slotClean_of_state hne, fun w => absurd (h.held w).2.2 (by omega)⟩

/-- A slot after a range has ceased to name it. -/
def afterRelease (x : Slot) : Slot :=
  if x.count ≤ 1 then emptySlot else { x with state := .pendingZero, count := x.count - 1 }

theorem SlotLaw.release {x : Slot} {zero : Bool} {n b : Nat} (h : SlotLaw x zero (n + 1) b) :
    SlotLaw (afterRelease x) zero n b := by
  have hc := h.counted
  have hn : n = 0 := by have := h.once; omega
  obtain ⟨-, hl, hh⟩ := h.named (by omega)
  subst hn
  unfold afterRelease
  split
  · have : b = 0 := by omega
    rw [this]
    exact emptySlot_law zero
  · exact ⟨by simp only; omega, Nat.zero_le _, nofun, nofun, fun _ => by simp only; omega,
      slotClean_of_state (by simp), fun w => by rw [hh] at w; cases w⟩

/-- A held slot that its range takes up. -/
theorem SlotLaw.takenUp {x : Slot} {zero : Bool} {n b : Nat} (h : SlotLaw x zero n b) (hh : x.held = true) :
    SlotLaw { x with held := false, count := x.count + 1 } zero (n + 1) b := by
  obtain ⟨hz, hl, h0⟩ := h.held hh
  have hc := h.counted
  exact ⟨by simp only; omega, by omega, fun _ => ⟨hz, hl, rfl⟩, fun _ _ _ => by omega,
    fun w => (nomatch hl.symm.trans w), slotClean_of_state (x := { x with held := false, count := x.count + 1 })
      (by simp [hl]), nofun⟩

/-- A held slot that is zeroed. -/
theorem SlotLaw.zeroed {x : Slot} {zero : Bool} {n b : Nat} (h : SlotLaw x zero n b) (hh : x.held = true) :
    SlotLaw emptySlot zero n b := by
  obtain ⟨-, -, h0⟩ := h.held hh
  have : n = 0 ∧ b = 0 := by omega
  rw [this.1, this.2]
  exact emptySlot_law zero

/-- A key placed in an EMPTY slot and held for the request in service. -/
theorem SlotLaw.placedHeld {x : Slot} {n b : Nat} (h : SlotLaw x false n b) (he : x.state = .empty) {key : Option Key}
    {o : Option (RangeIx × Gen)} {role : Option Role} : SlotLaw ⟨.loaded, key, o, role, true, 0⟩ false n b := by
  obtain ⟨-, rfl, rfl⟩ := h.empty he
  exact ⟨rfl, Nat.zero_le _, nofun, nofun, nofun, rfl, fun _ => ⟨rfl, rfl, rfl⟩⟩

/-- A key placed in an EMPTY slot and named at once. -/
theorem SlotLaw.placedNamed {x : Slot} {n b : Nat} (h : SlotLaw x false n b) (he : x.state = .empty) {key : Option Key}
    {o : Option (RangeIx × Gen)} {role : Option Role} : SlotLaw ⟨.loaded, key, o, role, false, 1⟩ false (n + 1) b := by
  obtain ⟨-, rfl, rfl⟩ := h.empty he
  exact ⟨rfl, Nat.le_refl _, fun _ => ⟨rfl, rfl, rfl⟩, fun _ _ _ => rfl, nofun, rfl, nofun⟩

/-- A slot that is not EMPTY may change its role and its owner. -/
theorem SlotLaw.relabelled {x : Slot} {zero : Bool} {n b : Nat} (h : SlotLaw x zero n b) (he : x.state ≠ .empty)
    {o : Option (RangeIx × Gen)} {role : Option Role} : SlotLaw { x with role := role, owner := o } zero n b :=
  ⟨h.counted, h.once, h.named, h.inUse, h.waits, slotClean_of_state he, h.held⟩

/-! ## The segments -/

/-- A segment of a number stands in a state. -/
def StandsAt (l : List Segment) (id : Nat) (st : SegState) : Prop := ∃ g ∈ l, g.id = id ∧ g.state = st

/-- A segment that waits for a lane, holds one, waits for a media tag or holds one stands in that state, and in that place
alone. -/
structure Places (segs : List Segment) (nextSeg : Nat) (wait : List Nat) (lanes : LaneIx → Option Nat) (asked : List Nat)
    (tags : MediaTag → Option Nat) : Prop where
  ids       : (segs.map (·.id)).Nodup
  below     : ∀ g ∈ segs, g.id < nextSeg
  waitOnce  : wait.Nodup
  waitAt    : ∀ id ∈ wait, StandsAt segs id .laneWait
  askedOnce : asked.Nodup
  askedAt   : ∀ id ∈ asked, StandsAt segs id .tagWait
  lanesOnce : ∀ l k id, lanes l = some id → lanes k = some id → l = k
  lanesAt   : ∀ l id, lanes l = some id → StandsAt segs id .inLane
  tagsOnce  : ∀ t u id, tags t = some id → tags u = some id → t = u
  tagsAt    : ∀ t id, tags t = some id → StandsAt segs id .onMedia

/-! ## The law -/

/-- What an entry may name: an entry that is FREE or DRAINING nothing, one with no migration in progress no next key; the finish
of a drain is of a DRAINING range, and a MIGRATING range has its record. -/
structure NamingOk (e : Naming) : Prop where
  idle      : e.active = false ∨ e.draining = true → e.slot = none ∧ e.next.join = none
  finishing : e.finishing = true → e.draining = true
  next      : e.next.join ≠ none → e.migrating = true
  migrating : e.migrating = true → e.next ≠ none

/-- The range of a RANGE.DEFINE in service is FREE, and that of a RANGE.REKEY is not MIGRATING. -/
structure DutyOk (d : Duty) (entries : RangeIx → Naming) : Prop where
  define : ∀ r, d = .define r → (entries r).active = false
  rekey  : ∀ r, d = .rekey r → (entries r).migrating = false

/-- Whether a next key may be held for a range: no STEADY or PURGING range with a migration record has one, but for a RANGE.REKEY. -/
def MayHold (d : Duty) (r : RangeIx) (e : Naming) : Prop :=
  e.migrating = true ∨ e.draining = true ∨ e.next = none ∨ d = .rekey r

/-- A next key is held for a range that may have one. -/
def HeldOk (d : Duty) (entries : RangeIx → Naming) (slots : SlotIx → Slot) : Prop :=
  ∀ i r g, (slots i).held = true → (slots i).role = some .next → (slots i).owner = some (r, g) → MayHold d r (entries r)

/-- A chunk that fills, or is a PURGE job's, has no binding. -/
def ChunkOk (c : Chunk) : Prop :=
  (c.kind = .purge ∨ c.phase = .fillWrite ∨ ∃ b, c.phase = .fillStore b) → c.curSlot = none ∧ c.nextSlot = none

/-- A stored record is not DRAINING, and a MIGRATING one has its migration record. -/
def RecordOk (x : RangeRecord) : Prop := x.cond ≠ .draining ∧ (x.cond = .migrating → x.mig ≠ none)

/-- Where the part stands: off, in start-up before the key phase, in start-up from the key phase on, or started. -/
inductive Mode
  | off | asleep | waking | awake

/-- Whether no key is loaded. -/
def Mode.dark : Mode → Prop
  | .off => True
  | .asleep => True
  | .waking => False
  | .awake => False

/-- Power and start-up are as the mode says. -/
def ModeOf (m : Mode) (powered starting : Bool) : Prop :=
  match m with
  | .off => powered = false ∧ starting = false
  | .asleep => powered = true ∧ starting = true
  | .waking => powered = true
  | .awake => powered = true ∧ starting = false

/-- The promise of the request in service, and the promise that still holds: a request that is carried out has none left. -/
structure Owing where
  served : Duty
  owed   : Duty

/-- The law of the ledger, with `x` references to each slot that nothing in it accounts for. -/
structure Lawful (m : Mode) (d : Owing) (x : SlotIx → Nat) (v : Ledger) : Prop where
  mode    : ModeOf m v.powered v.starting
  places  : Places v.segs v.nextSeg v.wait v.lanes v.asked v.tags
  slots   : ∀ i, SlotLaw (v.slots i) (i = 0) (totalNamings v.entries i) (bindings v.segs i + chunkRefs v.chunk i + x i)
  entries : ∀ r, NamingOk (v.entries r)
  served  : v.duty = d.served
  held    : HeldOk d.owed v.entries v.slots
  duty    : DutyOk d.owed v.entries
  chunk   : ∀ c, v.chunk = some c → ChunkOk c
  records : ∀ r : RangeIx, RecordOk v.records[r]
  zero    : ¬ m.dark → (v.slots 0).state = .loaded
  dark    : m.dark → v.still = true ∧ v.chunk = none ∧ ∀ i, v.slots i = emptySlot

/-- The law of the ledger gives that of the reference counts. -/
theorem Lawful.referencesCounted {m : Mode} {d : Owing} {s : State} (h : Lawful m d (fun _ => 0) (ledger s)) :
    ReferencesCounted s where
  counted i := by
    have hb : boundSegments s i = bindings (ledger s).segs i := rfl
    have hc : chunkBindings s i = chunkRefs (ledger s).chunk i := rfl
    have hs : s.slots[i] = (ledger s).slots i := rfl
    have h := (h.slots i).counted
    rw [namings_eq, hb, hc, hs]
    omega
  once i := by rw [namings_eq]; exact (h.slots i).once
  named i e := by
    rw [namings_eq] at e
    obtain ⟨hz, hl, hh⟩ := (h.slots i).named e
    exact ⟨by simpa using hz, hl, hh⟩
  inUse i hz hl hh := by
    rw [namings_eq]
    exact (h.slots i).inUse (by simpa using hz) hl hh
  waits i := (h.slots i).waits

section
variable {m : Mode} {d : Owing} {x y : SlotIx → Nat} {v : Ledger}

/-- A slot that an entry names is a media slot, LOADED and not held. -/
theorem Lawful.named (h : Lawful m d x v) {r : RangeIx} {i : SlotIx} (hr : 0 < mentions (v.entries r) i) :
    i ≠ 0 ∧ (v.slots i).state = .loaded ∧ (v.slots i).held = false := by
  have hn : totalNamings v.entries i = 1 := by
    have := mentions_le_totalNamings v.entries r i
    have := (h.slots i).once
    omega
  obtain ⟨hz, hl, hh⟩ := (h.slots i).named hn
  exact ⟨by simpa using hz, hl, hh⟩

/-- Nothing names a slot while no key is loaded. -/
theorem Lawful.not_named (h : Lawful m d x v) (hm : m.dark) (r : RangeIx) (i : SlotIx) : mentions (v.entries r) i = 0 := by
  by_contra hr
  have := (h.named (Nat.pos_of_ne_zero hr)).2.1
  rw [(h.dark hm).2.2 i] at this
  cases this

/-- An entry names nothing while no key is loaded. -/
theorem Lawful.names_none (h : Lawful m d x v) (hm : m.dark) (r : RangeIx) :
    (v.entries r).slot = none ∧ (v.entries r).next.join = none := by
  constructor
  · cases e : (v.entries r).slot with
    | none => rfl
    | some i => exact absurd (h.not_named hm r i) (by simp [mentions, e])
  · cases e : (v.entries r).next with
    | none => rfl
    | some o =>
      cases o with
      | none => rfl
      | some i => exact absurd (h.not_named hm r i) (by simp [mentions, e])

theorem Lawful.not_dark_of_state (h : Lawful m d x v) {i : SlotIx} (hi : (v.slots i).state ≠ .empty) : ¬ m.dark :=
  fun hm => hi (by rw [(h.dark hm).2.2 i]; rfl)

theorem Lawful.not_dark_of_chunk (h : Lawful m d x v) (hc : v.chunk ≠ none) : ¬ m.dark := fun hm => hc (h.dark hm).2.1

theorem DutyOk.nothing {entries : RangeIx → Naming} : DutyOk .nothing entries := ⟨nofun, nofun⟩

/-- A promise is met: that of a RANGE.REKEY, where a next key may be held for its range without it. -/
theorem Lawful.drop_duty (h : Lawful m d x v)
    (hd : ∀ r, d.owed = .rekey r → MayHold .nothing r (v.entries r)) : Lawful m ⟨d.served, .nothing⟩ x v :=
  { h with
    held := fun i r g hi hr ho => by
      rcases h.held i r g hi hr ho with e | e | e | e
      · exact .inl e
      · exact .inr (.inl e)
      · exact .inr (.inr (.inl e))
      · exact hd r e
    duty := .nothing }

/-- With nothing owed, the entries and the keys held meet any promise that the entries meet. -/
theorem Lawful.owe {e : Duty} (h : Lawful m ⟨e, .nothing⟩ x v) {p : Duty} (hp : DutyOk p v.entries) :
    Lawful m ⟨e, p⟩ x v :=
  { h with
    held := fun i q g hi hq ho => by
      rcases h.held i q g hi hq ho with k | k | k | k
      · exact .inl k
      · exact .inr (.inl k)
      · exact .inr (.inr (.inl k))
      · cases k
    duty := hp }

/-- The request in service changes what it waits for, or ends. -/
theorem Lawful.reserve (h : Lawful m d x v) {b : Bool} {p : Duty} (hb : m.dark → b = true) :
    Lawful m ⟨p, d.owed⟩ x { v with still := b, duty := p } :=
  { h with
    served := rfl
    dark := fun k => ⟨hb k, (h.dark k).2⟩ }

theorem Lawful.restill (h : Lawful m d x v) {b : Bool} (hb : m.dark → b = true) : Lawful m d x { v with still := b } :=
  { h with dark := fun hm => ⟨hb hm, (h.dark hm).2⟩ }

/-- The chunk changes, and with it the references that nothing accounts for. -/
theorem Lawful.rechunk (h : Lawful m d x v) {c : Option Chunk} (hr : ∀ i, chunkRefs c i + y i = chunkRefs v.chunk i + x i)
    (hm : m.dark → c = none) (hc : ∀ b, c = some b → ChunkOk b) : Lawful m d y { v with chunk := c } :=
  { h with
    slots := fun i => by
      have e : bindings v.segs i + chunkRefs v.chunk i + x i = bindings v.segs i + chunkRefs c i + y i := by
        have := hr i; omega
      exact e ▸ h.slots i
    chunk := hc
    dark := fun k => ⟨(h.dark k).1, hm k, (h.dark k).2.2⟩ }

/-- The segments and their places change, and with them the references that nothing accounts for. -/
theorem Lawful.resegs (h : Lawful m d x v) {segs : List Segment} {nextSeg : Nat} {wait asked : List Nat}
    {lanes : LaneIx → Option Nat} {tags : MediaTag → Option Nat} (hp : Places segs nextSeg wait lanes asked tags)
    (hb : ∀ i, bindings segs i + y i = bindings v.segs i + x i) :
    Lawful m d y { v with
      segs := segs, nextSeg := nextSeg, wait := wait, lanes := lanes, asked := asked, tags := tags } :=
  { h with
    places := hp
    slots := fun i => by
      have e : bindings v.segs i + chunkRefs v.chunk i + x i = bindings segs i + chunkRefs v.chunk i + y i := by
        have := hb i; omega
      exact e ▸ h.slots i }

/-- One slot changes, with its references and its namings by entry `r`. -/
theorem Lawful.reslot (h : Lawful m d x v) (hm : ¬ m.dark) {k : SlotIx} {z : Slot} {r : RangeIx} {e : Naming}
    (hk : SlotLaw z (k = 0) (totalNamings (Function.update v.entries r e) k)
      (bindings v.segs k + chunkRefs v.chunk k + y k))
    (hi : ∀ i, i ≠ k → mentions e i = mentions (v.entries r) i ∧ y i = x i)
    (he : NamingOk e) (hz : k = 0 → z.state = .loaded)
    (hheld : z.held = true → z.role = some .next → ∀ q g, z.owner = some (q, g) →
      MayHold d.owed q (Function.update v.entries r e q))
    (hmay : MayHold d.owed r (v.entries r) → MayHold d.owed r e) (hd : DutyOk d.owed (Function.update v.entries r e)) :
    Lawful m d y { v with entries := Function.update v.entries r e, slots := Function.update v.slots k z } :=
  { h with
    slots := fun i => by
      dsimp only
      by_cases hik : i = k
      · subst hik
        rw [Function.update_self]
        exact hk
      · obtain ⟨hn, hx⟩ := hi i hik
        have := totalNamings_update v.entries r e i
        have e : totalNamings (Function.update v.entries r e) i = totalNamings v.entries i := by omega
        rw [Function.update_of_ne hik, e, hx]
        exact h.slots i
    entries := fun q => by
      dsimp only
      rw [Function.update_apply]
      split
      · exact he
      · exact h.entries q
    held := fun i q g hh hr ho => by
      dsimp only at hh hr ho ⊢
      rw [Function.update_apply] at hh hr ho
      split at hh
      · rename_i hik
        rw [if_pos hik] at hr ho
        exact hheld hh hr q g ho
      · rename_i hik
        rw [if_neg hik] at hr ho
        have := h.held i q g hh hr ho
        rw [Function.update_apply]
        split
        · rename_i hq
          subst hq
          exact hmay this
        · exact this
    duty := hd
    zero := fun _ => by
      dsimp only
      rw [Function.update_apply]
      split
      · rename_i hk
        exact hz hk.symm
      · exact h.zero hm
    dark := fun k => absurd k hm }

/-- The entries change with no change of the slots. -/
theorem Lawful.reentry (h : Lawful m d x v) {r : RangeIx} {e : Naming} (hi : ∀ i, mentions e i = mentions (v.entries r) i)
    (he : NamingOk e) (hmay : MayHold d.owed r (v.entries r) → MayHold d.owed r e)
    (hd : DutyOk d.owed (Function.update v.entries r e)) :
    Lawful m d x { v with entries := Function.update v.entries r e } :=
  { h with
    slots := fun i => by
      have := totalNamings_update v.entries r e i
      have e : totalNamings (Function.update v.entries r e) i = totalNamings v.entries i := by have := hi i; omega
      dsimp only
      rw [e]
      exact h.slots i
    entries := fun q => by
      dsimp only
      rw [Function.update_apply]
      split
      · exact he
      · exact h.entries q
    held := fun i q g hh hr ho => by
      have := h.held i q g hh hr ho
      dsimp only
      rw [Function.update_apply]
      split
      · rename_i hq
        subst hq
        exact hmay this
      · exact this
    duty := hd }

/-- One slot changes, with the references that nothing accounts for, and no entry. -/
theorem Lawful.reslot_only (h : Lawful m d x v) (hm : ¬ m.dark) {k : SlotIx} {z : Slot}
    (hk : SlotLaw z (k = 0) (totalNamings v.entries k) (bindings v.segs k + chunkRefs v.chunk k + y k))
    (hi : ∀ i, i ≠ k → y i = x i) (hz : k = 0 → z.state = .loaded)
    (hheld : z.held = true → z.role = some .next → ∀ q g, z.owner = some (q, g) → MayHold d.owed q (v.entries q)) :
    Lawful m d y { v with slots := Function.update v.slots k z } := by
  have hself : Function.update v.entries 0 (v.entries 0) = v.entries := Function.update_eq_self 0 v.entries
  have := h.reslot hm (k := k) (z := z) (r := 0) (e := v.entries 0) (y := y) (by rw [hself]; exact hk)
    (fun i hik => ⟨rfl, hi i hik⟩) (h.entries 0) hz (by rw [hself]; exact hheld) id (by rw [hself]; exact h.duty)
  rw [hself] at this
  exact this

end

end Sys2Proof.Machine
end

section
/-! The operations on key slots and on what the entries name keep the law of the ledger (O7). -/

namespace Sys2Proof.Machine

section
variable {m : Mode} {d : Owing} {x : SlotIx → Nat} {v : Ledger} {s : State}

theorem mentions_eq (e : Naming) (i : SlotIx) : mentions e i = oneRef e.slot i + oneRef e.next.join i := by
  unfold mentions oneRef
  cases e.next <;> simp

theorem namingOf_next (y : RangeEntry) : (namingOf y).next.join = nextSlotOf y := by
  unfold namingOf nextSlotOf
  cases y.mig <;> rfl

theorem DutyOk.update {p : Duty} {entries : RangeIx → Naming} (h : DutyOk p entries) {r : RangeIx} {e : Naming}
    (ha : (entries r).active = false → e.active = false) (hg : (entries r).migrating = false → e.migrating = false) :
    DutyOk p (Function.update entries r e) where
  define q hq := by
    rw [Function.update_apply]
    split
    · rename_i k
      subst k
      exact ha (h.define _ hq)
    · exact h.define q hq
  rekey q hq := by
    rw [Function.update_apply]
    split
    · rename_i k
      subst k
      exact hg (h.rekey _ hq)
    · exact h.rekey q hq

/-! ## References -/

/-- Binding a LOADED slot that is not held leaves a reference to be accounted for. -/
theorem Lawful.bindSlot (h : Lawful m d x (ledger s)) {i : SlotIx} (hl : s.slots[i].state = .loaded)
    (hh : s.slots[i].held = false) : Lawful m d (fun k => x k + oneRef (some i) k) (ledger (bindSlot s i)) := by
  unfold Machine.bindSlot
  rw [ledger_modSlot_eq, if_pos hl]
  refine h.reslot_only (h.not_dark_of_state (i := i) (by simp [ledger, hl, -Fin.getElem_fin])) ?_ (fun k hk => ?_)
    (fun _ => hl) (fun w => ?_)
  · have := (h.slots i).bind hl hh
    simp only [oneRef, if_true, ← Nat.add_assoc]
    exact this
  · simp [oneRef, Ne.symm hk]
  · rw [show s.slots[i].held = true from w] at hh
    cases hh

theorem Lawful.bindOpt (h : Lawful m d x (ledger s)) {o : Option SlotIx}
    (ho : ∀ i, o = some i → s.slots[i].state = .loaded ∧ s.slots[i].held = false) :
    Lawful m d (fun k => x k + oneRef o k) (ledger (Machine.bindOpt s o)) := by
  cases o with
  | none => exact h
  | some i => exact h.bindSlot (ho i rfl).1 (ho i rfl).2

/-- The drop of a reference that nothing else accounts for. -/
theorem Lawful.dropOpt {o : Option SlotIx} (h : Lawful m d (fun k => x k + oneRef o k) (ledger s)) :
    Lawful m d x (ledger (dropOpt s o)) := by
  cases o with
  | none => exact h
  | some i =>
    have hs := h.slots i
    have hd : SlotLaw (afterDrop ((ledger s).slots i)) (i = 0) (totalNamings (ledger s).entries i)
        (bindings (ledger s).segs i + chunkRefs (ledger s).chunk i + x i) := by
      refine SlotLaw.drop ?_
      simpa only [oneRef, if_true, Nat.add_assoc] using hs
    have hc : 0 < ((ledger s).slots i).count := by
      have := hs.counted
      simp only [oneRef, if_true] at this
      omega
    have hm : ¬ m.dark := fun k => by
      rw [(h.dark k).2.2 i] at hc
      exact absurd hc (by decide)
    show Lawful m d x (ledger (modSlot s i afterDrop))
    rw [ledger_modSlot_eq]
    refine h.reslot_only hm hd (fun k hk => by simp [oneRef, Ne.symm hk]) (fun hi => ?_) (fun w => ?_)
    · have hl : s.slots[i].state = .loaded := by rw [hi]; exact h.zero hm
      simp [afterDrop, hl, -Fin.getElem_fin]
    · have hh : ((ledger s).slots i).held = true := by
        change (afterDrop ((ledger s).slots i)).held = true at w
        unfold afterDrop at w
        split at w
        · cases w
        · exact w
      have := (hs.held hh).2.2
      simp only [oneRef, if_true] at this
      omega

/-! ## Names -/

/-- A ledger after a slot has ceased to be named. -/
def Ledger.release (v : Ledger) : Option SlotIx → Ledger
  | some i => { v with slots := Function.update v.slots i (afterRelease (v.slots i)) }
  | none => v

theorem ledger_releaseOpt (s : State) (o : Option SlotIx) : ledger (releaseOpt s o) = (ledger s).release o := by
  cases o with
  | none => rfl
  | some i => exact ledger_modSlot_eq s i _

/-- An entry ceases to name a slot. -/
theorem Lawful.release (h : Lawful m d x v) {o : Option SlotIx} {r : RangeIx} {e : Naming}
    (hi : ∀ i, mentions (v.entries r) i = mentions e i + oneRef o i) (he : NamingOk e)
    (hmay : MayHold d.owed r (v.entries r) → MayHold d.owed r e) (hd : DutyOk d.owed (Function.update v.entries r e)) :
    Lawful m d x { v.release o with entries := Function.update v.entries r e } := by
  cases o with
  | none => exact h.reentry (fun i => (hi i).symm) he hmay hd
  | some k =>
    have hk := hi k
    simp only [oneRef, if_true] at hk
    obtain ⟨hz, hl, hh⟩ := h.named (r := r) (i := k) (by omega)
    have hu := totalNamings_update v.entries r e k
    have hs := h.slots k
    rw [show totalNamings v.entries k = totalNamings (Function.update v.entries r e) k + 1 by omega] at hs
    refine h.reslot (h.not_dark_of_state (i := k) (by simp [hl])) hs.release (fun i hik => ⟨?_, rfl⟩) he
      (fun e => absurd e hz) (fun w => ?_) hmay hd
    · have := hi i
      simp only [oneRef, Option.some.injEq, Ne.symm hik, if_false] at this
      omega
    · have : (v.slots k).held = true := by
        unfold afterRelease at w
        split at w
        · cases w
        · exact w
      rw [hh] at this
      cases this

/-- An entry that names nothing. -/
def Naming.bare (e : Naming) : Naming := { e with slot := none, next := e.next.map (fun _ => none) }

theorem NamingOk.bare {e : Naming} (h : NamingOk e) : NamingOk e.bare where
  idle _ := ⟨rfl, by unfold Naming.bare; cases e.next <;> rfl⟩
  finishing := h.finishing
  next k := absurd (show e.bare.next.join = none by unfold Naming.bare; cases e.next <;> rfl) k
  migrating k := by
    have := h.migrating k
    unfold Naming.bare
    cases hn : e.next with
    | none => exact absurd hn this
    | some o => simp

/-- An entry without its current slot. -/
def Naming.noSlot (e : Naming) : Naming := { e with slot := none }

theorem NamingOk.noSlot {e : Naming} (h : NamingOk e) : NamingOk e.noSlot :=
  ⟨fun k => ⟨rfl, (h.idle k).2⟩, h.finishing, h.next, h.migrating⟩

theorem mentions_noSlot (e : Naming) (i : SlotIx) : mentions e i = mentions e.noSlot i + oneRef e.slot i := by
  simp only [mentions_eq, Naming.noSlot, oneRef]
  simp [Nat.add_comm]

theorem mentions_bare (e : Naming) (i : SlotIx) : mentions e.bare i = 0 := by
  unfold mentions Naming.bare
  cases e.next <;> simp

theorem mayHold_bare {p : Duty} {r : RangeIx} {e : Naming} (h : MayHold p r e) : MayHold p r e.bare := by
  rcases h with h | h | h | h
  · exact .inl h
  · exact .inr (.inl h)
  · exact .inr (.inr (.inl (by simp [Naming.bare, h])))
  · exact .inr (.inr (.inr h))

theorem releaseOpt_ranges (s : State) (o : Option SlotIx) : (releaseOpt s o).ranges = s.ranges := by
  rw [releaseOpt_eq]

theorem releaseNames_entry (s : State) (r : RangeIx) : (releaseNames s r).ranges[r] =
    { s.ranges[r] with slot := none, mig := s.ranges[r].mig.map (fun m => { m with nextSlot := none }) } := by
  unfold releaseNames
  dsimp only
  rw [modRange_ranges, if_pos rfl, releaseOpt_ranges, releaseOpt_ranges]

/-- A range that ceases to name its slots changes to an entry that names none. -/
theorem Lawful.bareEntry (h : Lawful m d x (ledger s)) {r : RangeIx} {f : RangeEntry → RangeEntry} {e : Naming}
    (hf : namingOf (f (releaseNames s r).ranges[r]) = e) (hz : ∀ i, mentions e i = 0) (he : NamingOk e)
    (hmay : MayHold d.owed r (namingOf s.ranges[r]).bare → MayHold d.owed r e)
    (ha : s.ranges[r].active = false → e.active = false)
    (hg : (namingOf s.ranges[r]).migrating = false → e.migrating = false) :
    Lawful m d x (ledger (modRange (releaseNames s r) r f)) := by
  have h1 : Lawful m d x { (ledger s).release s.ranges[r].slot with
      entries := Function.update (ledger s).entries r (namingOf s.ranges[r]).noSlot } :=
    h.release (fun i => mentions_noSlot (namingOf s.ranges[r]) i) (h.entries r).noSlot id
      (h.duty.update id id)
  have hself : Function.update (ledger s).entries r (namingOf s.ranges[r]).noSlot r = (namingOf s.ranges[r]).noSlot :=
    Function.update_self ..
  have h2 := h1.release (o := nextSlotOf s.ranges[r]) (r := r) (e := e) (fun i => by
      simp only [Function.update_self, mentions_eq, Naming.noSlot, namingOf_next]
      have := hz i
      rw [mentions_eq] at this
      simp only [oneRef] at this ⊢
      simp only [reduceCtorEq, if_false]
      omega) he
    (fun k => hmay (mayHold_bare (hself.subst (motive := fun e => MayHold d.owed r e) k)))
    (h1.duty.update (fun k => ha (hself.subst (motive := fun e => e.active = false) k))
      (fun k => hg (hself.subst (motive := fun e => e.migrating = false) k)))
  have e : ledger (modRange (releaseNames s r) r f) =
      { ({ (ledger s).release s.ranges[r].slot with
          entries := Function.update (ledger s).entries r (namingOf s.ranges[r]).noSlot } : Ledger).release
            (nextSlotOf s.ranges[r]) with
        entries := Function.update (Function.update (ledger s).entries r (namingOf s.ranges[r]).noSlot) r e } := by
    rw [ledger_modRange_eq, hf, Machine.releaseNames]
    dsimp only
    rw [ledger_modRange_eq, ledger_releaseOpt, ledger_releaseOpt, Function.update_idem, Function.update_idem]
    cases s.ranges[r].slot <;> cases nextSlotOf s.ranges[r] <;> rfl
  rw [e]
  exact h2

theorem Lawful.releaseNames (h : Lawful m d x (ledger s)) (r : RangeIx) : Lawful m d x (ledger (releaseNames s r)) := by
  have e : modRange (Machine.releaseNames s r) r id = Machine.releaseNames s r := by
    unfold modRange
    simp
  rw [← e]
  refine h.bareEntry (e := (namingOf s.ranges[r]).bare) ?_ (mentions_bare _) (h.entries r).bare id id id
  rw [releaseNames_entry]
  simp [namingOf, Naming.bare, Option.map_map, Function.comp_def]

end

end Sys2Proof.Machine
end

section
/-! The placing, the holding and the taking up of keys, and the changes of range entries, keep the law of the ledger (O7). -/

namespace Sys2Proof.Machine

section
variable {m : Mode} {d : Owing} {x : SlotIx → Nat} {s : State}

/-! ## Locks, drains and the freeing of an entry -/

theorem ledger_lockRange_tail (s : State) (r : RangeIx) (e : Event) :
    ledger (raise (if s.ranges[r].cond = .migrating then lockJob s r else s) e) = ledger s := by
  rw [ledger_raise]
  split <;> simp

theorem Lawful.lockRange (h : Lawful m d x (ledger s)) (cause : LockCause) (r : RangeIx) :
    Lawful m d x (ledger (lockRange cause s r)) := by
  unfold Machine.lockRange
  split
  · dsimp only
    rw [ledger_lockRange_tail, ledger_modRange rfl]
    exact h.releaseNames r
  · exact h

theorem Lawful.lockProcedure (h : Lawful m d x (ledger s)) (set : List RangeIx) (cause : LockCause) :
    Lawful m d x (ledger (lockProcedure s set cause)) := by
  unfold Machine.lockProcedure
  induction allRanges.filter set.contains generalizing s with
  | nil => exact h
  | cons r l ih => exact ih (h.lockRange cause r)

theorem Lawful.makeDraining {p : State × Release} (h : Lawful m d x (ledger p.1)) (set : List RangeIx) (r : RangeIx) :
    Lawful m d x (ledger (makeDraining set p r).1) := by
  unfold Machine.makeDraining
  rw [ledger_wipeJobs]
  refine h.bareEntry (e := { (namingOf p.1.ranges[r]).bare with draining := true, migrating := false }) ?_
    (mentions_bare _) ?_ (fun _ => .inr (.inl rfl)) id (fun _ => rfl)
  · rw [releaseNames_entry]
    simp [namingOf, Naming.bare, Option.map_map, Function.comp_def]
  · have hb := (h.entries r).bare.idle
    have hn : (namingOf p.1.ranges[r]).bare.next.join = none := by
      unfold Naming.bare
      cases (namingOf p.1.ranges[r]).next <;> rfl
    exact ⟨fun _ => ⟨rfl, hn⟩, fun _ => rfl, fun k => absurd hn k, nofun⟩

theorem Lawful.makeDrainings {p : State × Release} (h : Lawful m d x (ledger p.1)) (set l : List RangeIx) :
    Lawful m d x (ledger (l.foldl (Machine.makeDraining set) p).1) := by
  induction l generalizing p with
  | nil => exact h
  | cons r l ih =>
    rw [List.foldl_cons]
    exact ih (h.makeDraining set r)

theorem ledger_intents (s : State) (l : List Intent) : ledger { s with intents := l } = ledger s := rfl

theorem Lawful.theftTrigger (h : Lawful m d x (ledger s)) (cause : TheftCause) :
    Lawful m d x (ledger (theftTrigger s cause).1) := by
  unfold Machine.theftTrigger
  dsimp only
  rw [ledger_issueEach, ledger_intents, ledger_theftPurge]
  refine Lawful.makeDrainings ?_ _ _
  rw [ledger_raise]
  exact h

theorem Lawful.commitRange {p : State × Release} (h : Lawful m d x (ledger p.1)) (set : List RangeIx) (r : RangeIx) :
    Lawful m d x (ledger (commitRange set p r).1) := by
  have hy : Lawful m d x (ledger (if p.1.ranges[r].cond = .draining then p else Machine.makeDraining set p r).1) := by
    split
    · exact h
    · exact h.makeDraining set r
  unfold Machine.commitRange
  dsimp only
  split
  · rw [ledger_raise]
    exact hy
  · exact hy

theorem Lawful.commitStored (h : Lawful m d x (ledger s)) (set : List RangeIx) (o : Option PurgeOpt) :
    Lawful m d x (ledger (commitStored s set o).1) := by
  have hf : ∀ (l : List RangeIx) (p : State × Release), Lawful m d x (ledger p.1) →
      Lawful m d x (ledger (l.foldl (Machine.commitRange set) p).1) := by
    intro l
    induction l with
    | nil => exact fun _ hp => hp
    | cons r l ih => exact fun p hp => ih _ (hp.commitRange set r)
  unfold Machine.commitStored
  dsimp only
  split
  · rw [ledger_placeGroups]
    exact hf _ _ h
  · exact hf _ _ h

theorem Lawful.deleteRange (h : Lawful m d x (ledger s)) (r : RangeIx) : Lawful m d x (ledger (deleteRange s r)) := by
  unfold Machine.deleteRange
  rw [ledger_foldl (ledger_forgetRange r)]
  exact h.bareEntry (e := ⟨false, false, false, none, none, false⟩) (f := freedEntry) rfl (fun _ => rfl)
    ⟨fun _ => ⟨rfl, rfl⟩, nofun, fun k => absurd rfl k, nofun⟩ (fun _ => .inr (.inr (.inl rfl))) (fun _ => rfl)
    (fun _ => rfl)

/-- A change of an entry that leaves what it names, whether it is FREE, and whether it has a migration in progress. -/
theorem Lawful.modRange (h : Lawful m d x (ledger s)) {r : RangeIx} {f : RangeEntry → RangeEntry}
    (hs : (f s.ranges[r]).slot = s.ranges[r].slot) (hn : nextSlotOf (f s.ranges[r]) = nextSlotOf s.ranges[r])
    (he : NamingOk (namingOf (f s.ranges[r])))
    (hmay : MayHold d.owed r (namingOf s.ranges[r]) → MayHold d.owed r (namingOf (f s.ranges[r])))
    (ha : s.ranges[r].active = false → (f s.ranges[r]).active = false)
    (hg : (namingOf s.ranges[r]).migrating = false → (namingOf (f s.ranges[r])).migrating = false) :
    Lawful m d x (ledger (modRange s r f)) := by
  rw [ledger_modRange_eq]
  refine h.reentry (fun i => ?_) he hmay (h.duty.update ha hg)
  show mentions (namingOf (f s.ranges[r])) i = mentions (namingOf s.ranges[r]) i
  rw [mentions_eq, mentions_eq, namingOf_next, namingOf_next, hn, namingOf, namingOf, hs]

/-- The finish of a drain begins. -/
theorem Lawful.startDrainFinish (h : Lawful m d x (ledger s)) {r : RangeIx} (hr : s.ranges[r].cond = .draining) :
    Lawful m d x (ledger (startDrainFinish s r)) := by
  unfold Machine.startDrainFinish
  split
  · dsimp only
    rw [ledger_issue]
    have hs : Lawful m d x (ledger (takeKey s).2) := h
    have he := h.entries r
    refine hs.modRange rfl rfl ⟨he.idle, fun _ => ?_, he.next, he.migrating⟩ id id id
    simp [namingOf, takeKey, hr, -Fin.getElem_fin]
  · exact h

theorem startDrainFinish_cond (s : State) (r q : RangeIx) :
    (startDrainFinish s r).ranges[q].cond = s.ranges[q].cond := by
  have hi : ∀ (u : State) l, (issue u l).ranges = u.ranges := fun u l => by cases l <;> rfl
  unfold startDrainFinish
  split
  · dsimp only
    rw [hi, modRange_ranges]
    split
    · rename_i e
      rw [e]
      rfl
    · rfl
  · rfl

theorem Lawful.startDrainFinishes (h : Lawful m d x (ledger s)) (l : List RangeIx)
    (hl : ∀ r ∈ l, s.ranges[r].cond = .draining) : Lawful m d x (ledger (l.foldl Machine.startDrainFinish s)) := by
  induction l generalizing s with
  | nil => exact h
  | cons r l ih =>
    exact ih (h.startDrainFinish (hl r (by simp))) fun q hq => by
      rw [startDrainFinish_cond]
      exact hl q (by simp [hq])

/-! ## Taking keys up -/

theorem Lawful.zeroHeld (h : Lawful m d x (ledger s)) {i : SlotIx} (hh : s.slots[i].held = true) :
    Lawful m d x (ledger (modSlot s i (fun _ => emptySlot))) := by
  rw [ledger_modSlot_eq]
  have hi := (h.slots i).held hh
  refine h.reslot_only (h.not_dark_of_state (i := i) (by simp [hi.2.1])) ((h.slots i).zeroed hh) (fun _ _ => rfl)
    (fun e => ?_) nofun
  exact absurd hi.1 (by simp [e])

theorem canTake_iff (s : State) (r : RangeIx) (role : Role) : canTake s r role = true ↔
    (namingOf s.ranges[r]).active = true ∧ (namingOf s.ranges[r]).draining = false ∧
      match role with
      | .current => (namingOf s.ranges[r]).slot = none
      | .next => (namingOf s.ranges[r]).next = some none := by
  unfold canTake namingOf nextSlotOf
  cases role
  · simp [and_assoc]
  · cases s.ranges[r].mig <;> simp [and_assoc]

/-- The naming of an entry that takes up a slot in a role. -/
def Naming.take (e : Naming) (role : Role) (i : SlotIx) : Naming :=
  match role with
  | .current => { e with slot := some i }
  | .next => { e with next := e.next.map (fun _ => some i) }

theorem ledger_nameSlot (s : State) (r : RangeIx) (role : Role) (i : SlotIx) : ledger (nameSlot s r role i) =
    { ledger s with entries := Function.update (ledger s).entries r ((namingOf s.ranges[r]).take role i) } := by
  cases role
  · exact ledger_modRange_eq s r _
  · unfold nameSlot
    rw [ledger_modRange_eq]
    simp only [namingOf, Naming.take, Option.map_map, Function.comp_def]

/-- An entry that has not the role, and so can take a slot in it. -/
structure CanName (e : Naming) (role : Role) : Prop where
  active   : e.active = true
  draining : e.draining = false
  current  : role = .current → e.slot = none
  next     : role = .next → e.next = some none ∧ e.migrating = true

theorem CanName.ok {e : Naming} {role : Role} (h : CanName e role) (he : NamingOk e) (i : SlotIx) :
    NamingOk (e.take role i) := by
  have hidle : ¬ (e.active = false ∨ e.draining = true) := by rw [h.active, h.draining]; decide
  cases role
  · exact ⟨fun k => absurd k hidle, he.finishing, he.next, he.migrating⟩
  · obtain ⟨hn, hm⟩ := h.next rfl
    refine ⟨fun k => absurd k hidle, he.finishing, fun _ => hm, fun _ => ?_⟩
    simp [Naming.take, hn]

theorem CanName.mentions {e : Naming} {role : Role} (h : CanName e role) (i k : SlotIx) :
    mentions (e.take role i) k = mentions e k + oneRef (some i) k := by
  cases role
  · simp only [mentions_eq, Naming.take, h.current rfl]
    simp only [oneRef, reduceCtorEq, if_false]
    omega
  · simp only [mentions_eq, Naming.take, (h.next rfl).1]
    simp only [oneRef, Option.map_some, Option.join_some, reduceCtorEq, if_false]
    omega

theorem CanName.mayHold {p : Duty} {e : Naming} {role : Role} {r : RangeIx} (h : MayHold p r e) (i : SlotIx) :
    MayHold p r (e.take role i) := by
  cases role
  · exact h
  · rcases h with h | h | h | h
    · exact .inl h
    · exact .inr (.inl h)
    · exact .inr (.inr (.inl (by simp [Naming.take, h])))
    · exact .inr (.inr (.inr h))

theorem Naming.take_active (e : Naming) (role : Role) (i : SlotIx) : (e.take role i).active = e.active := by
  cases role <;> rfl

theorem Naming.take_migrating (e : Naming) (role : Role) (i : SlotIx) : (e.take role i).migrating = e.migrating := by
  cases role <;> rfl

/-- A slot that becomes named by an entry: `z` is what it becomes. -/
theorem Lawful.name (h : Lawful m d x (ledger s)) (hm : ¬ m.dark) {i : SlotIx} (hi : i ≠ 0) {z : Slot} {r : RangeIx}
    {role : Role} (hc : CanName (namingOf s.ranges[r]) role) (hz : z.held = false)
    (hlaw : ∀ n b, SlotLaw s.slots[i] false n b → SlotLaw z false (n + 1) b) :
    Lawful m d x (ledger (nameSlot (modSlot s i (fun _ => z)) r role i)) := by
  rw [ledger_nameSlot, modSlot_ranges, ledger_modSlot_eq]
  have hu : ∀ k, totalNamings (Function.update (ledger s).entries r ((namingOf s.ranges[r]).take role i)) k =
      totalNamings (ledger s).entries k + oneRef (some i) k := fun k => by
    have h1 := totalNamings_update (ledger s).entries r ((namingOf s.ranges[r]).take role i) k
    have h2 := hc.mentions i k
    rw [h2] at h1
    have h3 : Machine.mentions ((ledger s).entries r) k = Machine.mentions (namingOf s.ranges[r]) k := rfl
    omega
  refine h.reslot hm ?_ (fun k hk => ⟨?_, rfl⟩) (hc.ok (h.entries r) i) (fun e => absurd e hi) (fun w => ?_)
    (fun k => CanName.mayHold k i) (h.duty.update (fun k => ?_) (fun k => ?_))
  · rw [hu i, oneRef, if_pos rfl]
    have h0 : decide (i = 0) = false := by simp [hi]
    have := h.slots i
    rw [h0] at this ⊢
    exact hlaw _ _ this
  · rw [hc.mentions i k, oneRef, if_neg (by simpa using Ne.symm hk)]
    rfl
  · rw [hz] at w
    cases w
  · rw [Naming.take_active]
    exact k
  · rw [Naming.take_migrating]
    exact k

/-- Taking up one slot, where no RANGE.REKEY is in service. -/
theorem Lawful.takeUpSlot {e : Duty} (h : Lawful m ⟨e, .nothing⟩ x (ledger s)) (want : RangeIx → Bool) (i : SlotIx) :
    Lawful m ⟨e, .nothing⟩ x (ledger (takeUpSlot want s i)) := by
  unfold Machine.takeUpSlot
  dsimp only
  split
  · rename_i hh
    obtain ⟨hz, hl, h0⟩ := (h.slots i).held hh
    have hm : ¬ m.dark := h.not_dark_of_state (i := i) (by simp [hl])
    split
    · rename_i o role ho hr
      split
      · rename_i hc
        simp only [Bool.and_eq_true] at hc
        obtain ⟨hact, hdr, hrole⟩ := (canTake_iff s o.1 role).1 hc.1
        refine h.name (z := { s.slots[i] with held := false, count := s.slots[i].count + 1 }) hm (by simpa using hz)
          ⟨hact, hdr, fun e => ?_, fun e => ?_⟩ rfl (fun n b k => k.takenUp hh)
        · subst e
          exact hrole
        · subst e
          refine ⟨hrole, ?_⟩
          rcases h.held i o.1 o.2 hh hr ho with k | k | k | k
          · exact k
          · exact absurd (hdr.symm.trans k) (by decide)
          · exact absurd (hrole.symm.trans k) (by decide)
          · cases k
      · exact h.zeroHeld hh
    · exact h.zeroHeld hh
  · exact h

theorem Lawful.takeUp {e : Duty} (h : Lawful m ⟨e, .nothing⟩ x (ledger s)) (want : RangeIx → Bool) :
    Lawful m ⟨e, .nothing⟩ x (ledger (takeUp s want)) := by
  unfold Machine.takeUp
  induction mediaSlots generalizing s with
  | nil => exact h
  | cons i l ih =>
    rw [List.foldl_cons]
    exact ih (h.takeUpSlot want i)

/-! ## Placing keys -/

/-- The slot that a key is placed in. -/
theorem emptyMediaSlots_head {s : State} {i : SlotIx} {l : List SlotIx} (h : emptyMediaSlots s = i :: l) :
    i ≠ 0 ∧ s.slots[i].state = .empty := by
  have hi : i ∈ emptyMediaSlots s := by rw [h]; simp
  exact ⟨emptyMediaSlots_ne_zero s i hi, by simpa using (List.mem_filter.1 hi).2⟩

/-- A key placed and held for the request in service: a next key for a range that may have one. -/
theorem Lawful.placeHeld (h : Lawful m d x (ledger s)) (hm : ¬ m.dark) {r : RangeIx} {role : Role} (gen : Gen)
    (key : Option Key) (hr : role = .next → MayHold d.owed r (namingOf s.ranges[r])) :
    Lawful m d x (ledger (placeKey s r gen role key true).2) := by
  unfold Machine.placeKey
  split
  · exact h
  · rename_i i l e
    obtain ⟨hi, he⟩ := emptyMediaSlots_head e
    rw [ledger_modSlot_eq]
    have h0 : decide (i = 0) = false := by simp [hi]
    refine h.reslot_only hm ?_ (fun _ _ => rfl) (fun k => absurd k hi) (fun _ hn q g ho => ?_)
    · have := h.slots i
      rw [h0] at this ⊢
      exact this.placedHeld he
    · cases ho
      exact hr (by simpa using hn)

theorem placeKey_ranges (s : State) (r : RangeIx) (gen : Gen) (role : Role) (key : Option Key) (held : Bool) :
    (placeKey s r gen role key held).2.ranges = s.ranges := by
  unfold placeKey
  split <;> rfl

theorem Lawful.holdKeys (h : Lawful m d x (ledger s)) (hm : ¬ m.dark) (set : List RangeIx) :
    Lawful m d x (ledger (holdKeys s set)) := by
  have hold : ∀ (s : State) (r : RangeIx) (roles : List Role), Lawful m d x (ledger s) →
      (.next ∈ roles → s.ranges[r].cond = .migrating) →
      Lawful m d x (ledger (roles.foldl (fun s role => holdKey s r role) s)) := by
    intro s r roles
    induction roles generalizing s with
    | nil => exact fun h _ => h
    | cons role roles ih =>
      intro h hr
      refine ih _ (h.placeHeld hm _ _ fun e => .inl ?_) fun k => ?_
      · simp [namingOf, hr (by simp [e]), -Fin.getElem_fin]
      · unfold holdKey
        rw [placeKey_ranges]
        exact hr (by simp [k])
  unfold Machine.holdKeys
  induction allRanges.filter set.contains generalizing s with
  | nil => exact h
  | cons r l ih =>
    refine ih (hold s r _ h fun k => ?_)
    unfold neededRoles at k
    split at k
    · assumption
    · simp at k

/-- A range loads its key in one role and names it at once, if a media slot is EMPTY. -/
def loadRole (r : RangeIx) (s : State) (role : Role) : State :=
  match placeKey s r s.ranges[r].gen role (storedKey s r role) false with
  | (some i, s) => nameSlot s r role i
  | (none, s) => s

theorem loadNamed_eq (s : State) (r : RangeIx) : loadNamed s r = (neededRoles s r).foldl (loadRole r) s := rfl

theorem loadRole_none {r : RangeIx} {s : State} {role : Role} (h : emptyMediaSlots s = []) : loadRole r s role = s := by
  unfold loadRole placeKey
  rw [h]

theorem loadRole_some {r : RangeIx} {s : State} {role : Role} {i : SlotIx} {l : List SlotIx}
    (h : emptyMediaSlots s = i :: l) : loadRole r s role =
      nameSlot (modSlot s i (fun _ =>
        ⟨.loaded, storedKey s r role, some (r, s.ranges[r].gen), some role, false, 1⟩)) r role i := by
  unfold loadRole placeKey
  rw [h]
  rfl

theorem Lawful.loadRole (h : Lawful m d x (ledger s)) (hm : ¬ m.dark) {r : RangeIx} {role : Role}
    (hc : CanName (namingOf s.ranges[r]) role) : Lawful m d x (ledger (loadRole r s role)) := by
  cases e : emptyMediaSlots s with
  | nil => rwa [loadRole_none e]
  | cons i l =>
    obtain ⟨hi, he⟩ := emptyMediaSlots_head e
    rw [loadRole_some e]
    exact h.name hm hi hc rfl (fun n b k => k.placedNamed he)

/-- What a load leaves of a range entry. -/
theorem loadRole_entry (r q : RangeIx) (s : State) (role : Role) :
    namingOf (Machine.loadRole r s role).ranges[q] = namingOf s.ranges[q] ∨
      q = r ∧ ∃ i, namingOf (Machine.loadRole r s role).ranges[q] = (namingOf s.ranges[q]).take role i := by
  cases e : emptyMediaSlots s with
  | nil => exact .inl (by rw [loadRole_none e])
  | cons i l =>
    have h := congrArg (fun v => v.entries q) (ledger_nameSlot (modSlot s i (fun _ =>
        ⟨.loaded, storedKey s r role, some (r, s.ranges[r].gen), some role, false, 1⟩)) r role i)
    rw [← loadRole_some e] at h
    dsimp only at h
    rw [Function.update_apply] at h
    change namingOf (Machine.loadRole r s role).ranges[q] = _ at h
    split at h
    · rename_i k
      subst k
      exact .inr ⟨rfl, i, h⟩
    · exact .inl h

/-- A range that names nothing, and is neither FREE nor DRAINING, loads its keys and names them. -/
theorem Lawful.loadNamed (h : Lawful m d x (ledger s)) (hm : ¬ m.dark) {r : RangeIx}
    (ha : s.ranges[r].active = true) (hd : s.ranges[r].cond ≠ .draining) (hs : s.ranges[r].slot = none)
    (hn : nextSlotOf s.ranges[r] = none) : Lawful m d x (ledger (loadNamed s r)) := by
  have hdr : (namingOf s.ranges[r]).draining = false := by simp [namingOf, hd, -Fin.getElem_fin]
  have hcur : CanName (namingOf s.ranges[r]) .current := ⟨ha, hdr, fun _ => hs, nofun⟩
  rw [loadNamed_eq]
  unfold neededRoles
  split
  · rename_i hmig
    refine Lawful.loadRole (h.loadRole hm hcur) hm ?_
    have hg : (namingOf s.ranges[r]).migrating = true := by simp [namingOf, hmig, -Fin.getElem_fin]
    have hnext : (namingOf s.ranges[r]).next = some none := by
      have h1 := (h.entries r).migrating hg
      rw [← namingOf_next] at hn
      change (namingOf s.ranges[r]).next ≠ none at h1
      cases e : (namingOf s.ranges[r]).next with
      | none => exact absurd e h1
      | some o => rw [e] at hn; exact congrArg some hn
    rcases loadRole_entry r r s .current with e | ⟨-, i, e⟩
    · rw [e]
      exact ⟨ha, hdr, nofun, fun _ => ⟨hnext, hg⟩⟩
    · rw [e]
      exact ⟨ha, hdr, nofun, fun _ => ⟨hnext, hg⟩⟩
  · exact h.loadRole hm hcur

theorem loadNamed_other {s : State} {r q : RangeIx} (hq : q ≠ r) :
    namingOf (Machine.loadNamed s r).ranges[q] = namingOf s.ranges[q] := by
  rw [loadNamed_eq]
  induction neededRoles s r generalizing s with
  | nil => rfl
  | cons role l ih =>
    rw [List.foldl_cons, ih]
    exact (loadRole_entry r q s role).resolve_right fun k => hq k.1

/-- The key phase opens the unguarded ranges, none of which names anything yet (R47). -/
theorem Lawful.openUnguarded (h : Lawful m d x (ledger s)) (hm : ¬ m.dark) {r : RangeIx}
    (hs : s.ranges[r].slot = none) (hn : nextSlotOf s.ranges[r] = none) :
    Lawful m d x (ledger (openUnguarded s r)) := by
  unfold Machine.openUnguarded
  split
  · rename_i hc
    simp only [Bool.and_eq_true, decide_eq_true_eq] at hc
    have hl := h.loadNamed hm hc.1.1 hc.2 hs hn
    dsimp only
    split
    · rw [ledger_modRange rfl]
      exact hl
    · exact hl
  · exact h

theorem openUnguarded_other {s : State} {r q : RangeIx} (hq : q ≠ r) :
    namingOf (Machine.openUnguarded s r).ranges[q] = namingOf s.ranges[q] := by
  unfold Machine.openUnguarded
  split
  · dsimp only
    split
    · rw [modRange_ranges, if_neg hq]
      exact loadNamed_other hq
    · exact loadNamed_other hq
  · rfl

theorem Lawful.openUnguardeds (h : Lawful m d x (ledger s)) (hm : ¬ m.dark) {l : List RangeIx} (hl : l.Nodup)
    (hs : ∀ r ∈ l, (namingOf s.ranges[r]).slot = none ∧ (namingOf s.ranges[r]).next.join = none) :
    Lawful m d x (ledger (l.foldl Machine.openUnguarded s)) := by
  induction l generalizing s with
  | nil => exact h
  | cons r l ih =>
    obtain ⟨hr, hl⟩ := List.nodup_cons.1 hl
    obtain ⟨h1, h2⟩ := hs r (by simp)
    rw [List.foldl_cons]
    refine ih (h.openUnguarded hm h1 (by rwa [← namingOf_next])) hl fun q hq => ?_
    have hqr : q ≠ r := by
      rintro rfl
      exact hr hq
    rw [openUnguarded_other hqr]
    exact hs q (by simp [hq])

/-! ## The end of a drain and of a migration -/

theorem Lawful.drainLock (h : Lawful m d x (ledger s)) (hm : m.dark → s.startUp.isSome = true) {r : RangeIx}
    (ha : s.ranges[r].active = true) (hd : s.ranges[r].cond ≠ .draining) (hs : s.ranges[r].slot = none)
    (hn : nextSlotOf s.ranges[r] = none) : Lawful m d x (ledger (drainLock s r)) := by
  unfold Machine.drainLock
  split
  · exact h
  · rename_i hc
    simp only [Bool.or_eq_true, not_or, Bool.not_eq_true] at hc
    have hl := h.loadNamed (fun k => by have := hm k; rw [hc.1.1] at this; cases this) ha hd hs hn
    dsimp only
    split
    · rw [ledger_modRange rfl]
      exact hl
    · exact hl

/-- The finish of a drain ends: the range, which named nothing, is STEADY or PURGING. -/
theorem Lawful.drained (h : Lawful m d x (ledger s)) (hm : m.dark → s.startUp.isSome = true) (r : RangeIx) (gen : Gen)
    (purging : Bool) : Lawful m d x (ledger (drained s r gen purging)) := by
  unfold Machine.drained
  split
  · rename_i hc
    simp only [Bool.and_eq_true] at hc
    have hdr : (namingOf s.ranges[r]).draining = true := (h.entries r).finishing hc.2
    obtain ⟨hs, hn⟩ := (h.entries r).idle (.inr hdr)
    have hn : nextSlotOf s.ranges[r] = none := by rw [← namingOf_next]; exact hn
    generalize hcond : (if (purging && purgeFollows s r) = true then Condition.purging else .steady) = c
    have hc1 : c ≠ .draining ∧ c ≠ .migrating := by
      rw [← hcond]
      split <;> decide
    dsimp only
    rw [ledger_raise]
    have hmod : Lawful m d x (ledger (Machine.modRange s r (fun x =>
        { x with gen := gen, cond := c, mig := none, finishing := false }))) := by
      refine h.modRange rfl ?_ ⟨fun _ => ⟨hs, rfl⟩, nofun, fun k => absurd rfl k, fun k => ?_⟩ (fun _ => .inr (.inr (.inl rfl)))
        id (fun _ => ?_)
      · exact hn.symm
      · simp [namingOf, hc1] at k
      · simp [namingOf, hc1]
    have hlock : ∀ (a : List Damage) (l : List Intent), Lawful m d x (ledger (Machine.drainLock
        { Machine.modRange s r (fun x => { x with gen := gen, cond := c, mig := none, finishing := false }) with
          damaged := a, intents := l } r)) := fun a l => by
      have hu : Lawful m d x (ledger
          { Machine.modRange s r (fun x => { x with gen := gen, cond := c, mig := none, finishing := false }) with
            damaged := a, intents := l }) := hmod
      refine hu.drainLock hm ?_ ?_ ?_ ?_
      all_goals
        dsimp only
        rw [modRange_ranges, if_pos rfl]
      · exact hc.1
      · exact hc1.1
      · exact hs
      · rfl
    exact hlock _ _
  · exact h

theorem Lawful.heldAfterMigration (h : Lawful m d x (ledger s)) (r : RangeIx) (gen : Gen) (i : SlotIx) :
    Lawful m d x (ledger (heldAfterMigration r gen s i)) := by
  unfold Machine.heldAfterMigration
  rw [ledger_modSlot_eq]
  split
  · rename_i hc
    simp only [Bool.and_eq_true, decide_eq_true_eq] at hc
    have hi := (h.slots i).held hc.1
    have hm : ¬ m.dark := h.not_dark_of_state (i := i) (by simp [hi.2.1])
    have h0 : i ≠ 0 := by simpa using hi.1
    split
    · exact h.reslot_only hm ((h.slots i).relabelled (by simp [hi.2.1])) (fun _ _ => rfl) (fun e => absurd e h0)
        (fun _ e => by cases e)
    · exact h.reslot_only hm ((h.slots i).zeroed hc.1) (fun _ _ => rfl) (fun e => absurd e h0) nofun
  · have e : Function.update (ledger s).slots i s.slots[i] = (ledger s).slots := Function.update_eq_self i _
    rw [e]
    exact h

/-- The naming of a range whose migration is complete. -/
def Naming.migrated (e : Naming) : Naming := { e with migrating := false, slot := e.next.join, next := none }

/-- The next-key slot of a range becomes its current slot. -/
def promoteNext (r : RangeIx) (gen : Gen) (s : State) : Option SlotIx → State
  | some i => modSlot s i (promoted r gen)
  | none => s

/-- A ledger whose slot of a next key has become a current one. -/
def Ledger.promote (r : RangeIx) (gen : Gen) (v : Ledger) : Option SlotIx → Ledger
  | some i => { v with slots := Function.update v.slots i (promoted r gen (v.slots i)) }
  | none => v

theorem ledger_promoteNext (r : RangeIx) (gen : Gen) (s : State) (o : Option SlotIx) :
    ledger (promoteNext r gen s o) = (ledger s).promote r gen o := by
  cases o with
  | none => rfl
  | some i => exact ledger_modSlot_eq s i _

theorem Ledger.promote_entries (r : RangeIx) (gen : Gen) (v : Ledger) (o : Option SlotIx) :
    (v.promote r gen o).entries = v.entries := by
  cases o <;> rfl

theorem completeMigration_eq (s : State) (r : RangeIx) : completeMigration s r =
    mediaSlots.foldl (heldAfterMigration r (s.ranges[r].gen + 1)) (releaseOpt
      (promoteNext r (s.ranges[r].gen + 1) (modRange s r (fun x =>
        { x with gen := s.ranges[r].gen + 1, cond := .steady, mig := none, slot := nextSlotOf s.ranges[r] }))
        (nextSlotOf s.ranges[r])) s.ranges[r].slot) := by
  unfold completeMigration promoteNext
  rfl

/-- A slot that an entry names changes its role and its owner. -/
theorem Lawful.promote {v : Ledger} (h : Lawful m d x v) (r : RangeIx) (gen : Gen) {o : Option SlotIx}
    (ho : ∀ i, o = some i → 0 < mentions (v.entries r) i) : Lawful m d x (v.promote r gen o) := by
  cases o with
  | none => exact h
  | some i =>
    obtain ⟨hz, hl, hh⟩ := h.named (ho i rfl)
    have he : (v.slots i).state ≠ .empty := by rw [hl]; decide
    unfold Ledger.promote
    dsimp only
    rw [promoted, if_neg he]
    exact h.reslot_only (h.not_dark_of_state he) ((h.slots i).relabelled he) (fun _ _ => rfl) (fun _ => hl)
      (fun w => by rw [show (v.slots i).held = true from w] at hh; cases hh)

theorem mentions_migrated (e : Naming) (i : SlotIx) : mentions e i = mentions e.migrated i + oneRef e.slot i := by
  rw [mentions_eq, mentions_eq]
  simp only [Naming.migrated, oneRef, Option.join_none, reduceCtorEq, if_false]
  exact Nat.add_comm _ _

theorem NamingOk.migrated {e : Naming} (h : NamingOk e) : NamingOk e.migrated :=
  ⟨fun k => ⟨(h.idle k).2, rfl⟩, fun k => h.finishing k, fun k => absurd rfl k, nofun⟩

/-- A migration ends: the next-key slot becomes the current one, and the old current slot is released (R57, R151). -/
theorem Lawful.completeMigration (h : Lawful m d x (ledger s)) {r : RangeIx} (hr : s.ranges[r].cond = .migrating) :
    Lawful m d x (ledger (completeMigration s r)) := by
  have hfold : ∀ (gen : Gen) (l : List SlotIx) (u : State), Lawful m d x (ledger u) →
      Lawful m d x (ledger (l.foldl (Machine.heldAfterMigration r gen) u)) := by
    intro gen l
    induction l with
    | nil => exact fun _ h => h
    | cons i l ih => exact fun u h => ih _ (h.heldAfterMigration r gen i)
  rw [completeMigration_eq]
  refine hfold _ _ _ ?_
  rw [ledger_releaseOpt, ledger_promoteNext, ledger_modRange_eq]
  have hf : namingOf { s.ranges[r] with
      gen := s.ranges[r].gen + 1, cond := .steady, mig := none, slot := nextSlotOf s.ranges[r] } =
      (namingOf s.ranges[r]).migrated := by
    unfold Naming.migrated
    rw [namingOf_next]
    simp [namingOf, hr, -Fin.getElem_fin]
  rw [hf]
  have hp := h.promote r (s.ranges[r].gen + 1) (o := nextSlotOf s.ranges[r]) fun i hi => by
    rw [← namingOf_next] at hi
    rw [mentions_eq, show ((ledger s).entries r).next.join = some i from hi]
    simp [oneRef]
  have he := congrFun (Ledger.promote_entries r (s.ranges[r].gen + 1) (ledger s) (nextSlotOf s.ranges[r])) r
  have hrel := hp.release (o := s.ranges[r].slot) (r := r) (e := (namingOf s.ranges[r]).migrated)
    (fun i => by rw [he]; exact mentions_migrated (namingOf s.ranges[r]) i) (h.entries r).migrated
    (fun _ => .inr (.inr (.inl rfl)))
    (hp.duty.update (fun k => he.subst (motive := fun e => e.active = false) k) (fun _ => rfl))
  cases hn : nextSlotOf s.ranges[r] <;> cases hs : s.ranges[r].slot <;> rw [hn, hs] at hrel <;> exact hrel

theorem Lawful.setWatermark (h : Lawful m d x (ledger s)) (r : RangeIx) (w : Nat) :
    Lawful m d x (ledger (Machine.modRange s r (fun x => { x with mig := x.mig.map (fun m => { m with w := w }) }))) := by
  rw [ledger_modRange]
  · exact h
  · simp [namingOf, Option.map_map, Function.comp_def]

theorem Lawful.migrationStored (h : Lawful m d x (ledger s)) (r : RangeIx) (w : Nat) (j : JobNo) :
    Lawful m d x (ledger (migrationStored s r w j)) := by
  unfold Machine.migrationStored
  split
  · rename_i hr
    rw [ledger_modJob]
    exact h.completeMigration hr
  · rw [ledger_modJob]
    exact h.setWatermark r w

end

end Sys2Proof.Machine
end

section
/-! The segments: their places on the lanes and the media port, their admission and their retiring, under the law of the ledger
(O7). -/

namespace Sys2Proof.Machine

/-! ## Segments and their places -/

/-- A list of segments with the segments of a number changed. -/
def modSegs (l : List Segment) (id : Nat) (f : Segment → Segment) : List Segment :=
  l.map (fun g => if g.id = id then f g else g)

theorem modSegs_ids (l : List Segment) {id : Nat} {f : Segment → Segment} (hf : ∀ g, (f g).id = g.id) :
    (modSegs l id f).map (·.id) = l.map (·.id) := by
  unfold modSegs
  rw [List.map_map]
  refine List.map_congr_left fun g _ => ?_
  dsimp only [Function.comp]
  split
  · exact hf g
  · rfl

theorem StandsAt.modSegs_of_ne {l : List Segment} {id k : Nat} {st : SegState} (h : StandsAt l k st) (hk : k ≠ id)
    (f : Segment → Segment) : StandsAt (modSegs l id f) k st := by
  obtain ⟨g, hg, rfl, hs⟩ := h
  exact ⟨g, List.mem_map.2 ⟨g, hg, if_neg hk⟩, rfl, hs⟩

theorem StandsAt.modSegs_self {l : List Segment} {id : Nat} {st st' : SegState} (h : StandsAt l id st)
    {f : Segment → Segment} (hf : ∀ g, (f g).id = g.id) (hs : ∀ g, (f g).state = st') :
    StandsAt (modSegs l id f) id st' := by
  obtain ⟨g, hg, hi, -⟩ := h
  exact ⟨f g, List.mem_map.2 ⟨g, hg, if_pos hi⟩, (hf g).trans hi, hs g⟩

/-- A segment stands in one state. -/
theorem StandsAt.unique {l : List Segment} {id : Nat} {a b : SegState} (hl : (l.map (·.id)).Nodup)
    (ha : StandsAt l id a) (hb : StandsAt l id b) : a = b := by
  obtain ⟨g, hg, hgi, rfl⟩ := ha
  obtain ⟨k, hk, hki, rfl⟩ := hb
  rw [List.inj_on_of_nodup_map hl hg hk (hgi.trans hki.symm)]

section
variable {segs : List Segment} {nextSeg : Nat} {wait asked : List Nat} {lanes : LaneIx → Option Nat}
  {tags : MediaTag → Option Nat} {id : Nat}

/-- No list, lane or media tag names a segment. -/
structure Unplaced (wait : List Nat) (lanes : LaneIx → Option Nat) (asked : List Nat) (tags : MediaTag → Option Nat)
    (id : Nat) : Prop where
  wait  : id ∉ wait
  lanes : ∀ l, lanes l ≠ some id
  asked : id ∉ asked
  tags  : ∀ t, tags t ≠ some id

/-- A segment in no place may change its state. -/
theorem Places.modSegs (h : Places segs nextSeg wait lanes asked tags) (hu : Unplaced wait lanes asked tags id)
    {f : Segment → Segment} (hf : ∀ g, (f g).id = g.id) :
    Places (modSegs segs id f) nextSeg wait lanes asked tags where
  ids := by
    rw [modSegs_ids segs hf]
    exact h.ids
  below g hg := by
    obtain ⟨k, hk, rfl⟩ := List.mem_map.1 hg
    split
    · rw [hf]
      exact h.below k hk
    · exact h.below k hk
  waitOnce := h.waitOnce
  waitAt k hk := (h.waitAt k hk).modSegs_of_ne (by rintro rfl; exact hu.wait hk) f
  askedOnce := h.askedOnce
  askedAt k hk := (h.askedAt k hk).modSegs_of_ne (by rintro rfl; exact hu.asked hk) f
  lanesOnce := h.lanesOnce
  lanesAt l k hk := (h.lanesAt l k hk).modSegs_of_ne (by rintro rfl; exact hu.lanes l hk) f
  tagsOnce := h.tagsOnce
  tagsAt t k hk := (h.tagsAt t k hk).modSegs_of_ne (by rintro rfl; exact hu.tags t hk) f

/-- Places may be given up. -/
theorem Places.fewer (h : Places segs nextSeg wait lanes asked tags) {wait' asked' : List Nat}
    {lanes' : LaneIx → Option Nat} {tags' : MediaTag → Option Nat} (hw : wait'.Sublist wait) (ha : asked'.Sublist asked)
    (hl : ∀ l k, lanes' l = some k → lanes l = some k) (ht : ∀ t k, tags' t = some k → tags t = some k) :
    Places segs nextSeg wait' lanes' asked' tags' where
  ids := h.ids
  below := h.below
  waitOnce := hw.nodup h.waitOnce
  waitAt k hk := h.waitAt k (hw.subset hk)
  askedOnce := ha.nodup h.askedOnce
  askedAt k hk := h.askedAt k (ha.subset hk)
  lanesOnce l m k hl' hm := h.lanesOnce l m k (hl l k hl') (hl m k hm)
  lanesAt l k hk := h.lanesAt l k (hl l k hk)
  tagsOnce t u k ht' hu := h.tagsOnce t u k (ht t k ht') (ht u k hu)
  tagsAt t k hk := h.tagsAt t k (ht t k hk)

theorem Places.toWait (h : Places segs nextSeg wait lanes asked tags) (hs : StandsAt segs id .laneWait)
    (hi : id ∉ wait) : Places segs nextSeg (wait ++ [id]) lanes asked tags :=
  { h with
    waitOnce := by
      rw [List.nodup_append]
      exact ⟨h.waitOnce, List.nodup_singleton id, fun a ha b hb => by
        rw [List.mem_singleton.1 hb]
        exact fun e => hi (e ▸ ha)⟩
    waitAt := fun k hk => by
      rcases List.mem_append.1 hk with hk | hk
      · exact h.waitAt k hk
      · rw [List.mem_singleton.1 hk]
        exact hs }

theorem Places.toAsked (h : Places segs nextSeg wait lanes asked tags) (hs : StandsAt segs id .tagWait)
    (hi : id ∉ asked) : Places segs nextSeg wait lanes (asked ++ [id]) tags :=
  { h with
    askedOnce := by
      rw [List.nodup_append]
      exact ⟨h.askedOnce, List.nodup_singleton id, fun a ha b hb => by
        rw [List.mem_singleton.1 hb]
        exact fun e => hi (e ▸ ha)⟩
    askedAt := fun k hk => by
      rcases List.mem_append.1 hk with hk | hk
      · exact h.askedAt k hk
      · rw [List.mem_singleton.1 hk]
        exact hs }

theorem Places.toLane (h : Places segs nextSeg wait lanes asked tags) (hs : StandsAt segs id .inLane)
    (hi : ∀ l, lanes l ≠ some id) (l : LaneIx) : Places segs nextSeg wait (Function.update lanes l (some id)) asked tags :=
  { h with
    lanesOnce := fun a b k ha hb => by
      rw [Function.update_apply] at ha hb
      split at ha <;> split at hb
      · simp_all
      · cases ha
        exact absurd hb (hi b)
      · cases hb
        exact absurd ha (hi a)
      · exact h.lanesOnce a b k ha hb
    lanesAt := fun a k ha => by
      rw [Function.update_apply] at ha
      split at ha
      · cases ha
        exact hs
      · exact h.lanesAt a k ha }

theorem Places.toTag (h : Places segs nextSeg wait lanes asked tags) (hs : StandsAt segs id .onMedia)
    (hi : ∀ t, tags t ≠ some id) (t : MediaTag) : Places segs nextSeg wait lanes asked (Function.update tags t (some id)) :=
  { h with
    tagsOnce := fun a b k ha hb => by
      rw [Function.update_apply] at ha hb
      split at ha <;> split at hb
      · simp_all
      · cases ha
        exact absurd hb (hi b)
      · cases hb
        exact absurd ha (hi a)
      · exact h.tagsOnce a b k ha hb
    tagsAt := fun a k ha => by
      rw [Function.update_apply] at ha
      split at ha
      · cases ha
        exact hs
      · exact h.tagsAt a k ha }

/-- Segments that have retired may go. -/
theorem Places.filter (h : Places segs nextSeg wait lanes asked tags) {keep : Segment → Bool}
    (hk : ∀ g ∈ segs, keep g = false → g.state = .retired) :
    Places (segs.filter keep) nextSeg wait lanes asked tags := by
  have stands : ∀ {k st}, st ≠ .retired → StandsAt segs k st → StandsAt (segs.filter keep) k st := by
    rintro k st hst ⟨g, hg, hi, hs⟩
    refine ⟨g, List.mem_filter.2 ⟨hg, ?_⟩, hi, hs⟩
    by_contra hn
    exact hst (hs.symm.trans (hk g hg (by simpa using hn)))
  exact
    { h with
      ids := (List.filter_sublist.map _).nodup h.ids
      below := fun g hg => h.below g (List.mem_of_mem_filter hg)
      waitAt := fun k hk => stands (by decide) (h.waitAt k hk)
      askedAt := fun k hk => stands (by decide) (h.askedAt k hk)
      lanesAt := fun l k hk => stands (by decide) (h.lanesAt l k hk)
      tagsAt := fun t k hk => stands (by decide) (h.tagsAt t k hk) }

/-- A new segment is in no place. -/
theorem Places.add (h : Places segs nextSeg wait lanes asked tags) {g : Segment} (hg : g.id = nextSeg) :
    Places (segs ++ [g]) (nextSeg + 1) wait lanes asked tags := by
  have stands : ∀ {k st}, StandsAt segs k st → StandsAt (segs ++ [g]) k st := by
    rintro k st ⟨g, hg, hi, hs⟩
    exact ⟨g, List.mem_append_left _ hg, hi, hs⟩
  exact
    { h with
      ids := by
        rw [List.map_append, List.nodup_append]
        refine ⟨h.ids, List.nodup_singleton _, fun a ha b hb => ?_⟩
        obtain ⟨k, hk, rfl⟩ := List.mem_map.1 ha
        rw [List.mem_singleton.1 hb]
        have := h.below k hk
        change k.id ≠ g.id
        omega
      below := fun k hk => by
        rcases List.mem_append.1 hk with hk | hk
        · have := h.below k hk
          omega
        · rw [List.mem_singleton.1 hk]
          omega
      waitAt := fun k hk => stands (h.waitAt k hk)
      askedAt := fun k hk => stands (h.askedAt k hk)
      lanesAt := fun l k hk => stands (h.lanesAt l k hk)
      tagsAt := fun t k hk => stands (h.tagsAt t k hk) }

theorem Places.not_stands (h : Places segs nextSeg wait lanes asked tags) {st : SegState} : ¬ StandsAt segs nextSeg st := by
  rintro ⟨g, hg, hi, -⟩
  have := h.below g hg
  omega

/-- A segment in one place is in no other. -/
theorem Places.unplaced (h : Places segs nextSeg wait lanes asked tags) {st : SegState} (hs : StandsAt segs id st)
    (hw : st = .laneWait → id ∉ wait) (ha : st = .tagWait → id ∉ asked) (hl : st = .inLane → ∀ l, lanes l ≠ some id)
    (ht : st = .onMedia → ∀ t, tags t ≠ some id) : Unplaced wait lanes asked tags id where
  wait k := hw (hs.unique h.ids (h.waitAt id k)) k
  asked k := ha (hs.unique h.ids (h.askedAt id k)) k
  lanes l k := hl (hs.unique h.ids (h.lanesAt l id k)) l k
  tags t k := ht (hs.unique h.ids (h.tagsAt t id k)) t k

end

/-! ## Bindings -/

theorem bindings_modSegs {l : List Segment} {id : Nat} {f : Segment → Segment}
    (hf : ∀ g ∈ l, g.id = id → ((f g).state = .retired ↔ g.state = .retired) ∧ (f g).slot = g.slot) (i : SlotIx) :
    bindings (modSegs l id f) i = bindings l i := by
  unfold bindings modSegs
  rw [List.countP_map]
  refine List.countP_congr fun g hg => ?_
  dsimp only [Function.comp]
  split
  · rename_i hi
    obtain ⟨h1, h2⟩ := hf g hg hi
    simp [h1, h2]
  · rfl

theorem modSegs_of_not_mem {l : List Segment} {id : Nat} {f : Segment → Segment} (h : ∀ g ∈ l, g.id ≠ id) :
    modSegs l id f = l := by
  unfold modSegs
  conv_rhs => rw [← List.map_id l]
  exact List.map_congr_left fun g hg => if_neg (h g hg)

/-- A segment that retires gives its binding up. -/
theorem bindings_retired {l : List Segment} (hl : (l.map (·.id)).Nodup) {g : Segment} (hg : g ∈ l)
    (hr : g.state ≠ .retired) {f : Segment → Segment} (hf : ∀ g, (f g).state = .retired) (i : SlotIx) :
    bindings (modSegs l g.id f) i + oneRef g.slot i = bindings l i := by
  obtain ⟨a, b, rfl⟩ := List.append_of_mem hg
  rw [List.map_append, List.map_cons, List.nodup_append] at hl
  obtain ⟨-, hb, hab⟩ := hl
  have ha : modSegs a g.id f = a := modSegs_of_not_mem fun k hk e =>
    hab k.id (List.mem_map.2 ⟨k, hk, rfl⟩) g.id (by simp) e
  have hb : modSegs b g.id f = b := modSegs_of_not_mem fun k hk e =>
    (List.nodup_cons.1 hb).1 (List.mem_map.2 ⟨k, hk, e⟩)
  have hm : modSegs (a ++ g :: b) g.id f = a ++ f g :: b := by
    unfold modSegs at ha hb ⊢
    rw [List.map_append, List.map_cons, ha, hb, if_pos rfl]
  have hc : ∀ k : Segment, bindings (a ++ k :: b) i =
      bindings a i + bindings b i + if k.state ≠ .retired ∧ k.slot = some i then 1 else 0 := by
    intro k
    simp [bindings, List.countP_append, List.countP_cons, Nat.add_assoc]
  rw [hm, hc, hc]
  simp [oneRef, hf, hr]

theorem bindings_filter {l : List Segment} {keep : Segment → Bool}
    (hk : ∀ g ∈ l, keep g = false → g.state = .retired) (i : SlotIx) : bindings (l.filter keep) i = bindings l i := by
  unfold bindings
  rw [List.countP_filter]
  refine List.countP_congr fun g hg => ?_
  cases e : keep g with
  | true => simp
  | false => simp [hk g hg e]

theorem bindings_append (l : List Segment) (g : Segment) (i : SlotIx) :
    bindings (l ++ [g]) i = bindings l i + if g.state = .retired then 0 else oneRef g.slot i := by
  unfold bindings oneRef
  rw [List.countP_append, List.countP_singleton]
  by_cases h : g.state = .retired <;> simp [h]

end Sys2Proof.Machine
end

section
/-! The traffic of segments keeps the law of the ledger (O7): retiring, admission, and the steps of a segment between the lanes and
the media port. -/

namespace Sys2Proof.Machine

section
variable {m : Mode} {d : Owing} {x : SlotIx → Nat} {v : Ledger} {s : State}

/-- No list, lane or media tag of a ledger names a segment. -/
def Ledger.Free (v : Ledger) (id : Nat) : Prop := Unplaced v.wait v.lanes v.asked v.tags id

theorem ledger_modSeg_eq (s : State) (id : Nat) (f : Segment → Segment) :
    ledger (modSeg s id f) = { ledger s with segs := modSegs s.front.segs id f } := rfl

theorem segOf_mem {s : State} {id : Nat} {g : Segment} (h : segOf s id = some g) : g ∈ s.front.segs ∧ g.id = id :=
  ⟨List.mem_of_find?_eq_some h, by simpa using List.find?_some h⟩

/-- The segment of a number is the one of it. -/
theorem Lawful.segOf_eq (h : Lawful m d x (ledger s)) {g : Segment} (hg : g ∈ s.front.segs) : segOf s g.id = some g := by
  unfold segOf
  cases e : s.front.segs.find? (fun k => k.id = g.id) with
  | none => exact absurd (List.find?_eq_none.1 e g hg) (by simp)
  | some k =>
    obtain ⟨hk, hi⟩ := segOf_mem e
    rw [List.inj_on_of_nodup_map h.places.ids hk hg hi]

theorem Lawful.stands_iff (h : Lawful m d x (ledger s)) {id : Nat} {g : Segment} (hg : segOf s id = some g) {st : SegState} :
    StandsAt s.front.segs id st ↔ g.state = st := by
  obtain ⟨hm, hi⟩ := segOf_mem hg
  refine ⟨?_, fun e => ⟨g, hm, hi, e⟩⟩
  rintro ⟨k, hk, hki, rfl⟩
  have := h.segOf_eq hk
  rw [hki, hg] at this
  cases this
  rfl

/-! ## Retiring -/

/-- Segments that have retired leave the table. -/
theorem Lawful.keepSegs (h : Lawful m d x (ledger s)) {keep : Segment → Bool}
    (hk : ∀ g ∈ s.front.segs, keep g = false → g.state = .retired) :
    Lawful m d x (ledger (setSegs s (s.front.segs.filter keep))) :=
  h.resegs (h.places.filter hk) fun i => congrArg (· + x i) (bindings_filter hk i)

theorem Lawful.completeIfDone (h : Lawful m d x (ledger s)) (t : FrontTag) :
    Lawful m d x (ledger (completeIfDone s t)) := by
  unfold Machine.completeIfDone
  dsimp only
  split
  · split
    · rename_i hall
      refine Lawful.keepSegs (s := Machine.complete s t _ _ _) h fun g hg hk => ?_
      have ho : g.owner = some t := by simpa using hk
      exact of_decide_eq_true (List.all_eq_true.1 hall g (List.mem_filter.2 ⟨hg, by simp [ho]⟩))
    · exact h
  · exact h

theorem segs_of_dropOpt {u s : State} {o : Option SlotIx} (h : ledger u = ledger (dropOpt s o)) :
    u.front.segs = s.front.segs := by
  have hs := congrArg Ledger.segs h
  rw [dropOpt_eq] at hs
  exact hs

/-- A segment in no place retires, and its reference is dropped. -/
theorem Lawful.retire (h : Lawful m d x (ledger s)) {id : Nat}
    (hr : ∀ g, segOf s id = some g → g.state ≠ .retired ∧ (ledger s).Free id) (st : Status) (data : List Block) :
    Lawful m d x (ledger (retire s id st data)) := by
  unfold Machine.retire
  split
  · rename_i g hg
    obtain ⟨hmem, rfl⟩ := segOf_mem hg
    obtain ⟨hr, hu⟩ := hr g hg
    dsimp only
    generalize hf : (fun g : Segment => { g with state := .retired, status := st, data := data }) = f
    have hret : ∀ g, (f g).state = .retired := fun g => by rw [← hf]
    have hids : ∀ g, (f g).id = g.id := fun g => by rw [← hf]
    have h1 : Lawful m d (fun k => x k + oneRef g.slot k) (ledger (modSeg s g.id f)) := by
      rw [ledger_modSeg_eq]
      refine h.resegs (h.places.modSegs hu hids) fun i => ?_
      have : bindings (modSegs s.front.segs g.id f) i + oneRef g.slot i = bindings s.front.segs i :=
        bindings_retired h.places.ids hmem hr hret i
      change _ = bindings s.front.segs i + x i
      omega
    have hl : ledger (allTags.foldl (leaveWaitSet g.id) (clearDamage (Machine.dropOpt (modSeg s g.id f) g.slot) g st)) =
        ledger (Machine.dropOpt (modSeg s g.id f) g.slot) := by
      rw [ledger_foldl (ledger_leaveWaitSet g.id), ledger_clearDamage]
    have h2 : Lawful m d x (ledger (allTags.foldl (leaveWaitSet g.id)
        (clearDamage (Machine.dropOpt (modSeg s g.id f) g.slot) g st))) := by
      rw [hl]
      exact h1.dropOpt
    split
    · exact h2.completeIfDone _
    · refine h2.keepSegs fun k hk hki => ?_
      rw [segs_of_dropOpt hl] at hk
      obtain ⟨a, -, rfl⟩ := List.mem_map.1 hk
      have hki : (if a.id = g.id then f a else a).id = g.id := by simpa using hki
      split at hki
      · rename_i e
        rw [if_pos e]
        exact hret a
      · rename_i e
        exact absurd hki e
  · exact h

/-! ## Admission -/

/-- A segment is added in a place where it waits, with its binding. -/
theorem Lawful.addSeg {o : Option SlotIx} {g : Segment} (h : Lawful m d (fun k => x k + oneRef o k) (ledger s))
    (hid : g.id = s.front.nextSeg) (ho : g.slot = o) (hr : g.state = .retired → o = none) :
    Lawful m d x (ledger (addSeg s g)) ∧ (ledger (Machine.addSeg s g)).Free g.id := by
  have hp : Places (s.front.segs ++ [g]) (s.front.nextSeg + 1) (ledger s).wait (ledger s).lanes (ledger s).asked
    (ledger s).tags := h.places.add hid
  have hn : ∀ st, ¬ StandsAt s.front.segs g.id st := fun st => by
    rw [hid]
    exact h.places.not_stands
  refine ⟨h.resegs hp fun i => ?_, ⟨fun k => ?_, fun l k => ?_, fun k => ?_, fun t k => ?_⟩⟩
  · change bindings (s.front.segs ++ [g]) i + x i = bindings s.front.segs i + (x i + oneRef o i)
    rw [bindings_append, ho]
    split
    · rename_i e
      rw [hr e]
      simp [oneRef]
    · omega
  · exact hn _ (h.places.waitAt _ k)
  · exact hn _ (h.places.lanesAt l _ k)
  · exact hn _ (h.places.askedAt _ k)
  · exact hn _ (h.places.tagsAt t _ k)

theorem stands_addSeg (s : State) (g : Segment) : StandsAt (Machine.addSeg s g).front.segs g.id g.state :=
  ⟨g, List.mem_append_right _ (List.mem_singleton.2 rfl), rfl, rfl⟩

/-- A segment that waits for a lane joins the wait list. -/
theorem Lawful.waitLane (h : Lawful m d x (ledger s)) {id : Nat} (hs : StandsAt s.front.segs id .laneWait)
    (hu : (ledger s).Free id) : Lawful m d x (ledger { s with arb := { s.arb with wait := s.arb.wait ++ [id] } }) :=
  h.resegs (h.places.toWait hs hu.wait) fun _ => rfl

/-- A segment that waits for a media tag makes its request. -/
theorem Lawful.waitTag (h : Lawful m d x (ledger s)) {id : Nat} (hs : StandsAt s.front.segs id .tagWait)
    (hu : (ledger s).Free id) {q : MediaReq} (hq : reqSeg q = some id) : Lawful m d x (ledger (askTag s q)) := by
  rw [ledger_askTag_eq, hq]
  exact h.resegs (h.places.toAsked hs hu.asked) fun _ => rfl

/-- A slot that a segment may be bound to. -/
def Bindable (s : State) (o : Option SlotIx) : Prop := ∀ i, o = some i → s.slots[i].state = .loaded ∧ s.slots[i].held = false

/-- A decided piece binds a slot that may be bound. -/
theorem Lawful.decide_bindable (h : Lawful m d x (ledger s)) (hm : ¬ m.dark) (cls : FrontClass) (p : Piece)
    {o : Option SlotIx} (hd : decidePiece s cls p = .bound o) : Bindable s o := by
  have zero : Bindable s (some 0) := by
    intro i hi
    cases hi
    have hh : s.slots[(0 : SlotIx)].held = false := by
      cases e : s.slots[(0 : SlotIx)].held with
      | false => rfl
      | true => exact absurd ((h.slots 0).held e).1 (by decide)
    exact ⟨h.zero hm, hh⟩
  have names : ∀ (r : RangeIx) (i : SlotIx), s.ranges[r].slot = some i ∨ nextSlotOf s.ranges[r] = some i →
      s.slots[i].state = .loaded ∧ s.slots[i].held = false := by
    intro r i hi
    have hp : 0 < mentions ((ledger s).entries r) i := by
      have e : mentions ((ledger s).entries r) i = oneRef s.ranges[r].slot i + oneRef (nextSlotOf s.ranges[r]) i := by
        rw [mentions_eq, ← namingOf_next]
        rfl
      rw [e]
      rcases hi with hi | hi <;> simp [oneRef, hi, -Fin.getElem_fin]
    exact (h.named hp).2
  unfold decidePiece at hd
  split at hd
  · split at hd
    · cases hd
      exact zero
    · split at hd <;> cases hd
      exact zero
  · rename_i r _
    unfold decideRange at hd
    dsimp only at hd
    repeat' split at hd
    all_goals cases hd
    rintro i hi
    refine names r i ?_
    unfold bindingOf at hi
    split at hi
    · exact .inr hi
    · exact .inl hi
    · exact .inl hi

/-- A class with segments (R6). -/
def FrontClass.data (c : FrontClass) : Prop := c = .read ∨ c = .write ∨ c = .trim

theorem bindOpt_nextSeg (s : State) (o : Option SlotIx) : (Machine.bindOpt s o).front.nextSeg = s.front.nextSeg := by
  cases o <;> rfl

theorem Lawful.admitSeg (h : Lawful m d x (ledger s)) (t : FrontTag) {cls : FrontClass} (hc : cls.data)
    (p : Piece × Decision) (hp : ∀ o, p.2 = .bound o → Bindable s o) : Lawful m d x (ledger (admitSeg t cls s p)) := by
  have hnone : Lawful m d (fun k => x k + oneRef none k) (ledger s) := h
  unfold Machine.admitSeg
  dsimp only
  split
  · exact (hnone.addSeg rfl rfl fun _ => rfl).1
  · exact (hnone.addSeg rfl rfl fun _ => rfl).1
  · rename_i o ho
    have hb := h.bindOpt (hp o ho)
    have hf := bindOpt_nextSeg s o
    rcases hc with rfl | rfl | rfl
    · dsimp only
      obtain ⟨h1, h2⟩ := hb.addSeg (g := ⟨s.front.nextSeg, some t, .read, p.1.start, p.1.len, p.1.place, p.1.side, o,
        mediaAddr s p.1, .tagWait, .ok, []⟩) hf.symm rfl nofun
      exact h1.waitTag (stands_addSeg (Machine.bindOpt s o) _) h2 rfl
    · dsimp only
      obtain ⟨h1, h2⟩ := hb.addSeg (g := ⟨s.front.nextSeg, some t, .write, p.1.start, p.1.len, p.1.place, p.1.side, o,
        mediaAddr s p.1, .laneWait, .ok, []⟩) hf.symm rfl nofun
      exact h1.waitLane (stands_addSeg (Machine.bindOpt s o) _) h2
    · dsimp only
      obtain ⟨h1, h2⟩ := hb.addSeg (g := ⟨s.front.nextSeg, some t, .trim, p.1.start, p.1.len, p.1.place, p.1.side, o,
        mediaAddr s p.1, .tagWait, .ok, []⟩) hf.symm rfl nofun
      exact h1.waitTag (stands_addSeg (Machine.bindOpt s o) _) h2 rfl
  · exact h
  · exact h

/-- An admission changes no slot but for its count. -/
theorem bindSlot_bindable {s : State} (k : SlotIx) {o : Option SlotIx} (h : Bindable s o) :
    Bindable (bindSlot s k) o := by
  intro i hi
  obtain ⟨h1, h2⟩ := h i hi
  unfold bindSlot
  rw [modSlot_slots]
  split
  · rename_i e
    subst e
    rw [if_pos h1]
    exact ⟨h1, h2⟩
  · exact ⟨h1, h2⟩

theorem admitSeg_bindable (t : FrontTag) (cls : FrontClass) {s : State} (p : Piece × Decision) {o : Option SlotIx}
    (h : Bindable s o) : Bindable (Machine.admitSeg t cls s p) o := by
  have bound : ∀ k : Option SlotIx, Bindable (Machine.bindOpt s k) o := by
    intro k
    cases k with
    | none => exact h
    | some i => exact bindSlot_bindable i h
  unfold Machine.admitSeg
  dsimp only
  split
  · exact h
  · exact h
  · rename_i k _
    cases cls <;> exact bound k
  · exact h
  · exact h

theorem Lawful.admitSegs (h : Lawful m d x (ledger s)) (t : FrontTag) {cls : FrontClass} (hc : cls.data)
    (ps : List (Piece × Decision)) (hp : ∀ p ∈ ps, ∀ o, p.2 = .bound o → Bindable s o) :
    Lawful m d x (ledger (ps.foldl (Machine.admitSeg t cls) s)) := by
  induction ps generalizing s with
  | nil => exact h
  | cons p ps ih =>
    rw [List.foldl_cons]
    exact ih (h.admitSeg t hc p (hp p (by simp))) fun q hq o ho =>
      admitSeg_bindable t cls p (hp q (by simp [hq]) o ho)

theorem setStage_slots (s : State) (t : FrontTag) (st : Stage) : (setStage s t st).slots = s.slots := by
  unfold setStage
  split <;> rfl

theorem Lawful.admitData (h : Lawful m d x (ledger s)) (hm : ¬ m.dark) (t : FrontTag) {cls : FrontClass} (hc : cls.data)
    (lo hi : Nat) : Lawful m d x (ledger (admitData s t cls lo hi)) := by
  unfold Machine.admitData
  split
  · exact h
  · dsimp only
    split
    · exact h
    · split
      · rw [ledger_holdTxn]
        exact h
      · refine Lawful.completeIfDone (Lawful.admitSegs (by rwa [ledger_setStage]) t hc _ fun p hp o ho => ?_) t
        obtain ⟨q, -, rfl⟩ := List.mem_map.1 hp
        have := h.decide_bindable hm cls q ho
        intro i hi
        rw [setStage_slots]
        exact this i hi

/-- The control unit changes, and the request in service has the promise it had. -/
theorem Lawful.recontrol (h : Lawful m d x (ledger s)) {c : Control} (hd : dutyIn c = dutyIn s.control)
    (hs : m.dark → stillIn c s.power = true) : Lawful m d x (ledger { s with control := c }) :=
  { h with
    served := hd.trans h.served
    dark := fun k => ⟨hs k, (h.dark k).2⟩ }

theorem setStage_control (s : State) (t : FrontTag) (st : Stage) : (setStage s t st).control = s.control := by
  unfold setStage
  split <;> rfl

theorem Lawful.offerControl (h : Lawful m d x (ledger s)) (hm : ¬ m.dark) (t : FrontTag) (b : RequestBlock) :
    Lawful m d x (ledger (offerControl s t b)) := by
  have hs : Lawful m d x (ledger (setStage s t .control)) := by rwa [ledger_setStage]
  unfold Machine.offerControl
  split
  · rename_i hc
    simp only [Bool.and_eq_true, Option.isNone_iff_eq_none] at hc
    refine hs.recontrol ?_ fun k => absurd k hm
    rw [setStage_control]
    unfold dutyIn
    rw [hc.1.1]
    rfl
  · split
    · exact hs.recontrol (by rw [setStage_control]; rfl) fun k => absurd k hm
    · exact h

theorem dutyIn_start (c : Control) (q : List (FrontTag × RequestBlock)) (t : Option FrontTag) (b : RequestBlock)
    (h : c.service = none) : dutyIn { c with queue := q, service := some ⟨t, b, .start⟩ } = dutyIn c := by
  unfold dutyIn
  rw [h]
  rfl

theorem Lawful.takeNext (h : Lawful m d x (ledger s)) : Lawful m d x (ledger (takeNext s)) := by
  unfold Machine.takeNext
  split
  · rename_i hc
    simp only [Bool.and_eq_true, Option.isNone_iff_eq_none] at hc
    split
    · exact h
    · rename_i c q hq
      refine h.recontrol (dutyIn_start _ _ _ _ hc.1) fun k => ?_
      have := (h.dark k).1
      change stillIn s.control s.power = true at this
      simp [stillIn, hq] at this
  · exact h

theorem Lawful.admitTxn (h : Lawful m d x (ledger s)) (hm : ¬ m.dark) (t : FrontTag) :
    Lawful m d x (ledger (admitTxn s t)) := by
  unfold Machine.admitTxn
  split
  · split
    · exact h.offerControl hm _ _
    · rwa [ledger_admitFlush]
    · exact h.admitData hm t (.inl rfl) _ _
    · exact h.admitData hm t (.inr (.inl rfl)) _ _
    · exact h.admitData hm t (.inr (.inr rfl)) _ _
  · exact h

theorem Lawful.admitTxns (h : Lawful m d x (ledger s)) (hm : ¬ m.dark) (l : List FrontTag) :
    Lawful m d x (ledger (l.foldl Machine.admitTxn s)) := by
  induction l generalizing s with
  | nil => exact h
  | cons t l ih =>
    rw [List.foldl_cons]
    exact ih (h.admitTxn hm t)

theorem Lawful.releaseHeld (h : Lawful m d x (ledger s)) (hm : ¬ m.dark) : Lawful m d x (ledger (releaseHeld s)) :=
  Lawful.admitTxns (s := { s with front := { s.front with held := [] } }) h hm _

theorem Lawful.admitWaiting (h : Lawful m d x (ledger s)) (hm : ¬ m.dark) : Lawful m d x (ledger (admitWaiting s)) :=
  Lawful.admitTxns (s := { s with front := { s.front with waiting := [] } }) h hm _

end

end Sys2Proof.Machine
end

section
/-! The lanes, the media port and LINK_RESET keep the law of the ledger (O7). -/

namespace Sys2Proof.Machine

section
variable {m : Mode} {d : Owing} {x : SlotIx → Nat} {s : State}

/-! ## The media port -/

theorem update_none_of {α : Type} [DecidableEq α] {f : α → Option Nat} {a b : α} {k : Nat}
    (h : Function.update f a none b = some k) : f b = some k ∧ b ≠ a := by
  rw [Function.update_apply] at h
  split at h
  · cases h
  · rename_i hb
    exact ⟨h, hb⟩

/-- A media tag that is no longer BUSY: the segment of its request is in no place. -/
theorem Lawful.freeTag (h : Lawful m d x (ledger s)) (t : MediaTag) {y : TagState} (hy : tagSeg y = none) :
    Lawful m d x (ledger (setTag s t y)) ∧ ∀ id, tagSeg s.media.tags[t] = some id →
      (ledger (setTag s t y)).Free id ∧ StandsAt s.front.segs id .onMedia := by
  rw [ledger_setTag_eq, hy]
  refine ⟨h.resegs (h.places.fewer (.refl _) (.refl _) (fun _ _ k => k) fun _ _ k => (update_none_of k).1) fun _ => rfl,
    fun id hid => ?_⟩
  have hs := h.places.tagsAt t id hid
  refine ⟨?_, hs⟩
  have hp := h.places.fewer (.refl _) (.refl _) (fun _ _ k => k) (tags' := Function.update (ledger s).tags t none)
    fun _ _ k => (update_none_of k).1
  refine hp.unplaced hs nofun nofun nofun fun _ u hu => ?_
  obtain ⟨h1, h2⟩ := update_none_of hu
  exact h2 (h.places.tagsOnce u t id h1 hid)

/-- A segment in no place changes its state, and is still in none. -/
theorem Lawful.modSeg (h : Lawful m d x (ledger s)) {id : Nat} (hu : (ledger s).Free id) {st : SegState}
    (hs : StandsAt s.front.segs id st) (hst : st ≠ .retired) {f : Segment → Segment} (hid : ∀ g, (f g).id = g.id)
    (hslot : ∀ g, (f g).slot = g.slot) (hf : ∀ g, (f g).state ≠ .retired) :
    Lawful m d x (ledger (modSeg s id f)) := by
  rw [ledger_modSeg_eq]
  refine h.resegs (h.places.modSegs hu hid) fun i => congrArg (· + x i) (bindings_modSegs (fun g hg hi => ?_) i)
  refine ⟨⟨fun k => absurd k (hf g), fun k => ?_⟩, hslot g⟩
  exact absurd (hs.unique h.places.ids ⟨g, hg, hi, k⟩) hst

theorem Lawful.not_retired (h : Lawful m d x (ledger s)) {id : Nat} (hu : (ledger s).Free id) {st : SegState}
    (hs : StandsAt s.front.segs id st) (hst : st ≠ .retired) (g : Segment) (hg : segOf s id = some g) :
    g.state ≠ .retired ∧ (ledger s).Free id := by
  have := (h.stands_iff hg).1 hs
  exact ⟨by rw [this]; exact hst, hu⟩

/-- The answer of a segment's media request. -/
theorem Lawful.actForSeg (h : Lawful m d x (ledger s)) {q : MediaReq} {id : Nat} (hq : q.who = .seg id)
    (hu : (ledger s).Free id) (hs : StandsAt s.front.segs id .onMedia) (a : Answer) :
    Lawful m d x (ledger (actFor s q a)) := by
  have hr := h.not_retired hu hs (by decide)
  unfold actFor
  rw [hq]
  dsimp only
  split
  · split
    · rename_i data _ _
      have hm := h.modSeg hu hs (by decide) (f := fun g => { g with state := .laneWait, data := data }) (fun _ => rfl)
        (fun _ => rfl) (fun _ => by simp)
      exact hm.waitLane (hs.modSegs_self (fun _ => rfl) fun _ => rfl) hu
    · exact h.retire hr _ _
  · exact h.retire hr _ _
  · exact h.retire hr _ _
  · exact h

theorem takeRequest_parts {ok : Bool} {l : List MediaReq} {y : MediaReq × List MediaReq} (h : takeRequest ok l = some y) :
    ∃ a b, l = a ++ y.1 :: b ∧ y.2 = a ++ b := by
  induction l generalizing y with
  | nil => cases h
  | cons q qs ih =>
    unfold takeRequest at h
    split at h
    · cases h
      exact ⟨[], qs, rfl, rfl⟩
    · obtain ⟨z, hz, rfl⟩ := Option.map_eq_some_iff.1 h
      obtain ⟨a, b, h1, h2⟩ := ih hz
      exact ⟨q :: a, b, by rw [h1]; rfl, by rw [h2]; rfl⟩

theorem ledger_media (s : State) (l : List MediaReq) : ledger { s with media := { s.media with waiting := l } } =
    { ledger s with asked := l.filterMap reqSeg } := rfl

/-- A media tag goes to a waiting request (R19). -/
theorem Lawful.issueRequest (h : Lawful m d x (ledger s)) {t : MediaTag} {ok : Bool} {y : MediaReq × List MediaReq}
    (hy : takeRequest ok s.media.waiting = some y) :
    Lawful m d x (ledger (markIssued (setTag { s with media := { s.media with waiting := y.2 } } t (.busy y.1 0)) y.1)) := by
  obtain ⟨a, b, h1, h2⟩ := takeRequest_parts hy
  have hasked : (ledger s).asked = a.filterMap reqSeg ++ ((reqSeg y.1).toList ++ b.filterMap reqSeg) := by
    change s.media.waiting.filterMap reqSeg = _
    rw [h1, List.filterMap_append, List.filterMap_cons]
    cases reqSeg y.1 <;> rfl
  have hrest : y.2.filterMap reqSeg = a.filterMap reqSeg ++ b.filterMap reqSeg := by
    rw [h2, List.filterMap_append]
  have hsub : (y.2.filterMap reqSeg).Sublist (ledger s).asked := by
    rw [hrest, hasked]
    exact (List.Sublist.refl _).append (List.sublist_append_right _ _)
  generalize hu : ({ s with media := { s.media with waiting := y.2 } } : State) = u
  have hlu : ledger u = { ledger s with asked := y.2.filterMap reqSeg } := by rw [← hu]; rfl
  have hlaw : Lawful m d x (ledger u) := by
    rw [hlu]
    exact h.resegs (h.places.fewer (.refl _) hsub (fun _ _ k => k) (fun _ _ k => k)) fun _ => rfl
  cases hq : reqSeg y.1 with
  | none =>
    have hmark : ∀ v : State, markIssued v y.1 = v := fun v => by
      unfold markIssued
      unfold reqSeg at hq
      split at hq <;> simp_all
    rw [hmark]
    exact (hlaw.freeTag t (y := .busy y.1 0) hq).1
  | some id =>
    rw [hq] at hasked
    have hwho : y.1.who = .seg id := by
      unfold reqSeg at hq
      split at hq
      · cases hq
        assumption
      all_goals cases hq
    have hnot : id ∉ y.2.filterMap reqSeg := by
      have := h.places.askedOnce
      rw [hasked] at this
      rw [hrest]
      have := (List.nodup_middle (a := id)).1 this
      exact (List.nodup_cons.1 this).1
    have hst : StandsAt s.front.segs id .tagWait := h.places.askedAt id (by rw [hasked]; simp)
    have hfree : (ledger u).Free id := by
      have : StandsAt (ledger u).segs id .tagWait := by rw [hlu]; exact hst
      refine hlaw.places.unplaced this nofun (fun _ => ?_) nofun nofun
      rw [hlu]
      exact hnot
    have hsu : StandsAt u.front.segs id .tagWait := by rw [← hu]; exact hst
    have hm := hlaw.modSeg hfree hsu (by decide) (f := fun g => { g with state := .onMedia }) (fun _ => rfl)
      (fun _ => rfl) (fun _ => by simp)
    have hstands : StandsAt (modSegs u.front.segs id (fun g => { g with state := .onMedia })) id .onMedia :=
      hsu.modSegs_self (fun _ => rfl) fun _ => rfl
    have hmark : markIssued (setTag u t (.busy y.1 0)) y.1 =
        setTag (Machine.modSeg u id (fun g => { g with state := .onMedia })) t (.busy y.1 0) := by
      unfold markIssued
      rw [hwho]
      rfl
    rw [hmark, ledger_setTag_eq, show tagSeg (.busy y.1 0) = some id from hq]
    exact hm.resegs (hm.places.toTag hstands hfree.tags t) fun _ => rfl

/-! ## The lanes -/

/-- A lane whose pass ends: its segment is in no place. -/
theorem Lawful.freeLane (h : Lawful m d x (ledger s)) {l : LaneIx} {id : Nat} (hl : s.arb.lanes[l] = .granted (.seg id)) :
    Lawful m d x (ledger (setLane s l .free)) ∧ (ledger (setLane s l .free)).Free id ∧
      StandsAt s.front.segs id .inLane := by
  have hid : (ledger s).lanes l = some id := by
    change laneSeg s.arb.lanes[l] = some id
    rw [hl]
    rfl
  have hs := h.places.lanesAt l id hid
  have hp := h.places.fewer (.refl _) (.refl _) (lanes' := Function.update (ledger s).lanes l none)
    (fun _ _ k => (update_none_of k).1) (fun _ _ k => k)
  rw [ledger_setLane_eq, show laneSeg Lane.free = none from rfl]
  refine ⟨h.resegs hp fun _ => rfl, hp.unplaced hs nofun nofun (fun _ k hk => ?_) nofun, hs⟩
  obtain ⟨h1, h2⟩ := update_none_of hk
  exact h2 (h.places.lanesOnce k l id h1 hid)

/-- The end of a segment's lane pass. -/
theorem Lawful.passEnd (h : Lawful m d x (ledger s)) {g : Segment} (hu : (ledger s).Free g.id)
    (hs : StandsAt s.front.segs g.id .inLane) (data : List Block) : Lawful m d x (ledger (passEnd s g data)) := by
  have hr := h.not_retired hu hs (by decide)
  unfold Machine.passEnd
  split
  · dsimp only
    refine Lawful.waitTag (id := g.id) (h.modSeg hu hs (by decide) ?_ ?_ ?_) (hs.modSegs_self ?_ ?_) hu rfl
    · exact fun _ => rfl
    · exact fun _ => rfl
    · exact fun _ e => by cases e
    · exact fun _ => rfl
    · exact fun _ => rfl
  · exact h.retire hr _ _
  · exact h.retire hr _ _

theorem Lawful.execLanePassEnd (h : Lawful m d x (ledger s)) {l : LaneIx} {data : List Block} {t : State}
    (ht : execLanePassEnd l data s = .next t) : Lawful m d x (ledger t) := by
  unfold Machine.execLanePassEnd at ht
  split at ht
  · rename_i id hl
    obtain ⟨hf, hu, hs⟩ := h.freeLane hl
    dsimp only at ht
    split at ht
    · rename_i g hg
      obtain ⟨-, rfl⟩ := segOf_mem hg
      cases ht
      exact hf.passEnd hu hs data
    · cases ht
      exact hf
  all_goals
    cases ht
    exact h

theorem ledger_arb (s : State) (l : Option LaneIx) (wait : List Nat) (w : Bool) (g : Nat) :
    ledger { s with arb := ⟨s.arb.lanes, l, wait, w, g⟩ } = { ledger s with wait := wait } := rfl

theorem ledger_grantPass {l : LaneIx} (h : s.arb.lanes[l] = .free) : ledger (grantPass s l) = ledger s := by
  unfold grantPass
  exact (ledger_arb (setLane s l (.granted .pass)) _ s.arb.wait _ _).trans
    (ledger_setLane (x := .granted .pass) (by rw [h]; rfl))

/-- The oldest segment of the wait list takes a FREE lane. -/
theorem Lawful.grantSeg (h : Lawful m d x (ledger s)) {l : LaneIx} {id : Nat} {rest : List Nat}
    (hw : s.arb.wait = id :: rest) : Lawful m d x (ledger (grantSeg s l id rest)) := by
  have hst : StandsAt s.front.segs id .laneWait := h.places.waitAt id (by change id ∈ s.arb.wait; rw [hw]; simp)
  have hp := h.places.fewer (wait' := rest) (by change rest.Sublist s.arb.wait; rw [hw]; exact List.sublist_cons_self ..)
    (.refl _) (fun _ _ k => k) (fun _ _ k => k)
  have hnot : id ∉ rest := by
    have : s.arb.wait.Nodup := h.places.waitOnce
    rw [hw] at this
    exact (List.nodup_cons.1 this).1
  have hfree : Unplaced rest (ledger s).lanes (ledger s).asked (ledger s).tags id :=
    hp.unplaced hst (fun _ => hnot) nofun nofun nofun
  have hlaw : Lawful m d x { ledger s with wait := rest } := h.resegs hp fun _ => rfl
  have hp2 := (hp.modSegs hfree (f := fun g => { g with state := .inLane }) fun _ => rfl).toLane
    (hst.modSegs_self (fun _ => rfl) fun _ => rfl) hfree.lanes l
  have e : ledger (Machine.grantSeg s l id rest) =
      { ledger s with
        segs := modSegs s.front.segs id (fun g => { g with state := .inLane }), wait := rest
        lanes := Function.update (ledger s).lanes l (some id) } := by
    refine (ledger_arb (Machine.modSeg (setLane s l (.granted (.seg id))) id (fun g => { g with state := .inLane })) _
      rest _ _).trans ?_
    rw [ledger_modSeg_eq, ledger_setLane_eq]
    rfl
  rw [e]
  refine hlaw.resegs hp2 fun i => congrArg (· + x i) (bindings_modSegs (fun g hg hi => ?_) i)
  refine ⟨⟨nofun, fun k => ?_⟩, rfl⟩
  cases hst.unique h.places.ids ⟨g, hg, hi, k⟩

theorem Lawful.laneClaim (h : Lawful m d x (ledger s)) {l : LaneIx} (hl : s.arb.lanes[l] = .free) :
    Lawful m d x (ledger (laneClaim s l)) := by
  unfold Machine.laneClaim
  dsimp only
  split
  · rw [ledger_setLane]
    · exact h
    · dsimp only
      rw [hl]
      split <;> rfl
  · split
    · rwa [ledger_grantPass hl]
    · split
      · rename_i hw
        exact h.grantSeg hw
      · split
        · rwa [ledger_grantPass hl]
        · split
          · rwa [ledger_setLane (by rw [hl]; rfl)]
          · exact h

/-! ## LINK_RESET -/

theorem ledger_abortAll (s : State) (keep : Option FrontTag) : ledger (abortAll s keep) =
    ledger { s with control := { s.control with queue := [] } } := by
  unfold abortAll
  rw [ledger_foldl fun s t => ?_]
  · rfl
  · split <;> rfl

theorem stillIn_mono {c c' : Control} {p : Power} (hs : c.service = none → c'.service = none) (hq : c.queue = [] → c'.queue = [])
    (h : stillIn c p = true) : stillIn c' p = true := by
  simp only [stillIn, Bool.and_eq_true, Option.isNone_iff_eq_none, List.isEmpty_iff] at h ⊢
  exact ⟨⟨hs h.1.1, hq h.1.2⟩, h.2⟩

theorem Lawful.abortAll (h : Lawful m d x (ledger s)) (keep : Option FrontTag) : Lawful m d x (ledger (abortAll s keep)) := by
  rw [ledger_abortAll]
  exact h.recontrol rfl fun k => stillIn_mono (c := s.control) id (fun _ => rfl) (h.dark k).1

theorem mem_of_mem_modSegs {l : List Segment} {id : Nat} {f : Segment → Segment} (hf : ∀ g, (f g).id = g.id)
    {k : Segment} (hk : k ∈ modSegs l id f) (hi : k.id ≠ id) : k ∈ l := by
  obtain ⟨a, ha, rfl⟩ := List.mem_map.1 hk
  split at hi
  · rename_i e
    exact absurd ((hf a).trans e) hi
  · rename_i e
    rwa [if_neg e]

theorem mem_of_mem_completeIfDone {t : FrontTag} {k : Segment} (hk : k ∈ (completeIfDone s t).front.segs) :
    k ∈ s.front.segs := by
  unfold completeIfDone at hk
  dsimp only at hk
  split at hk
  · split at hk
    · exact List.mem_of_mem_filter hk
    · exact hk
  · exact hk

/-- Retiring a segment changes no other. -/
theorem mem_of_mem_retire {id : Nat} {st : Status} {data : List Block} {k : Segment}
    (hk : k ∈ (retire s id st data).front.segs) (hi : k.id ≠ id) : k ∈ s.front.segs := by
  unfold retire at hk
  split at hk
  · rename_i g hg
    dsimp only at hk
    have tail : ∀ u : State, ledger u = ledger (dropOpt (modSeg s id (fun g =>
        { g with state := .retired, status := st, data := data })) g.slot) → k ∈ u.front.segs → k ∈ s.front.segs := by
      intro u hu hk
      rw [segs_of_dropOpt hu] at hk
      exact mem_of_mem_modSegs (f := fun g => { g with state := .retired, status := st, data := data }) (fun _ => rfl) hk hi
    have hl : ∀ l : List FrontTag, ledger (l.foldl (leaveWaitSet id) (clearDamage (dropOpt (modSeg s id (fun g =>
        { g with state := .retired, status := st, data := data })) g.slot) g st)) = ledger (dropOpt (modSeg s id (fun g =>
        { g with state := .retired, status := st, data := data })) g.slot) := fun l => by
      rw [ledger_foldl (ledger_leaveWaitSet id), ledger_clearDamage]
    have hl := hl allTags
    generalize allTags = tags at hk hl
    split at hk
    · exact tail _ hl (mem_of_mem_completeIfDone hk)
    · exact tail _ hl (List.mem_of_mem_filter hk)
  · exact hk

/-- A link reset deals with a segment, where the segment of its number, if it is still there, is in its state. -/
theorem Lawful.orphanSeg (h : Lawful m d x (ledger s)) {g : Segment}
    (hg : ∀ k ∈ s.front.segs, k.id = g.id → k.state = g.state) : Lawful m d x (ledger (orphanSeg s g)) := by
  have stands : ∀ {u : State}, u.front = s.front → ∀ k, segOf u g.id = some k → k.state = g.state ∧
      StandsAt s.front.segs g.id g.state := by
    intro u hu k hk
    obtain ⟨hm, hi⟩ := segOf_mem hk
    rw [hu] at hm
    exact ⟨hg k hm hi, k, hm, hi, hg k hm hi⟩
  unfold Machine.orphanSeg
  split
  · rename_i hst
    have hp := h.places.fewer (wait' := s.arb.wait.filter (· ≠ g.id)) List.filter_sublist (.refl _) (fun _ _ k => k)
      (fun _ _ k => k)
    refine Lawful.retire (s := { s with arb := { s.arb with wait := s.arb.wait.filter (· ≠ g.id) } })
      (h.resegs hp fun _ => rfl) (fun k hk => ?_) _ _
    obtain ⟨h1, h2⟩ := stands rfl k hk
    rw [hst] at h1 h2
    exact ⟨by rw [h1]; decide, hp.unplaced h2 (fun _ => by simp) nofun nofun nofun⟩
  · rename_i hst
    have hf : (s.media.waiting.filter (fun q => decide (q.who ≠ .seg g.id))).filterMap reqSeg =
        (ledger s).asked.filter (· ≠ g.id) := by
      change _ = (s.media.waiting.filterMap reqSeg).filter _
      rw [List.filter_filterMap, List.filterMap_filter]
      refine List.filterMap_congr fun q _ => ?_
      unfold reqSeg
      cases q.who <;> simp [Option.filter]
    have hp := h.places.fewer (.refl _) (asked' := (ledger s).asked.filter (· ≠ g.id)) List.filter_sublist
      (fun _ _ k => k) (fun _ _ k => k)
    have hl : ledger { s with media := { s.media with
        waiting := s.media.waiting.filter (fun q => decide (q.who ≠ .seg g.id)) } } =
        { ledger s with asked := (ledger s).asked.filter (· ≠ g.id) } := by
      rw [ledger_media, hf]
    refine Lawful.retire (by rw [hl]; exact h.resegs hp fun _ => rfl) (fun k hk => ?_) _ _
    obtain ⟨h1, h2⟩ := stands rfl k hk
    rw [hst] at h1 h2
    refine ⟨by rw [h1]; decide, ?_⟩
    rw [hl]
    exact hp.unplaced h2 nofun (fun _ => by simp) nofun nofun
  · rename_i hst
    refine h.keepSegs fun k hk hi => ?_
    rw [hg k hk (by simpa using hi), hst]
  · exact h
  · exact h

theorem mem_of_mem_orphanSeg {g k : Segment} (hk : k ∈ (orphanSeg s g).front.segs) (hi : k.id ≠ g.id) :
    k ∈ s.front.segs := by
  unfold orphanSeg at hk
  split at hk
  · exact mem_of_mem_retire (s := { s with arb := { s.arb with wait := s.arb.wait.filter (· ≠ g.id) } }) hk hi
  · exact mem_of_mem_retire (s := { s with media := { s.media with
      waiting := s.media.waiting.filter (fun q => q.who ≠ .seg g.id) } }) hk hi
  · exact List.mem_of_mem_filter hk
  · exact hk
  · exact hk

theorem Lawful.orphanSegs (h : Lawful m d x (ledger s)) {l : List Segment} (hl : (l.map (·.id)).Nodup)
    (hs : ∀ g ∈ l, ∀ k ∈ s.front.segs, k.id = g.id → k.state = g.state) :
    Lawful m d x (ledger (l.foldl Machine.orphanSeg s)) := by
  induction l generalizing s with
  | nil => exact h
  | cons g l ih =>
    obtain ⟨hg, hl⟩ := List.nodup_cons.1 hl
    rw [List.foldl_cons]
    refine ih (h.orphanSeg (hs g (by simp))) hl fun a ha k hk hi => ?_
    refine hs a (by simp [ha]) k (mem_of_mem_orphanSeg hk fun e => hg ?_) hi
    exact List.mem_map.2 ⟨a, ha, hi.symm.trans e⟩

theorem tagSeg_discardFlush (y : TagState) : tagSeg (discardFlush y) = tagSeg y := by
  unfold discardFlush
  split
  · split
    · rename_i h
      simp [tagSeg, reqSeg, h]
    all_goals rfl
  · rfl
  · rfl

theorem reqSeg_of_flush {q : MediaReq} (h : isFlushReq q = true) : reqSeg q = none := by
  unfold isFlushReq at h
  unfold reqSeg
  split at h <;> simp_all

theorem filterMap_notFlush (l : List MediaReq) : (l.filter (fun q => !isFlushReq q)).filterMap reqSeg = l.filterMap reqSeg := by
  induction l with
  | nil => rfl
  | cons q l ih =>
    cases e : isFlushReq q with
    | true => simp [e, ih, reqSeg_of_flush e]
    | false => rw [List.filter_cons_of_pos (by simp [e]), List.filterMap_cons, List.filterMap_cons, ih]

/-- What a link reset leaves of the media port and the views is in the ledger as it was. -/
theorem ledger_linkReset_tail (s : State) (c : Control) (g : Regions) :
    ledger { s with
      media := ⟨vmap discardFlush s.media.tags, s.media.waiting.filter (fun q => !isFlushReq q)⟩
      control := c, regions := g } = ledger { s with control := c } := by
  have ht : (fun t : MediaTag => tagSeg (vmap discardFlush s.media.tags)[t]) = (ledger s).tags := by
    funext t
    rw [vmap_getElem, tagSeg_discardFlush]
    rfl
  unfold ledger
  dsimp only
  rw [filterMap_notFlush, ht]
  rfl

/-- A link reset ends no request that has promised anything. -/
theorem dutyIn_resetService (c : Control) (p : Option Prepared) :
    dutyIn { c with service := c.service.bind resetService, prepared := p } = dutyIn c := by
  cases h : c.service with
  | none => simp [dutyIn, h]
  | some v =>
    by_cases hv : v.after = .start ∧ parse v.block = some .reserveOpen
    · simp [dutyIn, h, resetService, hv, dutyAfter]
    · simp [dutyIn, h, resetService, hv]

theorem Lawful.linkReset (h : Lawful m d x (ledger s)) : Lawful m d x (ledger (linkReset s)) := by
  unfold Machine.linkReset
  have h1 := h.abortAll none
  generalize Machine.abortAll s none = u at h1
  dsimp only
  have hp : Places (u.front.segs.map (fun g => { g with owner := none })) (ledger u).nextSeg (ledger u).wait (ledger u).lanes
      (ledger u).asked (ledger u).tags := by
    have stands : ∀ {k st}, StandsAt u.front.segs k st →
        StandsAt (u.front.segs.map (fun g => { g with owner := none })) k st := by
      rintro k st ⟨g, hg, hi, hs⟩
      exact ⟨_, List.mem_map.2 ⟨g, hg, rfl⟩, hi, hs⟩
    exact
      { h1.places with
        ids := by rw [List.map_map]; exact h1.places.ids
        below := fun g hg => by
          obtain ⟨k, hk, rfl⟩ := List.mem_map.1 hg
          exact h1.places.below k hk
        waitAt := fun k hk => stands (h1.places.waitAt k hk)
        askedAt := fun k hk => stands (h1.places.askedAt k hk)
        lanesAt := fun l k hk => stands (h1.places.lanesAt l k hk)
        tagsAt := fun t k hk => stands (h1.places.tagsAt t k hk) }
  have h2 : Lawful m d x (ledger (setSegs u (u.front.segs.map (fun g => { g with owner := none })))) := by
    refine h1.resegs hp fun i => congrArg (· + x i) ?_
    change bindings (u.front.segs.map _) i = bindings u.front.segs i
    unfold bindings
    rw [List.countP_map]
    rfl
  have h3 := h2.orphanSegs (l := u.front.segs.filter (fun g => g.owner.isSome))
    ((List.filter_sublist.map _).nodup h1.places.ids) fun g hg k hk hi => by
      obtain ⟨a, ha, rfl⟩ := List.mem_map.1 hk
      have e : a = g := List.inj_on_of_nodup_map h1.places.ids ha (List.mem_of_mem_filter hg) hi
      change a.state = g.state
      rw [e]
  generalize (u.front.segs.filter (fun g => g.owner.isSome)).foldl Machine.orphanSeg
    (setSegs u (u.front.segs.map (fun g => { g with owner := none }))) = v at h3
  rw [ledger_linkReset_tail]
  refine h3.recontrol ?_ fun k => stillIn_mono (c := v.control) (fun e => ?_) (fun e => e) (h3.dark k).1
  · exact dutyIn_resetService _ _
  · rw [e]
    rfl

end

end Sys2Proof.Machine
end

section
/-! The sweep engine and the chunk in motion keep the law of the ledger (O7). -/

namespace Sys2Proof.Machine

section
variable {m : Mode} {d : Owing} {x : SlotIx → Nat} {s : State}

/-! ## The engine -/

theorem chunkRefs_some (c : Chunk) (i : SlotIx) : chunkRefs (some c) i = oneRef c.curSlot i + oneRef c.nextSlot i := by
  simp only [chunkRefs, oneRef, List.count_cons, List.count_nil, beq_iff_eq]
  omega

theorem chunkOk_none : ∀ b, (none : Option Chunk) = some b → ChunkOk b := by
  rintro _ ⟨⟩

theorem Lawful.withChunk (h : Lawful m d x (ledger s)) {y : SlotIx → Nat} {c : Option Chunk}
    (hr : ∀ i, chunkRefs c i + y i = chunkRefs (ledger s).chunk i + x i) (hm : m.dark → c = none)
    (hc : ∀ b, c = some b → ChunkOk b) : Lawful m d y (ledger (setChunk s c)) := h.rechunk hr hm hc

/-- A chunk with no bindings, where none is in motion. -/
theorem Lawful.purgeChunk (h : Lawful m d x (ledger s)) (hm : ¬ m.dark) (hn : s.sweep.chunk = none) {c : Chunk}
    (hc : c.curSlot = none) (hx : c.nextSlot = none) : Lawful m d x (ledger (setChunk s (some c))) := by
  refine h.withChunk (fun i => ?_) (fun k => absurd k hm) fun b hb => ?_
  · rw [chunkRefs_some, hc, hx, show (ledger s).chunk = none from hn]
    rfl
  · cases hb
    exact fun _ => ⟨hc, hx⟩

theorem Lawful.takePurge (h : Lawful m d x (ledger s)) (hm : ¬ m.dark) (hn : s.sweep.chunk = none) (j : JobNo) (b : Job)
    (r : RangeIx) : Lawful m d x (ledger (takePurge s j b r)) := by
  unfold Machine.takePurge
  dsimp only
  split
  · unfold storePurge
    dsimp only
    rw [ledger_issue]
    exact h.purgeChunk hm hn rfl rfl
  · rw [ledger_askLanes]
    exact h.purgeChunk hm hn rfl rfl

theorem Lawful.goOn (h : Lawful m d x (ledger s)) (hm : ¬ m.dark) (hn : s.sweep.chunk = none) :
    Lawful m d x (ledger (goOn s)) := by
  unfold Machine.goOn
  split
  · split
    · split
      · split
        · rwa [ledger_endRange]
        · split
          · exact h
          · exact h.takePurge hm hn _ _ _
      · split
        · rwa [ledger_endRange]
        · exact h
      · exact h
    · exact h
  · exact h

theorem Lawful.engineTurn (h : Lawful m d x (ledger s)) (hm : ¬ m.dark) (hn : (ledger s).chunk = none) (n : Nat) :
    Lawful m d x (ledger (engineTurn n s)) := by
  induction n generalizing s with
  | zero => exact h
  | succ n ih =>
    unfold Machine.engineTurn
    have e : ledger (choose (createUnscheduled (settleRunning s))) = ledger s := by simp
    generalize choose (createUnscheduled (settleRunning s)) = u at e
    rw [← e] at h hn
    unfold onward
    split
    · exact ih h hn
    · split
      · exact ih (by rwa [ledger_modJob]) (by rwa [ledger_modJob])
      · exact h.goOn hm hn

theorem Lawful.engine (h : Lawful m d x (ledger s)) : Lawful m d x (ledger (engine s)) := by
  unfold Machine.engine
  split
  · exact h
  · split
    · rename_i hs hf
      simp only [Bool.and_eq_true, freeToRun, Option.isNone_iff_eq_none] at hf
      refine h.engineTurn (fun k => ?_) hf.2 29
      have hmode := h.mode
      cases m with
      | off => exact absurd (hmode.1.symm.trans hf.1.1.1.1.1) (by decide)
      | asleep => exact absurd hmode.2 hs
      | waking => exact k
      | awake => exact k
    · rwa [ledger_createUnscheduled]

/-! ## The chunk -/

/-- A chunk with the bindings of another. -/
structure SameChunk (c b : Chunk) : Prop where
  kind : c.kind = b.kind
  cur  : c.curSlot = b.curSlot
  next : c.nextSlot = b.nextSlot

theorem SameChunk.refl (c : Chunk) : SameChunk c c := ⟨rfl, rfl, rfl⟩

/-- A chunk has no bindings. -/
def Chunk.Unbound (c : Chunk) : Prop := c.curSlot = none ∧ c.nextSlot = none

/-- The chunk in motion, or one of its bindings that is to take its place. -/
structure InMotion (s : State) (c : Chunk) : Prop where
  was : ∃ b, s.sweep.chunk = some b ∧ SameChunk c b

theorem InMotion.same {b c : Chunk} (h : InMotion s b) (hc : SameChunk c b) : InMotion s c := by
  obtain ⟨k, hk, hs⟩ := h.was
  exact ⟨k, hk, hc.kind.trans hs.kind, hc.cur.trans hs.cur, hc.next.trans hs.next⟩

theorem InMotion.of_eq {c : Chunk} (h : s.sweep.chunk = some c) : InMotion s c := ⟨c, h, .refl c⟩

theorem InMotion.congr {t : State} {c : Chunk} (h : InMotion s c) (e : t.sweep.chunk = s.sweep.chunk) : InMotion t c := by
  obtain ⟨b, hb, hs⟩ := h.was
  exact ⟨b, e.trans hb, hs⟩

/-- The bindings of the chunk in motion. -/
theorem InMotion.refs {c : Chunk} (h : InMotion s c) (i : SlotIx) :
    chunkRefs (ledger s).chunk i = oneRef c.curSlot i + oneRef c.nextSlot i := by
  obtain ⟨b, hb, hs⟩ := h.was
  rw [show (ledger s).chunk = some b from hb, chunkRefs_some, hs.cur, hs.next]

theorem InMotion.not_dark {c : Chunk} (hc : InMotion s c) (h : Lawful m d x (ledger s)) : ¬ m.dark := by
  obtain ⟨b, hb, -⟩ := hc.was
  exact h.not_dark_of_chunk (by rw [show (ledger s).chunk = some b from hb]; nofun)

/-- A PURGE job's chunk has no bindings. -/
theorem InMotion.purge {c : Chunk} (hc : InMotion s c) (h : Lawful m d x (ledger s)) (hk : c.kind = .purge) : c.Unbound := by
  obtain ⟨b, hb, hs⟩ := hc.was
  obtain ⟨h1, h2⟩ := h.chunk b hb (.inl (hs.kind.symm.trans hk))
  exact ⟨hs.cur.trans h1, hs.next.trans h2⟩

/-- The chunk in motion goes to a phase of any job. -/
theorem Lawful.setPhase (h : Lawful m d x (ledger s)) {c : Chunk} (hc : InMotion s c)
    (hp : c.phase ≠ .fillWrite ∧ ∀ b, c.phase ≠ .fillStore b) : Lawful m d x (ledger (setChunk s (some c))) := by
  refine h.withChunk (fun i => by rw [chunkRefs_some, hc.refs]) (fun k => absurd k (hc.not_dark h)) fun b hb => ?_
  cases hb
  rintro (hk | hk | ⟨b, hk⟩)
  · exact hc.purge h hk
  · exact absurd hk hp.1
  · exact absurd hk (hp.2 b)

/-- A chunk with no bindings goes to any phase. -/
theorem Lawful.setUnbound (h : Lawful m d x (ledger s)) {c : Chunk} (hc : InMotion s c) (hu : c.Unbound) :
    Lawful m d x (ledger (setChunk s (some c))) := by
  refine h.withChunk (fun i => by rw [chunkRefs_some, hc.refs]) (fun k => absurd k (hc.not_dark h)) fun b hb => ?_
  cases hb
  exact fun _ => hu

/-- A chunk with no bindings ends. -/
theorem Lawful.endUnbound (h : Lawful m d x (ledger s)) {c : Chunk} (hc : InMotion s c) (hu : c.Unbound) :
    Lawful m d x (ledger (setChunk s none)) := by
  refine h.withChunk (fun i => ?_) (fun _ => rfl) chunkOk_none
  rw [hc.refs, hu.1, hu.2]
  rfl

/-! ## The end of a chunk -/

theorem Lawful.endRekey (h : Lawful m d x (ledger s)) {c : Chunk} (hc : InMotion s c) (e : ChunkEnd) :
    Lawful m d x (ledger (endRekey s c e)) := by
  have hm := hc.not_dark h
  unfold Machine.endRekey
  dsimp only
  refine Lawful.engine ?_
  rw [ledger_settleTurn]
  have hl : ledger (Machine.modRange s c.range (fun x => { x with mig := x.mig.map (fun m => { m with fence := none }) })) =
      ledger s := ledger_modRange (by simp [namingOf, Option.map_map, Function.comp_def])
  rw [← hl] at h
  have hc := hc.congr (t := Machine.modRange s c.range (fun x =>
    { x with mig := x.mig.map (fun m => { m with fence := none }) })) rfl
  generalize Machine.modRange s c.range (fun x => { x with mig := x.mig.map (fun m => { m with fence := none }) }) = u
    at h hc
  have hnone : Lawful m d (fun k => x k + oneRef c.nextSlot k + oneRef c.curSlot k) (ledger (setChunk u none)) := by
    refine h.withChunk (fun i => ?_) (fun _ => rfl) chunkOk_none
    rw [hc.refs]
    simp only [chunkRefs]
    omega
  exact Lawful.dropOpt (o := c.nextSlot) (Lawful.dropOpt (o := c.curSlot) (hnone.releaseHeld hm))

theorem Lawful.failRekey (h : Lawful m d x (ledger s)) {c : Chunk} (hc : InMotion s c) :
    Lawful m d x (ledger (failRekey s c)) := h.endRekey hc _

theorem Lawful.failPurge (h : Lawful m d x (ledger s)) {c : Chunk} (hc : InMotion s c) (hu : c.Unbound) :
    Lawful m d x (ledger (failPurge s c)) := by
  unfold Machine.failPurge
  dsimp only
  refine Lawful.engine ?_
  rw [ledger_settleTurn]
  exact h.endUnbound hc hu

theorem completeMigration_chunk (s : State) (r : RangeIx) : (completeMigration s r).sweep.chunk = s.sweep.chunk := by
  have hfold : ∀ (gen : Gen) (l : List SlotIx) (u : State),
      (l.foldl (heldAfterMigration r gen) u).sweep = u.sweep := by
    intro gen l
    induction l with
    | nil => exact fun _ => rfl
    | cons i l ih => exact fun u => ih _
  rw [completeMigration_eq, hfold, releaseOpt_eq]
  cases nextSlotOf s.ranges[r] <;> rfl

theorem modJob_chunk (s : State) (j : JobNo) (f : Job → Job) : (modJob s j f).sweep.chunk = s.sweep.chunk := by
  unfold modJob
  split <;> rfl

theorem migrationStored_chunk (s : State) (r : RangeIx) (w : Nat) (j : JobNo) :
    (migrationStored s r w j).sweep.chunk = s.sweep.chunk := by
  unfold migrationStored
  split
  · rw [modJob_chunk, completeMigration_chunk]
  · rw [modJob_chunk]
    rfl

theorem Lawful.checkpointStored (h : Lawful m d x (ledger s)) {c : Chunk} (hc : InMotion s c) :
    Lawful m d x (ledger (checkpointStored s c)) := by
  unfold Machine.checkpointStored
  dsimp only
  split
  · exact (h.migrationStored _ _ _).endRekey (hc.congr (migrationStored_chunk ..)) _
  · have hw := h.setWatermark c.range (c.start + c.len)
    have hcw := hc.congr (t := Machine.modRange s c.range (fun x =>
      { x with mig := x.mig.map (fun m => { m with w := c.start + c.len }) })) rfl
    generalize Machine.modRange s c.range (fun x =>
      { x with mig := x.mig.map (fun m => { m with w := c.start + c.len }) }) = u at hw hcw
    refine Lawful.endRekey ?_ (hcw.congr (modJob_chunk ..)) _
    rwa [ledger_modJob]

theorem Lawful.purgeStored (h : Lawful m d x (ledger s)) {c : Chunk} (hc : InMotion s c) (hu : c.Unbound) (final : Bool) :
    Lawful m d x (ledger (purgeStored s c final)) := by
  unfold Machine.purgeStored
  split
  · rw [ledger_issue]
    exact h.setUnbound (hc.same ⟨rfl, rfl, rfl⟩) hu
  · dsimp only
    refine Lawful.engine ?_
    rw [ledger_settleTurn]
    split
    · rename_i hf
      simp only [Bool.and_eq_true, decide_eq_true_eq] at hf
      refine Lawful.endUnbound ?_ (hc.congr (modJob_chunk ..)) hu
      rw [ledger_modJob, ledger_steady hf.2]
      exact h
    · refine Lawful.endUnbound ?_ (hc.congr (modJob_chunk ..)) hu
      rwa [ledger_modJob]

/-! ## The steps of a chunk -/

theorem Lawful.storeCheckpoint (h : Lawful m d x (ledger s)) {c : Chunk} (hc : InMotion s c) :
    Lawful m d x (ledger (storeCheckpoint s c)) := by
  unfold Machine.storeCheckpoint
  dsimp only
  rw [ledger_issue]
  exact h.setPhase (hc.same ⟨rfl, rfl, rfl⟩) ⟨nofun, nofun⟩

theorem Lawful.readsDone (h : Lawful m d x (ledger s)) {c : Chunk} (hc : InMotion s c) (p : LanePolicy) :
    Lawful m d x (ledger (readsDone s c p)) := by
  unfold Machine.readsDone
  split
  · exact h.failRekey hc
  · dsimp only
    split
    · exact h.failRekey (hc.same ⟨rfl, rfl, rfl⟩)
    · rw [ledger_askLanes]
      exact h.setPhase (hc.same ⟨rfl, rfl, rfl⟩) ⟨nofun, nofun⟩

theorem Lawful.storeStaged (h : Lawful m d x (ledger s)) {c : Chunk} (hc : InMotion s c) :
    Lawful m d x (ledger (storeStaged s c)) := by
  unfold Machine.storeStaged
  rw [ledger_issue]
  exact h.setPhase (hc.same ⟨rfl, rfl, rfl⟩) ⟨nofun, nofun⟩

theorem Lawful.stagingDone (h : Lawful m d x (ledger s)) {c : Chunk} (hc : InMotion s c) :
    Lawful m d x (ledger (stagingDone s c)) := by
  unfold Machine.stagingDone
  split
  · exact h.failRekey hc
  · split
    · exact h.storeStaged hc
    · dsimp only
      rw [ledger_issue]
      refine Lawful.setPhase (s := { s with damaged := _ }) h ?_ ⟨nofun, nofun⟩
      exact (hc.congr rfl).same ⟨rfl, rfl, rfl⟩

theorem Lawful.homeWrites (h : Lawful m d x (ledger s)) {c : Chunk} (hc : InMotion s c) :
    Lawful m d x (ledger (homeWrites s c)) := by
  unfold Machine.homeWrites
  dsimp only
  rw [ledger_foldl (ledger_writeRun _ _ _)]
  exact h.setPhase (hc.same ⟨rfl, rfl, rfl⟩) ⟨nofun, nofun⟩

theorem Lawful.storeUndo (h : Lawful m d x (ledger s)) {c : Chunk} (hc : InMotion s c) :
    Lawful m d x (ledger (storeUndo s c)) := by
  unfold Machine.storeUndo
  rw [ledger_issue]
  exact h.setPhase (hc.same ⟨rfl, rfl, rfl⟩) ⟨nofun, nofun⟩

theorem Lawful.homeDone (h : Lawful m d x (ledger s)) {c : Chunk} (hc : InMotion s c) :
    Lawful m d x (ledger (homeDone s c)) := by
  unfold Machine.homeDone
  split
  · exact h.storeCheckpoint hc
  · dsimp only
    split
    · exact h.storeUndo hc
    · rw [ledger_foldl fun s y => ledger_askSweep s _ _ _ _ _]
      exact h.setPhase (hc.same ⟨rfl, rfl, rfl⟩) ⟨nofun, nofun⟩

theorem Lawful.fillDone (h : Lawful m d x (ledger s)) {c : Chunk} (hc : InMotion s c) (hu : c.Unbound) (b : Job) :
    Lawful m d x (ledger (fillDone s c b)) := by
  unfold Machine.fillDone
  split
  · exact h.failPurge hc hu
  · unfold storePurge
    dsimp only
    rw [ledger_issue]
    exact h.setUnbound (hc.same ⟨rfl, rfl, rfl⟩) hu

/-- A chunk of the law has a phase of the law. -/
theorem ChunkOk.of_same {b c : Chunk} (h : ChunkOk b) (hs : SameChunk c b) (hp : c.phase = b.phase) : ChunkOk c := by
  intro k
  rw [hs.cur, hs.next]
  refine h ?_
  rwa [← hs.kind, ← hp]

theorem Lawful.setOk (h : Lawful m d x (ledger s)) {c : Chunk} (hc : InMotion s c) (hk : ChunkOk c) :
    Lawful m d x (ledger (setChunk s (some c))) := by
  refine h.withChunk (fun i => by rw [chunkRefs_some, hc.refs]) (fun k => absurd k (hc.not_dark h)) fun b hb => ?_
  cases hb
  exact hk

theorem Lawful.chunkGoOn (h : Lawful m d x (ledger s)) {c : Chunk} (hc : InMotion s c) (hk : ChunkOk c) :
    Lawful m d x (ledger (chunkGoOn s c)) := by
  have hset := h.setOk hc hk
  unfold Machine.chunkGoOn
  split
  · exact hset
  · split
    · split
      · exact h.readsDone hc _
      · exact h.stagingDone hc
      · exact h.homeDone hc
      · exact h.storeUndo hc
      · rename_i hp
        exact h.fillDone hc (hk (.inr (.inl hp))) _
      all_goals exact hset
    · exact hset

theorem Lawful.chunkAnswer (h : Lawful m d x (ledger s)) {c : Chunk} (hc : s.sweep.chunk = some c) (q : SweepReq)
    (a : Answer) : Lawful m d x (ledger (chunkAnswer s c q a)) := by
  have hk := h.chunk c hc
  have hin := InMotion.of_eq hc
  have go : ∀ {b : Chunk}, SameChunk b c → b.phase = c.phase → Lawful m d x (ledger (Machine.chunkGoOn s b)) :=
    fun hb hp => h.chunkGoOn (hin.same hb) (hk.of_same hb hp)
  unfold Machine.chunkAnswer
  split
  all_goals first
    | exact go ⟨rfl, rfl, rfl⟩ rfl
    | rwa [ledger_writeRun]
    | skip
  dsimp only
  rw [ledger_foldl fun s n => ledger_askSweep s _ _ _ _ _]
  exact h.setOk (hin.same ⟨rfl, rfl, rfl⟩) (hk.of_same ⟨rfl, rfl, rfl⟩ rfl)

/-! ## The pass, the stores and the fence -/

theorem Lawful.rekeyPassEnd (h : Lawful m d x (ledger s)) {c : Chunk} (hc : InMotion s c) :
    Lawful m d x (ledger (rekeyPassEnd s c)) := by
  unfold Machine.rekeyPassEnd
  dsimp only
  rw [ledger_foldl (ledger_writeRun _ _ _)]
  exact h.setPhase (hc.same ⟨rfl, rfl, rfl⟩) ⟨nofun, nofun⟩

theorem Lawful.purgePassEnd (h : Lawful m d x (ledger s)) {c : Chunk} (hc : InMotion s c) (hk : c.kind = .purge)
    (p : Pattern) : Lawful m d x (ledger (purgePassEnd s c p)) := by
  have hu := hc.purge h hk
  unfold Machine.purgePassEnd
  dsimp only
  rw [ledger_foldl (ledger_writeRun _ _ _)]
  exact Lawful.setUnbound (s := { s with fresh := _ }) h ((hc.congr rfl).same ⟨rfl, rfl, rfl⟩) hu

theorem releasePass_sweep (s : State) : (releasePass s).sweep = s.sweep := by
  have hfold : ∀ (l : List LaneIx) (u : State), (l.foldl (fun s l =>
      if s.arb.lanes[l] = .granted .pass then
        setLane s l (if s.arb.dedicated = some l then .dedicated else .free)
      else s) u).sweep = u.sweep := by
    intro l
    induction l with
    | nil => exact fun _ => rfl
    | cons i l ih =>
      intro u
      rw [List.foldl_cons, ih]
      split <;> rfl
  exact hfold _ _

theorem Lawful.execChunkPassEnd (h : Lawful m d x (ledger s)) {t : State} (ht : execChunkPassEnd s = .next t) :
    Lawful m d x (ledger t) := by
  unfold Machine.execChunkPassEnd at ht
  split at ht
  · rename_i c hc
    split at ht
    · have hr : Lawful m d x (ledger (releasePass s)) := by rwa [ledger_releasePass]
      have hin : InMotion (releasePass s) c := (InMotion.of_eq hc).congr (by rw [releasePass_sweep])
      dsimp only at ht
      split at ht
      · cases ht
        exact hr.rekeyPassEnd hin
      · rename_i hk
        cases ht
        exact hr.purgePassEnd hin hk _
    · cases ht
      exact h
  · cases ht
    exact h

theorem Lawful.chunkStored (h : Lawful m d x (ledger s)) : Lawful m d x (ledger (chunkStored s)) := by
  unfold Machine.chunkStored
  split
  · rename_i c hc
    have hin := InMotion.of_eq hc
    have hk := h.chunk c hc
    split
    · exact Lawful.storeStaged (by rwa [ledger_raiseAll]) (hin.congr (by rw [raiseAll_sweep]))
    · exact h.homeWrites hin
    · exact h.checkpointStored hin
    · exact h.failRekey hin
    · rename_i final hp
      exact h.purgeStored hin (hk (.inr (.inr ⟨final, hp⟩))) final
    all_goals exact h
  · exact h

theorem Lawful.completingStored (h : Lawful m d x (ledger s)) (r : RangeIx) (w : Nat) :
    Lawful m d x (ledger (completingStored s r w)) := by
  have ho : Lawful m d x (ledger (offCompleting s r)) := h
  unfold Machine.completingStored
  dsimp only
  split
  · refine Lawful.engine ?_
    rw [ledger_settleTurn]
    exact ho.migrationStored _ _ _
  · exact ho

theorem Lawful.purgedStored (h : Lawful m d x (ledger s)) (r : RangeIx) (j : JobNo) :
    Lawful m d x (ledger (purgedStored s r j)) := by
  have ho : Lawful m d x (ledger (offCompleting s r)) := h
  unfold Machine.purgedStored
  dsimp only
  split
  · rename_i hc
    simp only [Bool.and_eq_true, decide_eq_true_eq] at hc
    have hs := ledger_steady hc.1
    have hr : Lawful m d x (ledger (Machine.modRange (offCompleting s r) r (fun y => { y with cond := .steady }))) := by
      rwa [hs]
    split
    · split
      · refine Lawful.engine ?_
        split
        · rwa [ledger_settleTurn, ledger_modJob]
        · rwa [ledger_modJob]
      · exact hr.engine
    · exact hr.engine
  · exact ho

/-- The setting of a fence, where no chunk is in motion. -/
theorem Lawful.setFence (h : Lawful m d x (ledger s)) (hm : ¬ m.dark) (hn : s.sweep.chunk = none) (j : JobNo) (b : Job)
    (r : RangeIx) : Lawful m d x (ledger (setFence s j b r)) := by
  have named : ∀ i, s.ranges[r].slot = some i ∨ nextSlotOf s.ranges[r] = some i →
      s.slots[i].state = .loaded ∧ s.slots[i].held = false := by
    intro i hi
    have hp : 0 < mentions ((ledger s).entries r) i := by
      have e : mentions ((ledger s).entries r) i = oneRef s.ranges[r].slot i + oneRef (nextSlotOf s.ranges[r]) i := by
        rw [mentions_eq, ← namingOf_next]
        rfl
      rw [e]
      rcases hi with hi | hi <;> simp [oneRef, hi, -Fin.getElem_fin]
    exact (h.named hp).2
  unfold Machine.setFence
  dsimp only
  generalize hf : (Machine.modRange s r (fun y => { y with mig := y.mig.map (fun g =>
    { g with fence := some ⟨b.lba, min b.chunkSize (clippedEnd s r - b.lba)⟩ }) })) = u
  have hlu : ledger u = ledger s := by
    rw [← hf]
    exact ledger_modRange (by simp [namingOf, Option.map_map, Function.comp_def])
  have hu : Lawful m d x (ledger u) := by rwa [hlu]
  have hus : u.slots = s.slots := by rw [← hf]; rfl
  have huc : u.sweep.chunk = none := by rw [← hf]; exact hn
  have hcur : Bindable u s.ranges[r].slot := fun i hi => by rw [hus]; exact named i (.inl hi)
  have hnext : Bindable u (nextSlotOf s.ranges[r]) := fun i hi => by rw [hus]; exact named i (.inr hi)
  have h1 := hu.bindOpt hcur
  have hnext1 : Bindable (Machine.bindOpt u s.ranges[r].slot) (nextSlotOf s.ranges[r]) := by
    cases s.ranges[r].slot with
    | none => exact hnext
    | some i => exact bindSlot_bindable i hnext
  have h2 := h1.bindOpt hnext1
  have hc2 : (Machine.bindOpt (Machine.bindOpt u s.ranges[r].slot) (nextSlotOf s.ranges[r])).sweep.chunk = none := by
    rw [bindOpt_eq, bindOpt_eq]
    exact huc
  have set : ∀ c : Chunk, c.kind = .rekey → c.phase ≠ .fillWrite → (∀ b, c.phase ≠ .fillStore b) →
      c.curSlot = s.ranges[r].slot → c.nextSlot = nextSlotOf s.ranges[r] → Lawful m d x (ledger (setChunk
        (Machine.bindOpt (Machine.bindOpt u s.ranges[r].slot) (nextSlotOf s.ranges[r])) (some c))) := by
    intro c hk hp hp' hcc hcn
    refine h2.withChunk (fun i => ?_) (fun k => absurd k hm) fun b hb => ?_
    · rw [chunkRefs_some, hcc, hcn, show (ledger (Machine.bindOpt (Machine.bindOpt u s.ranges[r].slot)
        (nextSlotOf s.ranges[r]))).chunk = none from hc2]
      simp only [chunkRefs]
      omega
    · cases hb
      rintro (e | e | ⟨b, e⟩)
      · rw [hk] at e
        cases e
      · exact absurd e hp
      · exact absurd e (hp' b)
  split
  · unfold Machine.storeCheckpoint
    dsimp only
    rw [ledger_issue]
    exact set _ rfl nofun nofun rfl rfl
  · rw [ledger_foldl fun s y => ledger_askSweep s _ _ _ _ _]
    exact set _ rfl nofun nofun rfl rfl

theorem Lawful.execFenceSet (h : Lawful m d x (ledger s)) {t : State} (ht : execFenceSet s = .next t) :
    Lawful m d x (ledger t) := by
  unfold Machine.execFenceSet at ht
  split at ht
  · rename_i y hy
    cases ht
    unfold readyFence at hy
    split at hy
    · rename_i hc
      simp only [Bool.and_eq_true, freeToRun, Option.isNone_iff_eq_none] at hc
      refine h.setFence (fun k => ?_) hc.1.2 _ _ _
      have hmode := h.mode
      cases m with
      | off => exact absurd (hmode.1.symm.trans hc.1.1.1.1.1.1) (by decide)
      | asleep => exact absurd (hmode.2.symm.trans (show s.startUp.isSome = false by rw [hc.1.1.1.1.1.2]; rfl)) (by decide)
      | waking => exact k
      | awake => exact k
    · cases hy
  · cases ht
    exact h

end

end Sys2Proof.Machine
end

section
/-! Start-up, and the request in service, under the law of the ledger (O7). -/

namespace Sys2Proof.Machine

section
variable {m : Mode} {d : Owing} {x : SlotIx → Nat} {s : State}

/-! ## States of the law -/

/-- Every reference is accounted for. -/
def noRefs : SlotIx → Nat := fun _ => 0

/-- The law of a powered part between two events: what the request in service has promised is owed, and every reference is
accounted for. -/
inductive Good (s : State) : Prop
  | asleep (h : Lawful .asleep ⟨.nothing, .nothing⟩ noRefs (ledger s))
  | awake (p : Duty) (h : Lawful .awake ⟨p, p⟩ noRefs (ledger s))

theorem Good.referencesCounted (h : Good s) : ReferencesCounted s := by
  cases h with
  | asleep h => exact h.referencesCounted
  | awake p h => exact h.referencesCounted

theorem not_dark_awake : ¬ Mode.dark .awake := id

theorem not_dark_waking : ¬ Mode.dark .waking := id

theorem dark_asleep : Mode.dark .asleep := trivial

/-- In start-up before the key phase no request is in service. -/
theorem Lawful.no_service (h : Lawful m d x (ledger s)) (hm : m.dark) : s.control.service = none := by
  have := (h.dark hm).1
  change stillIn s.control s.power = true at this
  simp only [stillIn, Bool.and_eq_true, Option.isNone_iff_eq_none] at this
  exact this.1.1

theorem Lawful.no_op (h : Lawful m d x (ledger s)) (hm : m.dark) : s.power.op = .noOp := by
  have := (h.dark hm).1
  change stillIn s.control s.power = true at this
  simp only [stillIn, Bool.and_eq_true, decide_eq_true_eq] at this
  exact this.2

theorem Lawful.no_queue (h : Lawful m d x (ledger s)) (hm : m.dark) : s.control.queue = [] := by
  have := (h.dark hm).1
  change stillIn s.control s.power = true at this
  simp only [stillIn, Bool.and_eq_true, List.isEmpty_iff] at this
  exact this.1.2

/-- In start-up the promise is none. -/
theorem Lawful.good {p : Duty} (h : Lawful m ⟨p, p⟩ noRefs (ledger s)) (hm : m = .asleep ∨ m = .awake) : Good s := by
  rcases hm with rfl | rfl
  · have hp : p = .nothing := by
      have e : dutyIn s.control = p := h.served
      rw [← e, dutyIn, h.no_service dark_asleep]
    exact .asleep (hp ▸ h)
  · exact .awake p h

/-- A change that keeps the law, in whatever mode, keeps the law between two events. -/
theorem Good.map {t : State} (h : Good s)
    (ht : ∀ m p, m = .asleep ∨ m = .awake → Lawful m ⟨p, p⟩ noRefs (ledger s) → Lawful m ⟨p, p⟩ noRefs (ledger t)) : Good t := by
  cases h with
  | asleep h => exact (ht _ _ (.inl rfl) h).good (.inl rfl)
  | awake p h => exact (ht _ _ (.inr rfl) h).good (.inr rfl)

theorem Good.of_ledger {t : State} (h : Good s) (e : ledger t = ledger s) : Good t :=
  h.map fun _ _ _ h => by rwa [e]

/-! ## The start -/

theorem nextSlotOf_loadedEntry (r : RangeRecord) : (namingOf (loadedEntry r)).next.join = none := by
  rw [namingOf_next]
  unfold nextSlotOf loadedEntry
  cases r.mig <;> rfl

theorem mentions_loadedEntry (r : RangeRecord) (i : SlotIx) : mentions (namingOf (loadedEntry r)) i = 0 := by
  rw [mentions_eq, nextSlotOf_loadedEntry]
  rfl

/-- The entry loaded from a record that may be stored. -/
theorem RecordOk.loaded {r : RangeRecord} (h : RecordOk r) : NamingOk (namingOf (loadedEntry r)) where
  idle _ := ⟨rfl, nextSlotOf_loadedEntry r⟩
  finishing := nofun
  next k := absurd (nextSlotOf_loadedEntry r) k
  migrating k := by
    have hm := h.2 (of_decide_eq_true k)
    change (r.mig.map _).map _ ≠ none
    simpa using hm

/-- A state with nothing in its tables, as power-on and RESTART make it. -/
theorem Lawful.cleared {t : State} (hrec : ∀ r : RangeIx, RecordOk t.store.ranges[r]) {n : Mode} (hn : n.dark)
    (hmode : ModeOf n t.powered t.startUp.isSome) (hf : t.front.segs = [])
    (ha : t.arb = emptyArbiter) (hmed : t.media = emptyMediaPort) (hr : t.ranges = vmap loadedEntry t.store.ranges)
    (hs : t.slots = Vector.replicate 24 emptySlot) (hw : t.sweep = emptySweep) (hp : t.power.op = .noOp)
    (hserv : t.control.service = none) (hq : t.control.queue = []) : Lawful n ⟨.nothing, .nothing⟩ noRefs (ledger t) := by
  have hent : ∀ r : RangeIx, (ledger t).entries r = namingOf (loadedEntry t.store.ranges[r]) := fun r => by
    change namingOf t.ranges[r] = _
    rw [hr, vmap_getElem]
  have hslot : ∀ i, (ledger t).slots i = emptySlot := fun i => by
    change t.slots[i] = _
    simp [hs]
  have hchunk : (ledger t).chunk = none := by
    change t.sweep.chunk = none
    rw [hw]
    rfl
  have hlane : ∀ l k, (ledger t).lanes l ≠ some k := fun l k => by
    change laneSeg t.arb.lanes[l] ≠ some k
    simp [ha, emptyArbiter, laneSeg]
  have htag : ∀ l k, (ledger t).tags l ≠ some k := fun l k => by
    change tagSeg t.media.tags[l] ≠ some k
    simp [hmed, emptyMediaPort, tagSeg]
  have hwait : (ledger t).wait = [] := by
    change t.arb.wait = []
    rw [ha]
    rfl
  have hask : (ledger t).asked = [] := by
    change t.media.waiting.filterMap reqSeg = []
    rw [hmed]
    rfl
  have hsegs : (ledger t).segs = [] := hf
  exact
    { mode := hmode
      places := by
        rw [hsegs, hwait, hask]
        exact ⟨List.nodup_nil, List.forall_mem_nil _, List.nodup_nil, List.forall_mem_nil _, List.nodup_nil,
          List.forall_mem_nil _,
          fun l _ k e => absurd e (hlane l k), fun l k e => absurd e (hlane l k),
          fun l _ k e => absurd e (htag l k), fun l k e => absurd e (htag l k)⟩
      slots := fun i => by
        have hz : totalNamings (ledger t).entries i = 0 := by
          refine Finset.sum_eq_zero fun r _ => ?_
          rw [hent, mentions_loadedEntry]
        rw [hslot, hz, hsegs, hchunk]
        exact emptySlot_law _
      entries := fun r => by
        rw [hent]
        exact (hrec r).loaded
      served := by
        change dutyIn t.control = .nothing
        unfold dutyIn
        rw [hserv]
      held := fun i r g e => by
        rw [hslot] at e
        cases e
      duty := .nothing
      chunk := fun c e => by
        rw [hchunk] at e
        cases e
      records := hrec
      zero := fun k => absurd hn k
      dark := fun _ => ⟨by
        change stillIn t.control t.power = true
        simp [stillIn, hserv, hq, hp], hchunk, hslot⟩ }

theorem Lawful.loadTables (h : Lawful m d x (ledger s)) (hm : m.dark) (hd : d.owed = .nothing) :
    Lawful m d x (ledger (loadTables s)) := by
  have hent : ∀ r : RangeIx, (ledger (Machine.loadTables s)).entries r = namingOf (loadedEntry s.store.ranges[r]) := fun r => by
    change namingOf (vmap loadedEntry s.store.ranges)[r] = _
    rw [vmap_getElem]
  exact
    { h with
      slots := fun i => by
        have hs := h.slots i
        have h0 : totalNamings (ledger s).entries i = 0 := by
          have := hs.counted
          rw [(h.dark hm).2.2 i] at this
          have : 0 = totalNamings (ledger s).entries i + _ := this
          omega
        have hz : totalNamings (ledger (Machine.loadTables s)).entries i = 0 := by
          refine Finset.sum_eq_zero fun r _ => ?_
          rw [hent, mentions_loadedEntry]
        rw [hz, ← h0]
        exact hs
      entries := fun r => by
        rw [hent]
        exact (h.records r).loaded
      held := fun i r g e => by
        rw [show (ledger (Machine.loadTables s)).slots i = emptySlot from (h.dark hm).2.2 i] at e
        cases e
      duty := by
        rw [hd]
        exact .nothing }

/-- A law of start-up before the key phase. -/
abbrev Asleep (s : State) : Prop := Lawful .asleep ⟨.nothing, .nothing⟩ noRefs (ledger s)

/-- A law after start-up with nothing owed, whatever the request in service has promised. -/
def Carried (s : State) : Prop := ∃ p, Lawful .awake ⟨p, .nothing⟩ noRefs (ledger s)

/-- A law after start-up with nothing promised. -/
abbrev Idle (s : State) : Prop := Lawful .awake ⟨.nothing, .nothing⟩ noRefs (ledger s)

theorem Lawful.loadPhase (h : Asleep s) (p : StartInputs) : Asleep (loadPhase s p) := by
  have ht : Asleep (Machine.loadTables { s with
      dev := s.store.device, creds := vmap loadedCred s.store.creds,
      regions := readRegions p.capacity s.store.device.ceiling s.regions.persistentWritten }) :=
    Lawful.loadTables (s := { s with
      dev := s.store.device, creds := vmap loadedCred s.store.creds,
      regions := readRegions p.capacity s.store.device.ceiling s.regions.persistentWritten }) h dark_asleep rfl
  unfold Machine.loadPhase
  dsimp only
  split
  · exact ht
  · unfold Asleep
    rw [ledger_issue]
    exact ht

theorem Lawful.endRecovery (h : Asleep s) (v : Recovery) : Asleep (endRecovery s v) := by
  unfold Machine.endRecovery Asleep
  rw [ledger_raiseAll]
  exact Lawful.loadTables (by rwa [ledger_setRecovery]) dark_asleep rfl

/-- Slot 0 is loaded. -/
theorem Lawful.loadZero (h : Asleep s) (key : Option Key) : Lawful .waking ⟨.nothing, .nothing⟩ noRefs
    (ledger (modSlot s 0 (fun _ => ⟨.loaded, key, none, none, false, 0⟩))) := by
  rw [ledger_modSlot_eq]
  have hempty := (h.dark dark_asleep).2.2
  exact
    { h with
      mode := h.mode.1
      slots := fun i => by
        dsimp only
        rw [Function.update_apply]
        split
        · rename_i e
          have hs := h.slots i
          rw [hempty i] at hs
          obtain ⟨-, h1, h2⟩ := hs.empty rfl
          rw [h1, h2, e]
          exact ⟨rfl, Nat.zero_le _, nofun, nofun, nofun, rfl, nofun⟩
        · exact h.slots i
      held := fun i r g e => by
        dsimp only at e
        rw [Function.update_apply] at e
        split at e
        · cases e
        · rw [hempty i] at e
          cases e
      zero := fun _ => by
        dsimp only
        rw [Function.update_self]
      dark := fun k => absurd k not_dark_waking }

/-- Start-up ends. -/
theorem Lawful.started {e : Owing} (h : Lawful .waking e x (ledger s)) : Lawful .awake e x (ledger { s with startUp := none }) :=
  { h with
    mode := ⟨h.mode, rfl⟩
    zero := fun _ => h.zero not_dark_waking
    dark := fun k => absurd k not_dark_awake }

/-- SLEEP entry begins, or another power operation: start-up is over. -/
theorem Lawful.repower (h : Lawful m d x (ledger s)) {p : Power} (hp : m.dark → p.op = .noOp) :
    Lawful m d x (ledger { s with power := p }) :=
  h.restill (b := stillIn s.control p) fun k => by
    simp [stillIn, h.no_service k, h.no_queue k, hp k]

theorem Lawful.beginSleepEntry (h : Lawful m d x (ledger s)) (hm : ¬ m.dark) : Lawful m d x (ledger (beginSleepEntry s)) := by
  unfold Machine.beginSleepEntry
  rw [ledger_pauseRunning]
  exact Lawful.repower (s := { s with
    control := { s.control with prepared := none }
    regions := { s.regions with reserveView := false, writeOpen := false } }) h fun k => absurd k hm

theorem Lawful.keyPhase (h : Asleep s) : Lawful .waking ⟨.nothing, .nothing⟩ noRefs (ledger (keyPhase s)) := by
  unfold Machine.keyPhase
  exact (h.loadZero _).openUnguardeds not_dark_waking (by decide) fun r _ => h.names_none dark_asleep r

/-- SLEEP entry begins where the sleep request line has risen. -/
theorem Lawful.sleepIfDue (h : Idle s) (due : Bool) : Idle (if due then Machine.beginSleepEntry s else s) := by
  split
  · exact h.beginSleepEntry not_dark_awake
  · exact h

/-- What waited is admitted. -/
theorem Lawful.admits (h : Idle s) : Good (Machine.takeNext (Machine.admitWaiting (Machine.engine s))) :=
  .awake .nothing (h.engine.admitWaiting not_dark_awake).takeNext

theorem Lawful.journalPhase (h : Lawful .waking ⟨.nothing, .nothing⟩ noRefs (ledger s)) (u : StartUp) :
    Idle (journalPhase s u) := by
  unfold Machine.journalPhase Idle
  rw [ledger_raiseAll]
  exact h.started

theorem admitPhase_good (h : Asleep s) (u : StartUp) : Good (admitPhase s u) := by
  have hk : Lawful .waking ⟨.nothing, .nothing⟩ noRefs (ledger (createUnscheduled (keyPhase s))) := by
    rw [ledger_createUnscheduled]
    exact Lawful.keyPhase h
  have hj := hk.journalPhase u
  unfold admitPhase
  dsimp only
  generalize Machine.journalPhase (createUnscheduled (Machine.keyPhase s)) u = v at hj ⊢
  have ht : Idle { v with theft := firstSamples (samplePeriod v) u.inputs v.theft } := hj
  exact (Lawful.sleepIfDue ht _).admits

theorem runPhase_good (h : Asleep s) (u : StartUp) : Good (runPhase s u) := by
  have phase : ∀ {t : State} (p : Phase), Asleep t → Good (setPhase t p) := fun p ht => .asleep (by rwa [ledger_setPhase])
  unfold runPhase
  split
  · exact phase _ h
  · exact phase _ (Lawful.loadPhase h _)
  · exact phase _ (by unfold Asleep; rwa [ledger_intentPass])
  · have ht : Asleep (loadTables s) := Lawful.loadTables h dark_asleep rfl
    dsimp only
    split
    · exact phase _ ht
    · split
      · exact phase _ (by unfold Asleep; rwa [ledger_startRecovery])
      · exact phase _ ht
  · split
    · exact phase _ (by unfold Asleep; rwa [ledger_storeRecovery])
    · exact phase _ h
  · split
    · exact phase _ (Lawful.endRecovery h _)
    · exact phase _ h
  · exact phase _ (by unfold Asleep; rwa [ledger_lockedStartCheck])
  · split
    · refine phase _ ?_
      unfold theftLockedStarts Asleep
      dsimp only
      rw [ledger_issueTheft]
      exact Lawful.theftTrigger h _
    · exact phase _ h
  · dsimp only
    split
    · exact phase _ h
    · refine .asleep (Lawful.startDrainFinishes h _ fun r hr => ?_)
      have := (List.mem_filter.1 hr).2
      unfold drainDue at this
      simp only [Bool.and_eq_true, decide_eq_true_eq] at this
      exact this.1.1.1.1.2
  · exact admitPhase_good h u

/-- Start-up is not over while a phase is left. -/
theorem Good.asleep_of_startUp (h : Good s) {u : StartUp} (hu : s.startUp = some u) : Asleep s := by
  cases h with
  | asleep h => exact h
  | awake p h =>
    have := h.mode.2
    rw [show (ledger s).starting = s.startUp.isSome from rfl, hu] at this
    cases this

theorem Good.advance (h : Good s) (n : Nat) : Good (advance n s) := by
  induction n generalizing s with
  | zero => exact h
  | succ n ih =>
    unfold Machine.advance
    split
    · rename_i u hu
      split
      · exact h
      · exact ih (runPhase_good (h.asleep_of_startUp hu) u)
    · exact h

theorem Good.startUpGoesOn (h : Good s) : Good (startUpGoesOn s) := h.advance 64

theorem restartPart_good (h : Lawful .awake d x (ledger s)) (p : StartInputs) : Good (restartPart s p) := by
  have ha := h.abortAll none
  unfold restartPart beginStartUp
  dsimp only
  generalize Machine.abortAll s none = u at ha
  refine Good.startUpGoesOn (.asleep (Lawful.cleared ?_ dark_asleep ?_ rfl rfl rfl rfl rfl rfl rfl rfl rfl))
  · exact ha.records
  · exact ⟨ha.mode.1, rfl⟩

end

end Sys2Proof.Machine
end

section
/-! The request in service, under the law of the ledger (O7). -/

namespace Sys2Proof.Machine

section
variable {m : Mode} {d : Owing} {x : SlotIx → Nat} {s : State}

/-! ## The request in service -/

/-- The request in service is answered: what it promised goes with it. -/
theorem Carried.answered (h : Carried s) (r : Response) : Idle (respond s r) := by
  obtain ⟨p, h⟩ := h
  unfold Machine.respond
  split
  · have hn : Idle { s with control := { s.control with service := none } } :=
      h.reserve (b := stillIn { s.control with service := none } s.power) (p := .nothing) fun k => absurd k not_dark_awake
    dsimp only
    refine Lawful.takeNext ?_
    split
    · exact hn
    · exact hn
  · rename_i hs
    have hp : p = .nothing := by
      have e : dutyIn s.control = p := h.served
      rw [← e, dutyIn, hs]
    rwa [hp] at h

theorem Carried.respond (h : Carried s) (r : Response) : Good (respond s r) := .awake .nothing (h.answered r)

/-- The request in service is settled to answer, or to go on with no promise. -/
theorem Carried.setAfter (h : Carried s) {a : After} (ha : dutyAfter a = .nothing) : Idle (setAfter s a) := by
  obtain ⟨p, h⟩ := h
  unfold Idle
  rw [ledger_setAfter, ha, ite_self]
  exact h.reserve (b := (ledger s).still) fun k => absurd k not_dark_awake

theorem Carried.respondAfter (h : Carried s) (ops : List StoreOp) (r : Response) : Good (respondAfter s ops r) := by
  unfold Machine.respondAfter
  split
  · exact h.respond r
  · refine .awake .nothing ?_
    rw [ledger_issueAll]
    exact h.setAfter rfl

theorem Carried.of_ledger {t : State} (h : Carried s) (e : ledger t = ledger s) : Carried t := by
  obtain ⟨p, h⟩ := h
  exact ⟨p, by rwa [e]⟩

/-- New flags of a range. -/
theorem Carried.modFlags (h : Carried s) (r : RangeIx) (flags : Flags) :
    Carried (modRange s r (fun x => { x with flags := flags })) := h.of_ledger (ledger_modRange rfl)

theorem Carried.engine (h : Carried s) : Carried (engine s) := by
  obtain ⟨p, h⟩ := h
  exact ⟨p, h.engine⟩

theorem Carried.takeUp (h : Carried s) (want : RangeIx → Bool) : Carried (takeUp s want) := by
  obtain ⟨p, h⟩ := h
  exact ⟨p, h.takeUp want⟩

theorem Carried.unlockAll (h : Carried s) (c : Option CredIx) (set : List RangeIx) (access : RangeIx → Access) :
    Carried (unlockAll s c set access) := by
  unfold Machine.unlockAll
  exact ((h.takeUp _).of_ledger (ledger_foldl (ledger_unlockRange c access) _ _)).engine

theorem Carried.credChanged (h : Carried s) (c : CredIx) (f : Cred → Cred) (l : List RangeIx) :
    Carried (credChanged s c f l) := by
  unfold Machine.credChanged
  split
  · exact h
  · exact ((Carried.takeUp (s := modCred s c f) h _).of_ledger (ledger_foldl ledger_openIfUnguarded _ _)).engine

/-- The entry of a new range. -/
theorem Lawful.define (h : Lawful m d x (ledger s)) (hd : d.owed = .nothing) {r : RangeIx} (hr : s.ranges[r].active = false)
    (start len : Nat) (flags : Flags) (gen : Gen) :
    Lawful m d x (ledger (Machine.modRange s r (fun _ => definedEntry start len flags gen))) := by
  obtain ⟨h1, h2⟩ := (h.entries r).idle (.inl hr)
  rw [ledger_modRange_eq]
  refine h.reentry (fun i => ?_) ⟨fun _ => ⟨rfl, rfl⟩, nofun, fun k => absurd rfl k, nofun⟩
    (fun _ => .inr (.inr (.inl rfl))) (by rw [hd]; exact .nothing)
  rw [mentions_eq, mentions_eq, h1, h2]
  rfl

/-- The naming of a range whose migration begins. -/
def Naming.begun (e : Naming) : Naming := { e with migrating := true, next := some none }

theorem mentions_begun {e : Naming} (h : e.next.join = none) (i : SlotIx) : mentions e.begun i = mentions e i := by
  rw [mentions_eq, mentions_eq, h]
  rfl

/-- A migration begins for the RANGE.REKEY in service. -/
theorem Lawful.beginMigration {p : Duty} {r : RangeIx} (h : Lawful m ⟨p, .rekey r⟩ x (ledger s))
    (hr : s.ranges[r].cond ≠ .draining) (g : MigRec) (hg : g.nextSlot = none) :
    Lawful m ⟨p, .nothing⟩ x (ledger (Machine.modRange s r (fun x => { x with cond := .migrating, mig := some g }))) := by
  have hm := h.duty.rekey r rfl
  have he := h.entries r
  have hn : ((ledger s).entries r).next.join = none := by
    by_contra k
    have := he.next k
    rw [hm] at this
    cases this
  have hnew : namingOf { s.ranges[r] with cond := .migrating, mig := some g } = ((ledger s).entries r).begun := by
    change _ = (namingOf s.ranges[r]).begun
    simp only [namingOf, Naming.begun, Option.map_some, hg]
    simp [hr, -Fin.getElem_fin]
  rw [ledger_modRange_eq, hnew]
  exact
    { h with
      slots := fun i => by
        have hu := totalNamings_update (ledger s).entries r ((ledger s).entries r).begun i
        rw [mentions_begun hn] at hu
        have e : totalNamings (Function.update (ledger s).entries r ((ledger s).entries r).begun) i =
            totalNamings (ledger s).entries i := by omega
        dsimp only
        rw [e]
        exact h.slots i
      entries := fun q => by
        dsimp only
        rw [Function.update_apply]
        split
        · exact ⟨fun k => ⟨(he.idle k).1, rfl⟩, he.finishing, fun _ => rfl, nofun⟩
        · exact h.entries q
      held := fun i q gen hi hq ho => by
        dsimp only
        rw [Function.update_apply]
        split
        · exact .inl rfl
        · rename_i hne
          rcases h.held i q gen hi hq ho with k | k | k | k
          · exact .inl k
          · exact .inr (.inl k)
          · exact .inr (.inr (.inl k))
          · cases k
            exact absurd rfl hne
      duty := .nothing }

/-- The law of a request that goes on with what it owes. -/
theorem Good.served (h : Good s) {v : Service} (hv : s.control.service = some v) :
    Lawful .awake ⟨dutyAfter v.after, dutyAfter v.after⟩ noRefs (ledger s) := by
  cases h with
  | asleep h =>
    have := h.no_service dark_asleep
    rw [hv] at this
    cases this
  | awake p h =>
    have hp : dutyAfter v.after = p := by
      have e : dutyIn s.control = p := h.served
      rw [← e, dutyIn, hv]
    rwa [hp]

/-- RANGE.DEFINE takes effect. -/
theorem Carried.rangeDefine {r : RangeIx} {p : Duty} (h : Lawful .awake ⟨p, .define r⟩ noRefs (ledger s)) (start len : Nat)
    (flags : Flags) (gen : Gen) :
    Carried (Machine.takeUp (modRange s r (fun _ => definedEntry start len flags gen)) (fun _ => true)) :=
  Carried.takeUp ⟨p, (h.drop_duty nofun).define rfl (h.duty.define r rfl) start len flags gen⟩ _

/-- RANGE.REKEY takes effect, where its range is not DRAINING. -/
theorem Carried.startRekey {r : RangeIx} {p : Duty} (h : Lawful .awake ⟨p, .rekey r⟩ noRefs (ledger s))
    (hr : s.ranges[r].cond ≠ .draining) (j : JobNo) (level : Nat) (policy : LanePolicy) (chunkSize : Nat) :
    Carried (startRekey s r j level policy chunkSize) :=
  ((Carried.takeUp ⟨p, h.beginMigration hr ⟨rangeStart s r, none, none, some j, level, policy, chunkSize⟩ rfl⟩ _).of_ledger
    (ledger_queueJob _ _ _)).engine

/-- RANGE.REKEY ends refused, where its range has become DRAINING. -/
theorem Carried.endRekey {r : RangeIx} {p : Duty} (h : Lawful .awake ⟨p, .rekey r⟩ noRefs (ledger s))
    (hr : s.ranges[r].cond = .draining) (j : JobNo) :
    Carried (Machine.engine (setJob (Machine.takeUp s (fun _ => false)) j .free)) := by
  have hn : Carried s := ⟨p, h.drop_duty fun q e => by
    cases e
    exact .inr (.inl (by change (namingOf s.ranges[r]).draining = true; simp [namingOf, hr, -Fin.getElem_fin]))⟩
  exact ((hn.takeUp _).of_ledger (ledger_setJob _ _ _)).engine

theorem finishService_good (h : Good s) : Good (finishService s) := by
  unfold finishService
  split
  · exact h
  rename_i v hv
  have hl := h.served hv
  have plain : dutyAfter v.after = .nothing → Carried s := fun e => ⟨_, e ▸ hl⟩
  dsimp only
  split <;> rename_i ha
  case h_1 => exact h
  case h_2 r => exact (plain (by rw [ha]; rfl)).respond r
  case h_3 => exact ((plain (by rw [ha]; rfl)).of_ledger (ledger_endPrepared s)).respond _
  case h_4 => exact (plain (by rw [ha]; rfl)).respond _
  case h_5 =>
    have hc := plain (by rw [ha]; rfl)
    split
    · exact h
    · exact restartPart_good (hc.answered _) _
  case h_6 => exact (((plain (by rw [ha]; rfl)).of_ledger (ledger_modDev _ _)).unlockAll _ _ _).respond _
  case h_14 =>
    rw [ha] at hl
    exact ((Carried.rangeDefine hl _ _ _ _).of_ledger (ledger_configChanged _ _ _ _)).respond _
  case h_15 =>
    refine Carried.respondAfter ?_ _ _
    obtain ⟨p, hp⟩ := plain (by rw [ha]; rfl)
    exact Carried.of_ledger ⟨p, (hp.deleteRange _).engine⟩ (ledger_configChanged _ _ _ _)
  case h_16 r flags bar =>
    have hc := (plain (by rw [ha]; rfl)).modFlags r flags
    refine Carried.respond (Carried.of_ledger ?_ (ledger_configChanged _ _ _ _)) _
    split
    · exact hc.credChanged _ _ _
    · exact hc
  case h_17 =>
    rw [ha] at hl
    split
    · rename_i hr
      exact (Carried.endRekey hl hr _).respond _
    · rename_i hr
      exact ((Carried.startRekey hl hr _ _ _ _).of_ledger (ledger_configChanged _ _ _ _)).respond _
  case h_18 =>
    have hc := plain (by rw [ha]; rfl)
    refine Carried.respond (Carried.of_ledger ?_ (ledger_configChanged _ _ _ _)) _
    split
    · exact hc.of_ledger rfl
    · exact hc.of_ledger rfl
  case h_19 =>
    have hc := plain (by rw [ha]; rfl)
    refine Carried.respond (Carried.of_ledger ?_ (ledger_configChanged _ _ _ _)) _
    exact hc.of_ledger rfl
  case h_20 =>
    have hc := plain (by rw [ha]; rfl)
    split
    · exact hc.respond _
    · split
      · exact hc.respond _
      · rw [ha] at hl
        refine .awake .nothing ?_
        rw [ledger_issue]
        exact hl.recontrol (c := { s.control with service := some { v with after := .commit _ _ } })
          (by simp only [dutyIn, hv, ha]; rfl) fun k => absurd k not_dark_awake
  case h_21 =>
    obtain ⟨p, hp⟩ := plain (by rw [ha]; rfl)
    exact Carried.respondAfter ⟨p, (hp.commitStored _ _).engine⟩ _ _
  case h_22 =>
    have hc := plain (by rw [ha]; rfl)
    exact (hc.of_ledger ((ledger_configChanged _ _ _ _).trans (ledger_setTheft _ _ _ _ _))).respond _
  case h_23 =>
    have hc := plain (by rw [ha]; rfl)
    exact ((Carried.engine (hc.of_ledger (by rfl))).of_ledger (ledger_configChanged _ _ _ _)).respond _
  all_goals exact (((plain (by rw [ha]; rfl)).credChanged _ _ _).of_ledger (ledger_configChanged _ _ _ _)).respond _

end

end Sys2Proof.Machine
end

section
/-! The requests, under the law of the ledger (O7). -/

namespace Sys2Proof.Machine

section
variable {s : State} {b : RequestBlock} {dirty : Bool}

/-! ## Checks, and what follows them -/

theorem Lawful.toCarried (h : Idle s) : Carried s := ⟨_, h⟩

/-- The request in service goes on, promising nothing. -/
theorem Carried.proceed (h : Carried s) {a : After} (ha : dutyAfter a = .nothing) (ops : List StoreOp) :
    Good (proceed s dirty ops a) := by
  have hg : Good (Machine.setAfter s a) := .awake .nothing (h.setAfter ha)
  unfold Machine.proceed
  dsimp only
  split
  · exact finishService_good hg
  · exact hg.of_ledger (ledger_issueChain _ _ _)

theorem Carried.refuse (h : Carried s) (st : RespStatus) : Good (refuse s dirty st) := h.proceed rfl _

theorem Carried.carried (h : Carried s) (r : Results) : Good (carried s dirty r) := h.proceed rfl _

/-- The request in service goes on with its store writes, owing what it promises. -/
theorem Lawful.proceedOwing {p q : Duty} (h : Lawful .awake ⟨q, p⟩ noRefs (ledger s))
    (hs : s.control.service.isSome = true) {a : After} (ha : dutyAfter a = p) (ops : List StoreOp) :
    Good (proceed s dirty ops a) := by
  have hg : Good (Machine.setAfter s a) := by
    refine .awake p ?_
    rw [ledger_setAfter, hs, if_pos rfl, ha]
    exact h.reserve (b := (ledger s).still) fun k => absurd k not_dark_awake
  unfold Machine.proceed
  dsimp only
  split
  · exact finishService_good hg
  · exact hg.of_ledger (ledger_issueChain _ _ _)

/-- The request in service begins its checks: nothing is promised. -/
structure Ready (s : State) : Prop where
  idle : Idle s
  busy : s.control.service.isSome = true

theorem Ready.of_ledger {t : State} (h : Ready s) (e : ledger t = ledger s) (hs : t.control.service = s.control.service) :
    Ready t := ⟨by unfold Idle; rw [e]; exact h.idle, by rw [hs]; exact h.busy⟩

theorem Ready.toCarried (h : Ready s) : Carried s := h.idle.toCarried

theorem Carried.mismatch (h : Carried s) (c : CredIx) : Good (mismatch s b c) := by
  have hc : Idle (Machine.setAfter (countMismatch s b c) (.respond (refusal .denied))) :=
    Carried.setAfter (h.of_ledger (ledger_countMismatch s b c)) rfl
  unfold Machine.mismatch
  dsimp only
  generalize Machine.setAfter (countMismatch s b c) (.respond (refusal .denied)) = u at hc
  split
  · refine .awake .nothing (Lawful.engine ?_)
    rw [ledger_issueTheft]
    exact Lawful.theftTrigger (s := modDev u (fun d => { d with strikes := 0 })) hc _
  · exact .awake .nothing (by rw [ledger_issue]; exact hc)

theorem Ready.withProof (h : Ready s) {owner : Bool} {go : State → Option CredIx → Bool → State}
    (hgo : ∀ t c dirty, Ready t → Good (go t c dirty)) : Good (withProof s b owner go) := by
  unfold Machine.withProof
  split
  · exact h.toCarried.refuse _
  · exact h.toCarried.mismatch _
  · exact hgo _ _ _ (h.of_ledger (ledger_countMatch s _) rfl)
  · exact hgo _ _ _ h

theorem Ready.ownerRequest (h : Ready s) {config : Bool} {go : State → Bool → State}
    (hgo : ∀ t dirty, Ready t → Good (go t dirty)) : Good (ownerRequest s b config go) := by
  refine h.withProof fun t c dirty ht => ?_
  split
  · exact ht.toCarried.refuse _
  · split
    · exact ht.toCarried.refuse _
    · exact hgo t dirty ht

/-! ## The credentials -/

theorem Ready.holdKeys (h : Ready s) (l : List RangeIx) : Carried (Machine.holdKeys s l) :=
  (Lawful.holdKeys h.idle not_dark_awake l).toCarried

theorem serveUnlock_good (h : Ready s) (c : CredIx) (l : List Nat) : Good (serveUnlock s c dirty l) := by
  unfold serveUnlock
  split
  · exact h.toCarried.refuse _
  · split
    · exact h.toCarried.refuse _
    · split
      · exact h.toCarried.refuse _
      · split
        · exact h.toCarried.refuse _
        · exact (h.holdKeys _).proceed rfl _

theorem serveUnlockAbsent_good (h : Ready s) (l : List Nat) : Good (serveUnlockAbsent s l) := by
  unfold serveUnlockAbsent
  split
  · exact h.toCarried.refuse _
  · split
    · exact h.toCarried.refuse _
    · split
      · exact h.toCarried.refuse _
      · split
        · exact h.toCarried.refuse _
        · exact ((h.holdKeys _).unlockAll _ _ _).carried _

theorem serveLock_good (h : Ready s) (l : List Nat) : Good (serveLock s dirty l) := by
  unfold serveLock
  split
  · exact h.toCarried.refuse _
  · split
    · exact h.toCarried.refuse _
    · exact (h.idle.lockProcedure _ _).engine.toCarried.carried _

theorem serveCredSet_good (h : Ready s) (c : Option CredIx) (target verifier : Nat) :
    Good (serveCredSet s c dirty target verifier) := by
  unfold serveCredSet
  extract_lets allowed
  split
  · exact h.toCarried.refuse _
  · split
    · exact h.toCarried.refuse _
    · split
      · exact h.toCarried.refuse _
      · exact h.toCarried.proceed rfl _

theorem serveCredClear_good (h : Ready s) (target : Nat) : Good (serveCredClear s dirty target) := by
  unfold serveCredClear
  split
  · exact h.toCarried.refuse _
  · dsimp only
    split
    · exact h.toCarried.refuse _
    · exact (h.holdKeys _).proceed rfl _

theorem serveCredGrant_good (h : Ready s) (target range access : Nat) :
    Good (serveCredGrant s dirty target range access) := by
  unfold serveCredGrant
  split
  · split
    · exact h.toCarried.refuse _
    · split
      · exact h.toCarried.refuse _
      · exact h.toCarried.proceed rfl _
  · exact h.toCarried.refuse _

theorem serveCredRevoke_good (h : Ready s) (target range : Nat) : Good (serveCredRevoke s dirty target range) := by
  unfold serveCredRevoke
  split
  · split
    · exact h.toCarried.refuse _
    · dsimp only
      split
      · exact h.toCarried.refuse _
      · exact (h.holdKeys _).proceed rfl _
  · exact h.toCarried.refuse _

theorem serveCredBudget_good (h : Ready s) (target budget : Nat) : Good (serveCredBudget s dirty target budget) := by
  unfold serveCredBudget
  split
  · split
    · exact h.toCarried.proceed rfl _
    · exact h.toCarried.refuse _
  · exact h.toCarried.refuse _

/-! ## The ranges -/

theorem placeKey_control (s : State) (r : RangeIx) (gen : Gen) (role : Role) (key : Option Key) (held : Bool) :
    (placeKey s r gen role key held).2.control = s.control := by
  unfold placeKey
  split <;> rfl

/-- RANGE.DEFINE holds the key of its range, which is FREE. -/
theorem serveRangeDefine_good (h : Ready s) (range start len flags : Nat) :
    Good (serveRangeDefine s dirty range start len flags) := by
  unfold serveRangeDefine
  split
  · exact h.toCarried.refuse _
  · rename_i r _
    split
    · exact h.toCarried.refuse _
    · split
      · exact h.toCarried.refuse _
      · rename_i hfree
        split
        · exact h.toCarried.refuse _
        · dsimp only
          have hr : s.ranges[r].active = false := by
            simp only [Bool.or_eq_true, not_or] at hfree
            simpa using hfree.1
          have hp : Idle (placeKey (takeKey s).2 r (s.store.ranges[r].gen + 1) .current (some (takeKey s).1) true).2 :=
            Lawful.placeHeld (s := (takeKey s).2) h.idle not_dark_awake _ _ nofun
          refine Lawful.proceedOwing (p := .define r) (hp.owe ⟨fun q e => ?_, nofun⟩) ?_ rfl _
          · cases e
            change (placeKey _ _ _ _ _ _).2.ranges[r].active = false
            rw [placeKey_ranges]
            exact hr
          · rw [placeKey_control]
            exact h.busy

theorem serveRangeDelete_good (h : Ready s) (range : Nat) : Good (serveRangeDelete s dirty range) := by
  unfold serveRangeDelete
  split
  · exact h.toCarried.refuse _
  · split
    · exact h.toCarried.refuse _
    · split
      · exact h.toCarried.refuse _
      · exact h.toCarried.proceed rfl _

theorem serveRangeFlags_good (h : Ready s) (range flags : Nat) : Good (serveRangeFlags s dirty range flags) := by
  unfold serveRangeFlags
  split
  · exact h.toCarried.refuse _
  · extract_lets f bar need ops
    split
    · exact h.toCarried.refuse _
    · split
      · exact h.toCarried.refuse _
      · exact (h.holdKeys _).proceed rfl _

/-- RANGE.REKEY holds the next key of its range, which is STEADY. -/
theorem takeRekey_good (h : Ready s) {r : RangeIx} (hr : s.ranges[r].cond = .steady) (level : Nat) (p : LanePolicy)
    (chunkSize : Nat) : Good (takeRekey s dirty r level p chunkSize) := by
  unfold takeRekey
  split
  · exact h.toCarried.refuse _
  · rename_i j _
    have hj : Ready (setJob s j .reserved) := h.of_ledger (ledger_setJob s j .reserved) rfl
    have hjr : (setJob s j .reserved).ranges[r].cond = .steady := hr
    dsimp only
    generalize setJob s j .reserved = u at hj hjr
    split
    · exact (hj.toCarried.of_ledger (ledger_setJob u j .free)).engine.refuse _
    · have ho : Lawful .awake ⟨.nothing, .rekey r⟩ noRefs (ledger (takeKey u).2) :=
        hj.idle.owe ⟨nofun, fun q e => by
          cases e
          change decide (u.ranges[r].cond = .migrating) = false
          rw [hjr]
          rfl⟩
      refine Lawful.proceedOwing (Lawful.placeHeld ho not_dark_awake _ _ fun _ => .inr (.inr (.inr rfl))) ?_ rfl _
      rw [placeKey_control]
      exact hj.busy

theorem serveRangeRekey_good (h : Ready s) (c : Option CredIx) (range level policy chunkSize : Nat) :
    Good (serveRangeRekey s c dirty range level policy chunkSize) := by
  unfold serveRangeRekey
  split
  · exact h.toCarried.refuse _
  · split
    · exact h.toCarried.refuse _
    · split
      · split
        · exact h.toCarried.refuse _
        · split
          · exact h.toCarried.refuse _
          · rename_i hr
            simp only [Bool.or_eq_true, decide_eq_true_eq, not_or, not_not] at hr
            exact takeRekey_good h hr.2 _ _ _
      · exact h.toCarried.refuse _

/-! ## The regions, the wipes, the theft policy and the power policy -/

theorem serveCeiling_good (h : Ready s) (value mode : Nat) : Good (serveCeiling s dirty value mode) := by
  unfold serveCeiling
  split
  · exact h.toCarried.refuse _
  · split
    · exact h.toCarried.proceed rfl _
    · split
      · exact h.toCarried.refuse _
      · exact h.toCarried.proceed rfl _
    · exact h.toCarried.refuse _

theorem serveReserveOpen_good (h : Ready s) (c : Option CredIx) : Good (serveReserveOpen s c dirty) := by
  unfold serveReserveOpen
  split
  · exact h.toCarried.refuse _
  · have hs : Carried { s with regions := { s.regions with reserveView := !s.sleepLine } } := h.toCarried.of_ledger rfl
    exact hs.proceed rfl _

theorem servePbw_good (h : Ready s) (len enabled writeOpen : Nat) : Good (servePbw s dirty len enabled writeOpen) := by
  unfold servePbw
  split
  · split
    · exact h.toCarried.refuse _
    · exact h.toCarried.proceed rfl _
  · exact h.toCarried.refuse _

theorem servePrepare_good (h : Ready s) (c : Option CredIx) (level pattern : Nat) (set : Option (List Nat)) :
    Good (servePrepare s c dirty level pattern set) := by
  unfold servePrepare
  dsimp only
  split
  · exact h.toCarried.refuse _
  · split
    · exact h.toCarried.refuse _
    · split
      · split
        · exact h.toCarried.refuse _
        · exact (h.toCarried.of_ledger (ledger_recordPrepared _ _ _ _)).carried _
      · exact h.toCarried.refuse _

theorem serveCommit_good (h : Ready s) (prepared : Option Prepared) (c : Option CredIx) (ticket : Nat) :
    Good (serveCommit prepared s c dirty ticket) := by
  unfold serveCommit
  split
  · split
    · exact h.toCarried.refuse _
    · exact h.toCarried.proceed rfl _
  · exact h.toCarried.refuse _

theorem serveTheft_good (h : Ready s) (limit threshold purge : Nat) (lines : List Nat) (minutes ack : Nat) :
    Good (serveTheft s dirty limit threshold purge lines minutes ack) := by
  unfold serveTheft
  split
  · exact h.toCarried.proceed rfl _
  · exact h.toCarried.refuse _

theorem servePower_good (h : Ready s) (idle doze : Nat) : Good (servePower s dirty idle doze) := by
  unfold servePower
  split
  · exact h.toCarried.proceed rfl _
  · exact h.toCarried.refuse _

/-! ## The sweeps -/

theorem Carried.freeReported (h : Carried s) : Carried (freeReported s) := by
  unfold Machine.freeReported
  split
  · exact (h.of_ledger (ledger_foldl ledger_freeFinished _ _)).engine
  · exact h

theorem Carried.pauseByRequest (h : Carried s) (j : JobNo) (a : Job) : Carried (pauseByRequest s j a) := by
  have set : ∀ e, Carried (setJob s j e) := fun e => h.of_ledger (ledger_setJob s j e)
  have pause : Carried (Machine.engine (pauseJob s j .request)) := (h.of_ledger (ledger_pauseJob s j .request)).engine
  unfold Machine.pauseByRequest
  split
  · split
    · exact set _
    · exact pause
  · exact pause
  · exact pause
  · exact set _
  all_goals exact h

theorem Carried.resumeByRequest (h : Carried s) (j : JobNo) (a : Job) : Carried (resumeByRequest s j a) := by
  have back : Carried (Machine.engine (returnJob s j)) := (h.of_ledger (ledger_returnJob s j)).engine
  unfold Machine.resumeByRequest
  split
  · split
    · exact back
    · exact h
  · exact back
  · split
    · exact h.of_ledger (ledger_setJob _ _ _)
    · exact h
  all_goals exact h

theorem Carried.cancelByRequest (h : Carried s) (j : JobNo) (a : Job) : Carried (cancelByRequest s j a).1 := by
  unfold Machine.cancelByRequest
  split
  · exact h.of_ledger (ledger_setJob _ _ _)
  · exact (h.of_ledger (by simp)).engine

/-! ## The commands -/

theorem Ready.endPrepared (h : Ready s) : Ready (endPrepared s) := h.of_ledger (ledger_endPrepared s) rfl

/-- A request whose checks begin finds nothing promised. -/
theorem Good.atStart (h : Good s) {a : RequestBlock} (ha : atStart s = some a) : Ready s := by
  unfold Machine.atStart at ha
  split at ha
  · rename_i v hv
    split at ha
    · rename_i hc
      simp only [Bool.and_eq_true, decide_eq_true_eq] at hc
      have hl := h.served hv
      rw [hc.1] at hl
      exact ⟨hl, by rw [hv]; rfl⟩
    · cases ha
  · cases ha

theorem Good.begins (h : Good s) {x : RequestBlock × Request} (hx : starting s = some x) : Ready s := by
  unfold Machine.starting at hx
  split at hx
  · rename_i a ha
    exact h.atStart ha
  · cases hx

/-- A parsed request whose checks begin ends the prepared state. -/
theorem Good.starting (h : Good s) {x : RequestBlock × Request} (hx : starting s = some x) : Ready (Machine.endPrepared s) :=
  (h.begins hx).endPrepared

end

end Sys2Proof.Machine
end

section
/-! The commands of the requests, under the law of the ledger (O7). -/

namespace Sys2Proof.Machine

section
variable {s : State}

/-- Every next state that an outcome gives is one of the law. -/
def GoodNext (o : Host.Outcome State Fault Refusal) : Prop := ∀ t, o = .next t → Good t

theorem GoodNext.next {t : State} (h : Good t) : GoodNext (.next t) := by
  rintro _ ⟨⟩
  exact h

theorem GoodNext.fault {f : Fault} : GoodNext (.fault f) := by
  rintro _ ⟨⟩

/-- A check that is refused, or that finds a mismatch, ends a QUERY. -/
theorem queryEnds_good (h : Ready s) (b : RequestBlock) : Good (withProof s b false (fun s _ _ => s)) :=
  h.withProof fun _ _ _ ht => .awake _ ht.idle

theorem queryGoesOn_good (h : Ready s) (b : RequestBlock) :
    Good (withProof s b false (fun s _ dirty => proceed s dirty [] .query)) :=
  h.withProof fun _ _ _ ht => ht.toCarried.proceed rfl _

theorem execQuery_good (h : Good s) : GoodNext (execQuery s) := by
  unfold execQuery
  split
  · rename_i b hx
    have hs := h.begins hx
    split
    · exact .next (queryGoesOn_good hs b)
    · exact .next (queryEnds_good hs.endPrepared b)
    · exact .next (queryEnds_good hs.endPrepared b)
  · exact .next h

theorem execRestart_good (h : Good s) (p : StartInputs) : GoodNext (execRestart p s) := by
  unfold execRestart
  split
  · rename_i hx
    exact .next ((h.starting hx).ownerRequest fun _ _ ht => ht.toCarried.proceed rfl _)
  · exact .next h

theorem execFreeze_good (h : Good s) : GoodNext (execFreeze s) := by
  unfold execFreeze
  split
  · rename_i hx
    refine .next ((h.starting hx).withProof fun t _ _ ht => ?_)
    have hc : Carried { t with control := { t.control with frozen := true } } := ht.toCarried.of_ledger rfl
    exact hc.carried _
  · exact .next h

theorem execJournalRead_good (h : Good s) : GoodNext (execJournalRead s) := by
  unfold execJournalRead
  split
  · rename_i hx
    refine .next ((h.starting hx).withProof fun t _ _ ht => ?_)
    have hc : Carried { t with journal := afterRead t.journal } := ht.toCarried.of_ledger rfl
    exact hc.carried _
  · exact .next h

theorem execJournalMask_good (h : Good s) : GoodNext (execJournalMask s) := by
  unfold execJournalMask
  split
  · rename_i n hx
    refine .next ((h.starting hx).withProof fun t _ _ ht => ?_)
    have hc : Carried { t with journal := { t.journal with mask := allowedMask n } } := ht.toCarried.of_ledger rfl
    exact hc.carried _
  · exact .next h

theorem execUnknownRequest_good (h : Good s) : GoodNext (execUnknownRequest s) := by
  unfold execUnknownRequest
  split
  · rename_i ha
    split
    · exact .next ((h.atStart ha).endPrepared.toCarried.respond _)
    · exact .next h
  · exact .next h

theorem execUnlock_good (h : Good s) : GoodNext (execUnlock s) := by
  unfold execUnlock
  split
  · rename_i hx
    split
    · refine .next ((h.starting hx).withProof fun _ _ _ ht => ?_)
      split
      · exact serveUnlock_good ht _ _
      · exact .awake _ ht.idle
    · exact .next h
  · exact .next h

theorem execUnlockAbsent_good (h : Good s) : GoodNext (execUnlockAbsent s) := by
  unfold execUnlockAbsent
  split
  · rename_i hx
    split
    · exact .next (serveUnlockAbsent_good (h.starting hx) _)
    · exact .next h
  · exact .next h

theorem execLock_good (h : Good s) : GoodNext (execLock s) := by
  unfold execLock
  split
  · rename_i hx
    exact .next ((h.starting hx).withProof fun _ _ _ ht => serveLock_good ht _)
  · exact .next h

theorem execCredSet_good (h : Good s) : GoodNext (execCredSet s) := by
  unfold execCredSet
  split
  · rename_i hx
    exact .next ((h.starting hx).withProof fun _ _ _ ht => serveCredSet_good ht _ _ _)
  · exact .next h

theorem execCredClear_good (h : Good s) : GoodNext (execCredClear s) := by
  unfold execCredClear
  split
  · rename_i hx
    exact .next ((h.starting hx).ownerRequest fun _ _ ht => serveCredClear_good ht _)
  · exact .next h

theorem execCredDisable_good (h : Good s) : GoodNext (execCredDisable s) := by
  unfold execCredDisable
  split
  · rename_i hx
    refine .next ((h.starting hx).ownerRequest fun _ _ ht => ?_)
    split
    · exact ht.toCarried.refuse _
    · exact ht.toCarried.proceed rfl _
  · exact .next h

theorem execCredEnable_good (h : Good s) : GoodNext (execCredEnable s) := by
  unfold execCredEnable
  split
  · rename_i hx
    refine .next ((h.starting hx).ownerRequest fun _ _ ht => ?_)
    split
    · exact ht.toCarried.refuse _
    · exact ht.toCarried.proceed rfl _
  · exact .next h

theorem execCredGrant_good (h : Good s) : GoodNext (execCredGrant s) := by
  unfold execCredGrant
  split
  · rename_i hx
    exact .next ((h.starting hx).ownerRequest fun _ _ ht => serveCredGrant_good ht _ _ _)
  · exact .next h

theorem execCredRevoke_good (h : Good s) : GoodNext (execCredRevoke s) := by
  unfold execCredRevoke
  split
  · rename_i hx
    exact .next ((h.starting hx).ownerRequest fun _ _ ht => serveCredRevoke_good ht _ _)
  · exact .next h

theorem execCredBudget_good (h : Good s) : GoodNext (execCredBudget s) := by
  unfold execCredBudget
  split
  · rename_i hx
    exact .next ((h.starting hx).ownerRequest fun _ _ ht => serveCredBudget_good ht _ _)
  · exact .next h

theorem execRangeDefine_good (h : Good s) : GoodNext (execRangeDefine s) := by
  unfold execRangeDefine
  split
  · rename_i hx
    exact .next ((h.starting hx).ownerRequest fun _ _ ht => serveRangeDefine_good ht _ _ _ _)
  · exact .next h

theorem execRangeDelete_good (h : Good s) : GoodNext (execRangeDelete s) := by
  unfold execRangeDelete
  split
  · rename_i hx
    exact .next ((h.starting hx).ownerRequest fun _ _ ht => serveRangeDelete_good ht _)
  · exact .next h

theorem execRangeFlags_good (h : Good s) : GoodNext (execRangeFlags s) := by
  unfold execRangeFlags
  split
  · rename_i hx
    exact .next ((h.starting hx).ownerRequest fun _ _ ht => serveRangeFlags_good ht _ _)
  · exact .next h

theorem execRangeRekey_good (h : Good s) : GoodNext (execRangeRekey s) := by
  unfold execRangeRekey
  split
  · rename_i hx
    exact .next ((h.starting hx).withProof fun _ _ _ ht => serveRangeRekey_good ht _ _ _ _ _)
  · exact .next h

theorem execCeilingSet_good (h : Good s) : GoodNext (execCeilingSet s) := by
  unfold execCeilingSet
  split
  · rename_i hx
    exact .next ((h.starting hx).ownerRequest fun _ _ ht => serveCeiling_good ht _ _)
  · exact .next h

theorem execReserveOpen_good (h : Good s) : GoodNext (execReserveOpen s) := by
  unfold execReserveOpen
  split
  · rename_i hx
    exact .next ((h.starting hx).withProof fun _ _ _ ht => serveReserveOpen_good ht _)
  · exact .next h

theorem execReserveClose_good (h : Good s) : GoodNext (execReserveClose s) := by
  unfold execReserveClose
  split
  · rename_i hx
    refine .next ((h.starting hx).ownerRequest fun t _ ht => ?_)
    have hc : Carried { t with regions := { t.regions with reserveView := false } } := ht.toCarried.of_ledger rfl
    exact hc.carried _
  · exact .next h

theorem execPbwSet_good (h : Good s) : GoodNext (execPbwSet s) := by
  unfold execPbwSet
  split
  · rename_i hx
    exact .next ((h.starting hx).ownerRequest fun _ _ ht => servePbw_good ht _ _ _)
  · exact .next h

theorem execWipePrepare_good (h : Good s) : GoodNext (execWipePrepare s) := by
  unfold execWipePrepare
  split
  · rename_i hx
    exact .next ((h.starting hx).withProof fun _ _ _ ht => servePrepare_good ht _ _ _ _)
  · exact .next h

theorem execWipeCommit_good (h : Good s) : GoodNext (execWipeCommit s) := by
  unfold execWipeCommit
  split
  · rename_i hx
    exact .next ((h.starting hx).withProof fun _ _ _ ht => serveCommit_good ht _ _ _)
  · exact .next h

theorem execSweepStatus_good (h : Good s) : GoodNext (execSweepStatus s) := by
  unfold execSweepStatus
  split
  · rename_i hx
    exact .next ((h.starting hx).withProof fun _ _ _ ht => ht.toCarried.freeReported.carried _)
  · exact .next h

theorem execSweepPause_good (h : Good s) : GoodNext (execSweepPause s) := by
  unfold execSweepPause
  split
  · rename_i hx
    refine .next ((h.starting hx).ownerRequest fun _ _ ht => ?_)
    split
    · exact ht.toCarried.refuse _
    · split
      · exact ht.toCarried.refuse _
      · exact (ht.toCarried.pauseByRequest _ _).carried _
  · exact .next h

theorem execSweepResume_good (h : Good s) : GoodNext (execSweepResume s) := by
  unfold execSweepResume
  split
  · rename_i hx
    refine .next ((h.starting hx).ownerRequest fun _ _ ht => ?_)
    split
    · exact ht.toCarried.refuse _
    · split
      · exact ht.toCarried.refuse _
      · exact (ht.toCarried.resumeByRequest _ _).carried _
  · exact .next h

theorem execSweepCancel_good (h : Good s) : GoodNext (execSweepCancel s) := by
  unfold execSweepCancel
  split
  · rename_i hx
    refine .next ((h.starting hx).ownerRequest fun _ _ ht => ?_)
    split
    · exact ht.toCarried.refuse _
    · split
      · exact ht.toCarried.refuse _
      · split
        · exact ht.toCarried.refuse _
        · exact (ht.toCarried.cancelByRequest _ _).respondAfter _ _
  · exact .next h

theorem execTheftSet_good (h : Good s) : GoodNext (execTheftSet s) := by
  unfold execTheftSet
  split
  · rename_i hx
    exact .next ((h.starting hx).ownerRequest fun _ _ ht => serveTheft_good ht _ _ _ _ _ _)
  · exact .next h

theorem execPowerSet_good (h : Good s) : GoodNext (execPowerSet s) := by
  unfold execPowerSet
  split
  · rename_i hx
    exact .next ((h.starting hx).ownerRequest fun _ _ ht => servePower_good ht _ _)
  · exact .next h

end

end Sys2Proof.Machine
end

section
/-! The commands of the ports, the store, the lanes and the power controller, under the law of the ledger (O7). -/

namespace Sys2Proof.Machine

section
variable {m : Mode} {d : Owing} {x : SlotIx → Nat} {s : State}

/-! ## Traffic -/

/-- A command that keeps the law in every mode. -/
theorem Good.goes {o : Host.Outcome State Fault Refusal} (h : Good s)
    (ho : ∀ m p t, Lawful m ⟨p, p⟩ noRefs (ledger s) → o = .next t → Lawful m ⟨p, p⟩ noRefs (ledger t)) : GoodNext o :=
  fun t ht => h.map fun m p _ hl => ho m p t hl ht

theorem Good.started (h : Good s) (hs : ¬ s.startUp.isSome = true) : ∃ p, Lawful .awake ⟨p, p⟩ noRefs (ledger s) := by
  cases h with
  | asleep h => exact absurd h.mode.2 hs
  | awake p h => exact ⟨p, h⟩

theorem Lawful.not_dark_of_op (h : Lawful m d x (ledger s)) (hop : s.power.op ≠ .noOp) : ¬ m.dark :=
  fun hm => hop (h.no_op hm)

theorem Lawful.enterPower (h : Lawful m d x (ledger s)) (p : PowerState) : Lawful m d x (ledger (enterPower s p)) := by
  have hp := h.repower (p := { s.power with state := p, op := .noOp, opTimer := 0, stepTimer := 0, dozeDue := false })
    fun _ => rfl
  unfold Machine.enterPower
  dsimp only
  split
  · rw [ledger_raise]
    exact hp
  · exact hp

theorem Lawful.backToActive (h : Lawful m d x (ledger s)) : Lawful m d x (ledger (backToActive s)) := by
  unfold Machine.backToActive
  refine Lawful.engine ?_
  rw [ledger_returnPower]
  exact h.enterPower _

theorem passOn_good (h : Good s) (t : FrontTag) : Good (passOn s t) := by
  unfold passOn
  split
  · exact h.of_ledger (ledger_complete _ _ _ _ _)
  · split
    · exact h.of_ledger (ledger_joinWaiting _ _)
    · rename_i hs
      obtain ⟨p, hl⟩ := h.started hs
      split
      · exact .awake p (hl.admitTxn not_dark_awake t)
      · exact .awake p ((hl.enterPower _).engine.admitTxn not_dark_awake t)
      · refine .awake p ?_
        rw [ledger_joinWaiting]
        exact hl.repower fun k => absurd k not_dark_awake
      · exact h.of_ledger (ledger_joinWaiting _ _)
      · exact h.of_ledger (ledger_joinWaiting _ _)
      · exact h.of_ledger (ledger_joinWaiting _ _)
      · exact h.of_ledger (ledger_complete _ _ _ _ _)

theorem execFrontTransaction_good (h : Good s) (a : Descriptor) : GoodNext (execFrontTransaction a s) := by
  unfold execFrontTransaction
  split
  · exact .next h
  · split
    · exact .next (h.of_ledger (ledger_send _ _ _ _ _))
    · exact .next (passOn_good (h.of_ledger (by rw [ledger_resetTimers, ledger_setTxn])) _)

theorem execLinkReset_good (h : Good s) : GoodNext (execLinkReset s) := by
  unfold execLinkReset
  split
  · exact .next (h.map fun _ _ _ hl => hl.linkReset)
  · exact .next h

/-! ## The media port -/

/-- A media tag is answered, and the part acts for its request. -/
theorem actFor_good (h : Good s) {t : MediaTag} {q : MediaReq} {age : Nat} (ht : s.media.tags[t] = .busy q age)
    {y : TagState} (hy : tagSeg y = none) {u : State} (hu : ledger u = ledger (setTag s t y)) (a : Answer) :
    Good (actFor u q a) := by
  have hg : Good u := h.map fun m p _ hl => by
    rw [hu]
    exact (hl.freeTag t hy).1
  cases hq : q.who with
  | seg id =>
    refine h.map fun m p _ hl => ?_
    obtain ⟨hfree, hplace⟩ := hl.freeTag t hy
    obtain ⟨hf, hst⟩ := hplace id (by rw [ht]; change reqSeg q = _; unfold reqSeg; rw [hq])
    rw [← hu] at hfree hf
    refine hfree.actForSeg hq hf ?_ a
    have hsegs : u.front.segs = s.front.segs := congrArg Ledger.segs (hu.trans (ledger_setTag_eq s t y))
    rwa [hsegs]
  | flush k =>
    refine hg.of_ledger ?_
    unfold actFor
    rw [hq]
    cases a <;> exact ledger_complete _ _ _ _ _
  | sweep k =>
    unfold actFor
    rw [hq]
    dsimp only
    split
    · rename_i c hc
      exact hg.map fun _ _ _ hl => hl.chunkAnswer hc _ _
    · exact hg
  | recovery run write again =>
    unfold actFor
    rw [hq]
    dsimp only
    split
    · exact (hg.of_ledger (ledger_recoveryAnswer _ _ _ _ _ _ _)).startUpGoesOn
    · exact hg
  | discard =>
    unfold actFor
    rw [hq]
    exact hg

theorem Good.freeTag (h : Good s) (t : MediaTag) {y : TagState} (hy : tagSeg y = none) : Good (setTag s t y) :=
  h.map fun _ _ _ hl => (hl.freeTag t hy).1

theorem execMediaCompletion_good (h : Good s) (t : MediaTag) (res : MediaResult) : GoodNext (execMediaCompletion t res s) := by
  unfold execMediaCompletion
  split
  · exact .fault
  · exact .next (h.freeTag t rfl)
  · rename_i ht
    exact .next (actFor_good h ht (y := .free) rfl rfl _)

theorem execLateCompletion_good (h : Good s) (t : MediaTag) : GoodNext (execLateCompletion t s) := by
  unfold execLateCompletion
  split
  · exact .fault
  · exact .next (h.freeTag t rfl)
  · exact .next h

theorem execMediaTimeout_good (h : Good s) (t : MediaTag) : GoodNext (execMediaTimeout t s) := by
  unfold execMediaTimeout
  split
  · rename_i ht
    split
    · exact .next (actFor_good h ht (y := .quarantined) rfl (ledger_raise _ _) _)
    · exact .next h
  · exact .next h
  · exact .next h

theorem execMediaTagGrant_good (h : Good s) (t : MediaTag) : GoodNext (execMediaTagGrant t s) := by
  unfold execMediaTagGrant
  split
  · split
    · rename_i hy
      exact .next (h.map fun _ _ _ hl => hl.issueRequest hy)
    · exact .next h
  · exact .next h
  · exact .next h

/-! ## The lanes -/

theorem execLaneGrant_good (h : Good s) (l : LaneIx) : GoodNext (execLaneGrant l s) := by
  unfold execLaneGrant
  split
  · rename_i hl
    simp only [Bool.and_eq_true, decide_eq_true_eq] at hl
    exact .next (h.map fun _ _ _ k => k.laneClaim hl.1)
  · exact .next h

theorem execLanePassEnd_good (h : Good s) (l : LaneIx) (data : List Block) : GoodNext (execLanePassEnd l data s) :=
  h.goes fun _ _ _ hl ht => hl.execLanePassEnd ht

theorem execChunkPassEnd_good (h : Good s) : GoodNext (execChunkPassEnd s) :=
  h.goes fun _ _ _ hl ht => hl.execChunkPassEnd ht

theorem execFenceSet_good (h : Good s) : GoodNext (execFenceSet s) :=
  h.goes fun _ _ _ hl ht => hl.execFenceSet ht

theorem execDrainFinish_good (h : Good s) (r : RangeIx) : GoodNext (execDrainFinish r s) := by
  unfold execDrainFinish
  split
  · rename_i hr
    unfold drainDue at hr
    simp only [Bool.and_eq_true, decide_eq_true_eq] at hr
    exact .next (h.map fun _ _ _ hl => hl.startDrainFinish hr.1.1.1.1.2)
  · exact .next h

/-! ## The store -/

/-- The stored range records after a write. -/
theorem RecordOk.modRecord {st : Store} (h : ∀ r : RangeIx, RecordOk st.ranges[r]) (q : RangeIx)
    {f : RangeRecord → RangeRecord} (hf : ∀ y, RecordOk y → RecordOk (f y)) (r : RangeIx) :
    RecordOk (Machine.modRecord st q f).ranges[r] := by
  unfold Machine.modRecord
  dsimp only
  rw [Fin.getElem_fin, Vector.getElem_set]
  split
  · exact hf _ (h q)
  · exact h r

theorem RecordOk.modActive {st : Store} (h : ∀ r : RangeIx, RecordOk st.ranges[r]) (q : RangeIx)
    {f : RangeRecord → RangeRecord} (hf : ∀ y, RecordOk y → RecordOk (f y)) (r : RangeIx) :
    RecordOk (modActive st q f).ranges[r] := by
  refine RecordOk.modRecord h q (fun y hy => ?_) r
  split
  · exact hf y hy
  · exact hy

/-- A record whose condition stays, and whose migration record is changed in place. -/
theorem RecordOk.remig {y : RangeRecord} (h : RecordOk y) (f : StoredMig → StoredMig) : RecordOk { y with mig := y.mig.map f } :=
  ⟨h.1, fun k => by simpa using h.2 k⟩

theorem RecordOk.checkpoint {y : RangeRecord} (h : RecordOk y) (w : Nat) : RecordOk (checkpointRecord w y) := h.remig _

theorem RecordOk.completed {y : RangeRecord} (h : RecordOk y) : RecordOk (completedRecord y) := by
  unfold completedRecord
  split
  · exact ⟨nofun, nofun⟩
  · exact h

theorem recordOk_applyOp (h : ∀ r : RangeIx, RecordOk s.store.ranges[r]) (op : StoreOp) :
    ∀ r : RangeIx, RecordOk (applyOp s op).ranges[r] := by
  unfold applyOp
  dsimp only
  cases op with
  | rangeDefine q => exact RecordOk.modRecord h q fun y _ => ⟨nofun, nofun⟩
  | rangeFree q => exact RecordOk.modRecord h q fun y _ => ⟨nofun, nofun⟩
  | rangeFlags q => exact RecordOk.modActive h q fun y hy => ⟨hy.1, hy.2⟩
  | rangeMigrate q => exact RecordOk.modActive h q fun y _ => ⟨nofun, nofun⟩
  | rangeStaged q => exact RecordOk.modActive h q fun y hy => hy.remig _
  | rangeCheckpoint q => exact RecordOk.modActive h q fun y hy => hy.checkpoint _
  | rangeUnstage q => exact RecordOk.modActive h q fun y hy => hy.remig _
  | rangeComplete q =>
    refine RecordOk.modActive h q fun y hy => ?_
    split
    · exact hy.checkpoint _
    · exact hy.completed
  | rangeDrained q _ _ o =>
    refine RecordOk.modActive h q fun y _ => ?_
    cases o
    · exact ⟨nofun, nofun⟩
    · exact ⟨nofun, nofun⟩
  | rangePurge q => exact RecordOk.modActive h q fun y hy => ⟨hy.1, hy.2⟩
  | rangeSteady q => exact RecordOk.modActive h q fun y _ => ⟨nofun, nofun⟩
  | device => exact h
  | cred => exact h
  | intents => exact h
  | damaged => exact h
  | damagedRange => exact h

/-- A store write completes. -/
theorem Good.stored (h : Good s) (op : StoreOp) (rest : List Write) : Good { s with store := applyOp s op, writes := rest } :=
  h.map fun _ _ _ hl =>
    { hl with
      records := recordOk_applyOp hl.records op }

theorem afterTheft_good (h : Good s) : Good (afterTheft s) := by
  unfold afterTheft
  split
  · split
    · exact finishService_good h
    · exact h
  · exact h.map fun _ _ _ hl => hl.takeNext

theorem storeDone_good (h : Good s) (e : Done) : Good (storeDone s e) := by
  unfold storeDone
  split
  · exact h
  · exact finishService_good h
  · dsimp only
    split
    · exact finishService_good (h.of_ledger (ledger_modDev _ _))
    · exact h.of_ledger (ledger_modDev _ _)
  · exact afterTheft_good (h.of_ledger (ledger_theftStored _ _))
  · exact afterTheft_good (h.of_ledger (ledger_modDev _ _))
  · refine h.map fun m p hm hl => (hl.drained (fun k => ?_) _ _ _).engine
    rcases hm with rfl | rfl
    · exact hl.mode.2
    · exact absurd k not_dark_awake
  · exact h.map fun _ _ _ hl => hl.chunkStored
  · exact h.map fun _ _ _ hl => hl.completingStored _ _
  · exact h.map fun _ _ _ hl => hl.purgedStored _ _
  · exact h.of_ledger (ledger_raise _ _)

theorem execStoreWriteCompletion_good (h : Good s) : GoodNext (execStoreWriteCompletion s) := by
  unfold execStoreWriteCompletion
  split
  · exact .next h
  · rename_i w rest _
    have hs := h.stored w.op rest
    exact .next (storeDone_good (hs.of_ledger (ledger_issue _ _)) _).startUpGoesOn

/-! ## The power controller -/

theorem Good.enterPower (h : Good s) (p : PowerState) : Good (enterPower s p) := h.map fun _ _ _ hl => hl.enterPower p

theorem Good.lockAll (h : Good s) (set : List RangeIx) (cause : LockCause) : Good (lockProcedure s set cause) :=
  h.map fun _ _ _ hl => hl.lockProcedure set cause

theorem Good.engine (h : Good s) : Good (engine s) := h.map fun _ _ _ hl => hl.engine

theorem execIdleRelockExpiry_good (h : Good s) : GoodNext (execIdleRelockExpiry s) := by
  unfold execIdleRelockExpiry
  split
  · have ht : Good { s with theft := { s.theft with expired := true } } := h.of_ledger rfl
    exact .next (ht.lockAll _ _).engine
  · exact .next h

theorem execStepToIdle_good (h : Good s) : GoodNext (execStepToIdle s) := by
  unfold execStepToIdle
  split
  · exact .next (h.enterPower _)
  · exact .next h

theorem execDozeStepDue_good (h : Good s) : GoodNext (execDozeStepDue s) := by
  unfold execDozeStepDue
  split
  · exact .next (h.of_ledger rfl)
  · exact .next h

theorem execStepToDoze_good (h : Good s) : GoodNext (execStepToDoze s) := by
  unfold execStepToDoze
  split
  · exact .next ((h.of_ledger (ledger_foldl ledger_pauseForDoze _ _)).enterPower _)
  · exact .next h

/-- A wake that completes. -/
theorem Good.woken (h : Good s) (hop : s.power.op ≠ .noOp) : Good (admitWaiting (backToActive s)) :=
  h.map fun _ _ _ hl => hl.backToActive.admitWaiting (hl.not_dark_of_op hop)

theorem execWakeFromDozeComplete_good (h : Good s) : GoodNext (execWakeFromDozeComplete s) := by
  unfold execWakeFromDozeComplete
  split
  · rename_i hc
    simp only [Bool.and_eq_true, decide_eq_true_eq] at hc
    exact .next (h.woken (by rw [hc.1.2]; decide))
  · exact .next h

theorem execWakeFromSleepComplete_good (h : Good s) : GoodNext (execWakeFromSleepComplete s) := by
  unfold execWakeFromSleepComplete
  split
  · rename_i hc
    simp only [Bool.and_eq_true, decide_eq_true_eq] at hc
    exact .next (h.woken (by rw [hc.1.2]; decide))
  · exact .next h

theorem becomeReady_good (h : Good s) : Good (becomeReady s) := by
  have hr : Good (Machine.enterPower (lockProcedure s (allRanges.filter (fun r => s.ranges[r].flags.lockOnSleep)) .sleep)
      .sleep) := (h.lockAll _ _).enterPower _
  exact hr.of_ledger rfl

theorem execSleepReady_good (h : Good s) : GoodNext (execSleepReady s) := by
  unfold execSleepReady
  split
  · exact .next (becomeReady_good h)
  · exact .next h

theorem execSleepRequestRise_good (h : Good s) : GoodNext (execSleepRequestRise s) := by
  have ht : Good { s with sleepLine := true } := h.of_ledger rfl
  unfold execSleepRequestRise
  split
  · exact .next h
  · dsimp only
    split
    · exact .next ht
    · rename_i hs
      simp only [Bool.or_eq_true, not_or] at hs
      obtain ⟨p, hl⟩ := ht.started hs.2
      have hb : Good (beginSleepEntry (retryWaiting { s with sleepLine := true })) :=
        .awake p (Lawful.beginSleepEntry (by rw [ledger_retryWaiting]; exact hl) not_dark_awake)
      split
      · exact .next (becomeReady_good hb)
      · exact .next hb

theorem execSleepRequestFall_good (h : Good s) : GoodNext (execSleepRequestFall s) := by
  have ht : Good { s with sleepLine := false } := h.of_ledger rfl
  unfold execSleepRequestFall
  split
  · exact .next h
  · dsimp only
    split
    · exact .next ht
    · rename_i hs
      simp only [Bool.or_eq_true, not_or] at hs
      obtain ⟨p, hl⟩ := ht.started hs.2
      split
      · exact .next (.awake p hl.backToActive)
      · have hp := hl.repower (p := { s.power with op := .wakeSleep, opTimer := 0 }) fun k => absurd k not_dark_awake
        exact .next (.awake p hp)
      · exact .next ht

/-! ## The tamper lines -/

theorem takeAction_good (h : Good s) (line : TamperLine) (edge : Edge) (a : Action) : Good (takeAction s line edge a) := by
  have hr : Good (raise s { kind := .tamper, detail := .tamper line edge }) := h.of_ledger (ledger_raise s _)
  unfold takeAction
  dsimp only
  generalize raise s { kind := .tamper, detail := .tamper line edge } = u at hr
  split
  · exact hr
  · exact hr
  · exact (hr.lockAll _ _).engine
  · refine Good.engine (hr.map fun _ _ _ hl => ?_)
    unfold theftTamper
    dsimp only
    rw [ledger_issueTheft]
    exact hl.theftTrigger _

theorem judgeEdge_good (h : Good s) (line : TamperLine) (edge : Edge) : Good (judgeEdge s line edge) := by
  unfold judgeEdge
  dsimp only
  split
  · exact h
  · split
    · split
      · exact h.of_ledger (ledger_raise _ _)
      · exact takeAction_good h _ _ _
    · exact takeAction_good h _ _ _

theorem acceptEdge_good (h : Good s) (line : TamperLine) (l : Level) : Good (acceptEdge s line l) :=
  judgeEdge_good (s := { s with theft := setFilter s.theft line ⟨l, 0, 0, samplePeriod s⟩ }) (h.of_ledger rfl) _ _

theorem execAcceptedEdge_good (h : Good s) (line : TamperLine) : GoodNext (execAcceptedEdge line s) := by
  unfold execAcceptedEdge
  dsimp only
  split
  · exact .next (acceptEdge_good h _ _)
  · exact .next h

theorem execTamperSample_good (h : Good s) (line : TamperLine) (l : Level) : GoodNext (execTamperSample line l s) := by
  unfold execTamperSample
  dsimp only
  split
  · split
    · exact .next (h.of_ledger rfl)
    · split
      · exact .next (h.of_ledger rfl)
      · exact .next (acceptEdge_good h _ _)
  · exact .next h

/-! ## The passing of a microsecond -/

theorem tagSeg_tickTag (y : TagState) : tagSeg (tickTag y) = tagSeg y := by
  cases y <;> rfl

theorem tickPower_op (s : State) : (tickPower s).op = s.power.op := by
  unfold tickPower
  dsimp only
  split
  · rfl
  · split
    · rfl
    · split <;> rfl

theorem ledger_tick (s : State) : ledger (tick s) = ledger s := by
  unfold tick
  split
  · have ht : (fun t : MediaTag => tagSeg (vmap tickTag s.media.tags)[t]) = (ledger s).tags := by
      funext t
      rw [vmap_getElem, tagSeg_tickTag]
      rfl
    have hs : stillIn s.control (tickPower s) = stillIn s.control s.power := by
      unfold stillIn
      rw [tickPower_op]
    change ({ ledger s with
      still := stillIn s.control (tickPower s), tags := fun t => tagSeg (vmap tickTag s.media.tags)[t] } : Ledger) = _
    rw [hs]
    exact congrArg (fun e => { ledger s with tags := e }) ht
  · rfl

end

end Sys2Proof.Machine
end

section
/-! Every step keeps the law of the ledger, and with it the reference counts (O7). -/

namespace Sys2Proof.Machine

section
variable {s : State}

/-! ## Power off -/

/-- The state with the power off: nothing is in service, no tag is busy, no lane is granted, no write is in flight and no drain is
due. -/
structure Off (s : State) : Prop where
  law    : Lawful .off ⟨.nothing, .nothing⟩ noRefs (ledger s)
  tags   : ∀ t : MediaTag, s.media.tags[t] = .free
  asked  : s.media.waiting = []
  arb    : s.arb = emptyArbiter
  sweep  : s.sweep = emptySweep
  writes : s.writes = []
  steady : ∀ r : RangeIx, s.ranges[r].cond ≠ .draining

/-- A state between two events: power is off, or the law of a powered part holds. -/
inductive Sound (s : State) : Prop
  | off (h : Off s)
  | on (h : Good s)

theorem Sound.referencesCounted (h : Sound s) : ReferencesCounted s := by
  cases h with
  | off h => exact h.law.referencesCounted
  | on h => exact h.referencesCounted

/-- The state as power-good leaves it when it falls. -/
theorem Off.of_cleared {t : State} (hrec : ∀ r : RangeIx, RecordOk t.store.ranges[r]) (hp : t.powered = false)
    (hu : t.startUp = none) (hf : t.front.segs = []) (ha : t.arb = emptyArbiter) (hmed : t.media = emptyMediaPort)
    (hr : t.ranges = vmap loadedEntry t.store.ranges) (hs : t.slots = Vector.replicate 24 emptySlot)
    (hw : t.sweep = emptySweep) (hop : t.power.op = .noOp) (hserv : t.control.service = none) (hq : t.control.queue = [])
    (hwr : t.writes = []) : Off t where
  law := Lawful.cleared hrec trivial ⟨hp, by rw [hu]; rfl⟩ hf ha hmed hr hs hw hop hserv hq
  tags k := by
    rw [hmed]
    simp [emptyMediaPort]
  asked := by rw [hmed]; rfl
  arb := ha
  sweep := hw
  writes := hwr
  steady r := by
    rw [hr, vmap_getElem]
    exact (hrec r).1

theorem factoryStore_recordOk (r : RangeIx) : RecordOk State.reset.store.ranges[r] := by
  have h : ∀ r : RangeIx, factoryStore.ranges[r].cond = .steady := by decide
  exact ⟨by rw [show State.reset.store.ranges[r].cond = .steady from h r]; decide,
    fun k => by rw [show State.reset.store.ranges[r].cond = .steady from h r] at k; cases k⟩

theorem reset_off : Off State.reset :=
  Off.of_cleared factoryStore_recordOk rfl rfl rfl rfl rfl rfl rfl rfl rfl rfl rfl rfl

theorem execPowerGoodFall_sound (h : Good s) {t : State} (ht : execPowerGoodFall s = .next t) : Sound t := by
  unfold execPowerGoodFall at ht
  split at ht
  · cases ht
    have hrec : ∀ r : RangeIx, RecordOk s.store.ranges[r] := by
      cases h with
      | asleep h => exact h.records
      | awake p h => exact h.records
    refine .off (Off.of_cleared ?_ rfl rfl rfl rfl rfl rfl rfl rfl rfl rfl rfl rfl)
    exact hrec
  · cases ht
    exact .on h

theorem Good.powered (h : Good s) : s.powered = true := by
  cases h with
  | asleep h => exact h.mode.1
  | awake p h => exact h.mode.1

theorem Off.powered (h : Off s) : s.powered = false := h.law.mode.1

theorem Off.service (h : Off s) : s.control.service = none := h.law.no_service trivial

theorem Off.atStart (h : Off s) : atStart s = none := by
  unfold Machine.atStart
  rw [h.service]

theorem Off.starting (h : Off s) : starting s = none := by
  unfold Machine.starting
  rw [h.atStart]

theorem execPowerGoodRise_sound (h : Off s) (p : StartInputs) {t : State} (ht : execPowerGoodRise p s = .next t) : Sound t := by
  unfold execPowerGoodRise at ht
  rw [h.powered] at ht
  cases ht
  refine .on (Good.startUpGoesOn (.asleep ?_))
  have hl := h.law
  exact { hl with mode := ⟨rfl, rfl⟩ }

/-- A command that does nothing. -/
def Rests (s : State) (o : Host.Outcome State Fault Refusal) : Prop := ∀ t, o = .next t → t = s

theorem Rests.same : Rests s (.next s) := by
  rintro _ ⟨⟩
  rfl

theorem Rests.fault {f : Fault} : Rests s (.fault f) := by
  rintro _ ⟨⟩

/-- No lane is granted for any claim. -/
theorem Off.laneClaim (h : Off s) (l : LaneIx) : laneClaim s l = s := by
  have hj : runningJob s = none := by
    have : ∀ j, jobAt s j = none := fun j => by
      unfold jobAt
      rw [h.sweep]
      simp [emptySweep]
    simp [runningJob, this]
  have hp : passLanes s = 0 := by
    unfold passLanes
    rw [h.arb]
    decide
  have hw : s.arb.wait = [] := by rw [h.arb]; rfl
  have hpass : s.arb.waitingPass = false := by rw [h.arb]; rfl
  simp [Machine.laneClaim, holdRunning, hj, hp, hw, hpass]

theorem Off.drainDue (h : Off s) (r : RangeIx) : drainDue s r = false := by
  simp [Machine.drainDue, h.steady r, -Fin.getElem_fin]

theorem Off.sampleDue (h : Off s) (line : TamperLine) : sampleDue s line = false := by
  simp [Machine.sampleDue, h.powered]

theorem Off.readyFence (h : Off s) : readyFence s = none := by
  simp [Machine.readyFence, freeToRun, h.powered]

theorem Off.relockRuns (h : Off s) : relockRuns s = false := by
  simp [Machine.relockRuns, h.powered]

theorem Rests.of_eq {o : Host.Outcome State Fault Refusal} (h : o = .next s) : Rests s o := h ▸ .same

theorem Rests.of_fault {o : Host.Outcome State Fault Refusal} {f : Fault} (h : o = .fault f) : Rests s o := h ▸ .fault

/-- With the power off no command does anything but the rise of power-good and the changes of the sleep request line. -/
theorem Off.rests (h : Off s) (i : Instr) (hi : ∀ p, i ≠ .powerGoodRise p) (hr : i ≠ .sleepRequestRise)
    (hf : i ≠ .sleepRequestFall) : Rests s (exec i s) := by
  have hp := h.powered
  have hs := h.starting
  cases i with
  | powerGoodRise p => exact absurd rfl (hi p)
  | sleepRequestRise => exact absurd rfl hr
  | sleepRequestFall => exact absurd rfl hf
  | frontTransaction d => exact .of_eq (by simp [exec, execFrontTransaction, hp])
  | linkReset => exact .of_eq (by simp [exec, execLinkReset, hp])
  | mediaCompletion t res => exact .of_fault (f := .completionWithoutRequest) (by simp only [exec, execMediaCompletion, h.tags])
  | lateCompletion t => exact .of_fault (f := .completionWithoutRequest) (by simp only [exec, execLateCompletion, h.tags])
  | mediaTimeout t => exact .of_eq (by simp only [exec, execMediaTimeout, h.tags])
  | mediaTagGrant t => exact .of_eq (by simp [exec, execMediaTagGrant, h.tags, h.asked, takeRequest])
  | laneGrant l => exact .of_eq (by simp [exec, execLaneGrant, h.laneClaim])
  | lanePassEnd l data => exact .of_eq (by simp [exec, execLanePassEnd, h.arb, emptyArbiter])
  | chunkPassEnd => exact .of_eq (by simp [exec, execChunkPassEnd, h.sweep, emptySweep])
  | storeWriteCompletion => exact .of_eq (by simp only [exec, execStoreWriteCompletion, h.writes])
  | fenceSet => exact .of_eq (by simp only [exec, execFenceSet, h.readyFence])
  | drainFinish r => exact .of_eq (by simp [exec, execDrainFinish, h.drainDue])
  | idleRelockExpiry => exact .of_eq (by simp [exec, execIdleRelockExpiry, h.relockRuns])
  | stepToIdle => exact .of_eq (by simp [exec, execStepToIdle, hp])
  | dozeStepDue => exact .of_eq (by simp [exec, execDozeStepDue, hp])
  | stepToDoze => exact .of_eq (by simp [exec, execStepToDoze, hp])
  | wakeFromDozeComplete => exact .of_eq (by simp [exec, execWakeFromDozeComplete, hp])
  | sleepReady => exact .of_eq (by simp [exec, execSleepReady, hp])
  | wakeFromSleepComplete => exact .of_eq (by simp [exec, execWakeFromSleepComplete, hp])
  | powerGoodFall => exact .of_eq (by simp [exec, execPowerGoodFall, hp])
  | acceptedEdge line => exact .of_eq (by simp [exec, execAcceptedEdge, h.sampleDue])
  | query => exact .of_eq (by simp only [exec, execQuery, hs])
  | restart p => exact .of_eq (by simp only [exec, execRestart, hs])
  | freeze => exact .of_eq (by simp only [exec, execFreeze, hs])
  | journalRead => exact .of_eq (by simp only [exec, execJournalRead, hs])
  | journalMask => exact .of_eq (by simp only [exec, execJournalMask, hs])
  | unlock => exact .of_eq (by simp only [exec, execUnlock, hs])
  | unlockAbsent => exact .of_eq (by simp only [exec, execUnlockAbsent, hs])
  | lock => exact .of_eq (by simp only [exec, execLock, hs])
  | credSet => exact .of_eq (by simp only [exec, execCredSet, hs])
  | credClear => exact .of_eq (by simp only [exec, execCredClear, hs])
  | credDisable => exact .of_eq (by simp only [exec, execCredDisable, hs])
  | credEnable => exact .of_eq (by simp only [exec, execCredEnable, hs])
  | credGrant => exact .of_eq (by simp only [exec, execCredGrant, hs])
  | credRevoke => exact .of_eq (by simp only [exec, execCredRevoke, hs])
  | credBudget => exact .of_eq (by simp only [exec, execCredBudget, hs])
  | rangeDefine => exact .of_eq (by simp only [exec, execRangeDefine, hs])
  | rangeDelete => exact .of_eq (by simp only [exec, execRangeDelete, hs])
  | rangeFlags => exact .of_eq (by simp only [exec, execRangeFlags, hs])
  | rangeRekey => exact .of_eq (by simp only [exec, execRangeRekey, hs])
  | ceilingSet => exact .of_eq (by simp only [exec, execCeilingSet, hs])
  | reserveOpen => exact .of_eq (by simp only [exec, execReserveOpen, hs])
  | reserveClose => exact .of_eq (by simp only [exec, execReserveClose, hs])
  | pbwSet => exact .of_eq (by simp only [exec, execPbwSet, hs])
  | wipePrepare => exact .of_eq (by simp only [exec, execWipePrepare, hs])
  | wipeCommit => exact .of_eq (by simp only [exec, execWipeCommit, hs])
  | sweepStatus => exact .of_eq (by simp only [exec, execSweepStatus, hs])
  | sweepPause => exact .of_eq (by simp only [exec, execSweepPause, hs])
  | sweepResume => exact .of_eq (by simp only [exec, execSweepResume, hs])
  | sweepCancel => exact .of_eq (by simp only [exec, execSweepCancel, hs])
  | theftSet => exact .of_eq (by simp only [exec, execTheftSet, hs])
  | powerSet => exact .of_eq (by simp only [exec, execPowerSet, hs])
  | unknownRequest => exact .of_eq (by simp only [exec, execUnknownRequest, h.atStart])
  | tamperSample line l => exact .of_eq (by simp [exec, execTamperSample, h.sampleDue])

/-- The law of the power off does not depend on the sleep request line. -/
theorem Off.setSleepLine (h : Off s) (b : Bool) : Off { s with sleepLine := b } :=
  ⟨h.law, h.tags, h.asked, h.arb, h.sweep, h.writes, h.steady⟩

theorem Off.setPending (h : Off s) (q : List Instr) : Off { s with pending := q } :=
  ⟨h.law, h.tags, h.asked, h.arb, h.sweep, h.writes, h.steady⟩

theorem Sound.setPending (h : Sound s) (q : List Instr) : Sound { s with pending := q } := by
  cases h with
  | off h => exact .off (h.setPending q)
  | on h => exact .on (h.of_ledger rfl)

theorem execSleepRequestRise_off (h : Off s) {t : State} (ht : execSleepRequestRise s = .next t) : Sound t := by
  have hn : (!s.powered || s.startUp.isSome) = true := by rw [h.powered]; rfl
  unfold execSleepRequestRise at ht
  split at ht
  · cases ht
    exact .off h
  · cases ht
    exact .off (h.setSleepLine true)

theorem execSleepRequestFall_off (h : Off s) {t : State} (ht : execSleepRequestFall s = .next t) : Sound t := by
  have hn : (!s.powered || s.startUp.isSome) = true := by rw [h.powered]; rfl
  unfold execSleepRequestFall at ht
  split at ht
  · cases ht
    exact .off h
  · rw [if_pos hn] at ht
    cases ht
    exact .off (h.setSleepLine false)

theorem Off.exec_sound (h : Off s) (i : Instr) {t : State} (ht : exec i s = .next t) : Sound t := by
  by_cases hi : ∃ p, i = .powerGoodRise p
  · obtain ⟨p, rfl⟩ := hi
    exact execPowerGoodRise_sound h p ht
  by_cases hr : i = .sleepRequestRise
  · subst hr
    exact execSleepRequestRise_off h ht
  by_cases hf : i = .sleepRequestFall
  · subst hf
    exact execSleepRequestFall_off h ht
  rw [h.rests i (fun p e => hi ⟨p, e⟩) hr hf t ht]
  exact .off h

/-! ## Every command -/

theorem execPowerGoodRise_good (h : Good s) (p : StartInputs) : GoodNext (execPowerGoodRise p s) := by
  unfold execPowerGoodRise
  rw [if_pos h.powered]
  exact .next h

/-- Every command but the fall of power-good keeps the law of a powered part. -/
theorem exec_good (h : Good s) (i : Instr) (hi : i ≠ .powerGoodFall) : GoodNext (exec i s) := by
  cases i with
  | powerGoodFall => exact absurd rfl hi
  | frontTransaction d => exact execFrontTransaction_good h d
  | linkReset => exact execLinkReset_good h
  | mediaCompletion t res => exact execMediaCompletion_good h t res
  | lateCompletion t => exact execLateCompletion_good h t
  | mediaTimeout t => exact execMediaTimeout_good h t
  | mediaTagGrant t => exact execMediaTagGrant_good h t
  | laneGrant l => exact execLaneGrant_good h l
  | lanePassEnd l data => exact execLanePassEnd_good h l data
  | chunkPassEnd => exact execChunkPassEnd_good h
  | storeWriteCompletion => exact execStoreWriteCompletion_good h
  | fenceSet => exact execFenceSet_good h
  | drainFinish r => exact execDrainFinish_good h r
  | idleRelockExpiry => exact execIdleRelockExpiry_good h
  | stepToIdle => exact execStepToIdle_good h
  | dozeStepDue => exact execDozeStepDue_good h
  | stepToDoze => exact execStepToDoze_good h
  | wakeFromDozeComplete => exact execWakeFromDozeComplete_good h
  | sleepRequestRise => exact execSleepRequestRise_good h
  | sleepReady => exact execSleepReady_good h
  | sleepRequestFall => exact execSleepRequestFall_good h
  | wakeFromSleepComplete => exact execWakeFromSleepComplete_good h
  | powerGoodRise p => exact execPowerGoodRise_good h p
  | acceptedEdge line => exact execAcceptedEdge_good h line
  | query => exact execQuery_good h
  | restart p => exact execRestart_good h p
  | freeze => exact execFreeze_good h
  | journalRead => exact execJournalRead_good h
  | journalMask => exact execJournalMask_good h
  | unlock => exact execUnlock_good h
  | unlockAbsent => exact execUnlockAbsent_good h
  | lock => exact execLock_good h
  | credSet => exact execCredSet_good h
  | credClear => exact execCredClear_good h
  | credDisable => exact execCredDisable_good h
  | credEnable => exact execCredEnable_good h
  | credGrant => exact execCredGrant_good h
  | credRevoke => exact execCredRevoke_good h
  | credBudget => exact execCredBudget_good h
  | rangeDefine => exact execRangeDefine_good h
  | rangeDelete => exact execRangeDelete_good h
  | rangeFlags => exact execRangeFlags_good h
  | rangeRekey => exact execRangeRekey_good h
  | ceilingSet => exact execCeilingSet_good h
  | reserveOpen => exact execReserveOpen_good h
  | reserveClose => exact execReserveClose_good h
  | pbwSet => exact execPbwSet_good h
  | wipePrepare => exact execWipePrepare_good h
  | wipeCommit => exact execWipeCommit_good h
  | sweepStatus => exact execSweepStatus_good h
  | sweepPause => exact execSweepPause_good h
  | sweepResume => exact execSweepResume_good h
  | sweepCancel => exact execSweepCancel_good h
  | theftSet => exact execTheftSet_good h
  | powerSet => exact execPowerSet_good h
  | unknownRequest => exact execUnknownRequest_good h
  | tamperSample line l => exact execTamperSample_good h line l

theorem Sound.exec (h : Sound s) (i : Instr) {t : State} (ht : exec i s = .next t) : Sound t := by
  cases h with
  | off h => exact h.exec_sound i ht
  | on h =>
    by_cases hi : i = .powerGoodFall
    · subst hi
      exact execPowerGoodFall_sound h ht
    · exact .on (exec_good h i hi t ht)

theorem Sound.tick (h : Sound s) : Sound (tick s) := by
  cases h with
  | off h =>
    unfold Machine.tick
    rw [h.powered]
    exact .off h
  | on h => exact .on (h.of_ledger (ledger_tick s))

theorem Sound.step (h : Sound s) {t : State} (ht : step s = .next t) : Sound t := by
  unfold Machine.step at ht
  split at ht
  · cases ht
    exact h.tick
  · exact (h.setPending _).exec _ ht

/-- Every state that commands bring about from reset meets the law. -/
theorem Reached.sound (h : Reached s) : Sound s := by
  induction h with
  | reset => exact .off reset_off
  | step q _ ht ih => exact (ih.setPending q).step ht

end

/-- Settles O7, by the law of the ledger: an invariant that says where each segment stands, what each slot's count is made of,
what each entry may name and what is held for the request in service. -/
theorem everyStepKeepsTheReferenceCounts : Obligations.EveryStepKeepsTheReferenceCounts := by
  unfold Obligations.EveryStepKeepsTheReferenceCounts
  exact ⟨fun s h => h.sound.referencesCounted, fun s t q h ht => (Reached.step q h ht).sound.referencesCounted⟩

end Sys2Proof.Machine
end

section
/-! The event of a theft wipe: its ranges drain, and the jobs that name them are dealt with (R108, R113). -/

namespace Sys2Proof.Machine

/-! ## The ranges that drain -/

/-- Some ranges of a wipe's set have been made DRAINING, `x` before and `y` after. -/
structure Drained (set l : List RangeIx) (x y : State × Release) : Prop where
  frame    : y.1 = { x.1 with ranges := y.1.ranges, slots := y.1.slots, arb := y.1.arb, sweep := y.1.sweep
                              intents := y.1.intents, journal := y.1.journal }
  inside   : ∀ r ∈ set, y.1.ranges[r] = if r ∈ l then drainingEntry x.1.ranges[r] else x.1.ranges[r]
  released : ∃ n, y.2 = x.2.join n ∧ Released set n x.1 y.1
  slots    : ∀ i : SlotIx, y.1.slots[i] = Machine.released^[timesNamed x.1 l i] x.1.slots[i]
  jobs     : JobsWiped set (fun _ b => reaches l b) x.1 y.1
  journal  : ∃ es : List Event, y.1.journal = es.foldl journalRecord x.1.journal ∧ ∀ e ∈ es, CancelledByWipe e

theorem Drained.nil (set : List RangeIx) (x : State × Release) : Drained set [] x x where
  frame := rfl
  inside r _ := by simp
  released := Released.exists_none _ (fun _ _ => rfl) rfl
  slots i := rfl
  jobs := .none (fun _ _ h => reaches_live h) (fun _ _ => rfl) (fun _ b _ => reaches_nil b) rfl rfl
  journal := ⟨[], rfl, fun _ h => absurd h List.not_mem_nil⟩

theorem makeDraining_drained {set : List RangeIx} {x : State × Release} {r : RangeIx} (hr : r ∈ set)
    (hs : x.1.startUp = none) : Drained set [r] x (makeDraining set x r) := by
  obtain ⟨hnames, hslots⟩ := namesDrained_spec x.1 r
  have hdealt := wipeJobs_dealt set r (namesDrained x.1 r, x.2) (by rw [hnames]; exact hs)
  rw [← makeDraining_eq] at hdealt
  obtain ⟨hframe, hinside, ⟨n, hn, hrel⟩, hjobs, es, hes, hall⟩ := hdealt
  have hentry : ∀ q : RangeIx, (namesDrained x.1 r).ranges[q] =
      if q = r then drainingEntry x.1.ranges[q] else x.1.ranges[q] := fun q => by
    rw [hnames]
    by_cases hq : q = r
    · subst hq
      simp
    · have hq' : ¬ r.val = q.val := fun e => hq (Fin.ext e).symm
      simp [hq, hq']
  refine ⟨by rw [hframe, hnames], fun q hq => ?_, ⟨n, hn, fun q hq => ?_, ?_⟩, fun i => ?_, ?_, es, ?_, hall⟩
  · rw [hinside q hq, hentry q]
    simp
  · have hne : q ≠ r := fun e => hq (e ▸ hr)
    rw [hrel.outside q hq, hentry q, if_neg hne]
  · rw [hrel.intents, hnames]
  · rw [← hslots i, hframe]
  · exact hjobs.congr ⟨by rw [hnames], by rw [hnames]⟩ ⟨rfl, rfl⟩
  · rw [hes, hnames]

/-- One range that drains, and then others. -/
theorem Drained.cons {set l : List RangeIx} {r : RangeIx} {x y z : State × Release} (hr : r ∉ l) (hl : ∀ q ∈ l, q ∈ set)
    (h : Drained set [r] x y) (k : Drained set l y z) : Drained set (r :: l) x z := by
  obtain ⟨m, hm, hrel⟩ := h.released
  obtain ⟨n, hn, krel⟩ := k.released
  obtain ⟨es, hes, hall⟩ := h.journal
  obtain ⟨fs, hfs, kall⟩ := k.journal
  have hkept : ∀ q ∈ l, y.1.ranges[q] = x.1.ranges[q] := fun q hq => by
    have hne : q ≠ r := by
      rintro rfl
      exact hr hq
    rw [h.inside q (hl q hq), if_neg (by simpa using hne)]
  refine ⟨by rw [k.frame, h.frame], fun q hq => ?_, ⟨m.join n, by rw [hn, hm, Release.join_assoc], hrel.trans krel⟩,
    fun i => ?_, ?_, es ++ fs, ?_, fun e he => ?_⟩
  · rw [k.inside q hq]
    by_cases hql : q ∈ l
    · rw [if_pos hql, if_pos (List.mem_cons_of_mem _ hql), hkept q hql]
    · rw [if_neg hql, h.inside q hq]
      simp [hql]
  · have hone : timesNamed x.1 (r :: l) i = timesNamed x.1 l i + timesNamed x.1 [r] i := timesNamed_append x.1 [r] l i
    rw [k.slots i, h.slots i, hone, Function.iterate_add_apply, timesNamed_congr hkept]
  · have hp : (fun (_ : JobNo) b => reaches (r :: l) b) = fun _ b => reaches [r] b || reaches l b :=
      funext fun _ => funext fun b => reaches_append [r] l b
    rw [hp]
    exact h.jobs.trans k.jobs
  · rw [hfs, hes, List.foldl_append]
  · rcases List.mem_append.1 he with he | he
    · exact hall e he
    · exact kall e he

theorem foldl_makeDraining {set l : List RangeIx} (hl : ∀ r ∈ l, r ∈ set) (hn : l.Nodup) (x : State × Release)
    (hs : x.1.startUp = none) : Drained set l x (l.foldl (makeDraining set) x) := by
  induction l generalizing x with
  | nil => exact .nil set x
  | cons r l ih =>
    obtain ⟨hr, hn⟩ := List.nodup_cons.1 hn
    have hl' : ∀ q ∈ l, q ∈ set := fun q hq => hl q (List.mem_cons_of_mem _ hq)
    have h := makeDraining_drained (hl r (List.mem_cons_self ..)) hs
    have k := ih hl' hn (makeDraining set x r) (by rw [h.frame]; exact hs)
    rw [List.foldl_cons]
    exact h.cons hr hl' k

end Sys2Proof.Machine
end

section
/-! The PURGE jobs of a theft wipe, and the queued jobs that they displace (R112, R114). -/

namespace Sys2Proof.Machine

/-! ## Room in the job table -/

/-- One entry of the job table more. -/
theorem countP_allJobs_one_more {f g : JobNo → Bool} {j : JobNo} (hf : f j = false) (hg : g j = true)
    (h : ∀ i, i ≠ j → g i = f i) : allJobs.countP g = allJobs.countP f + 1 := by
  have hperm := List.perm_cons_erase (mem_allJobs j)
  have hn : allJobs.Nodup := by decide
  have hrest : (allJobs.erase j).countP g = (allJobs.erase j).countP f :=
    List.countP_congr fun i hi => by rw [h i fun e => hn.not_mem_erase (e ▸ hi)]
  rw [hperm.countP_eq, hperm.countP_eq, List.countP_cons, List.countP_cons, hrest, hf, hg]
  simp

/-- The entries that can take a new job, counted. -/
theorem jobRoom_eq (s : State) : jobRoom s = allJobs.countP (fun j => takesNew s.sweep.jobs[j]) :=
  List.countP_eq_length_filter.symm

theorem takesNew_eq (s : State) (j : JobNo) :
    takesNew s.sweep.jobs[j] = (s.sweep.jobs[j] = .free || (jobAt s j).any finished) := by
  unfold takesNew jobAt
  cases s.sweep.jobs[j] <;> simp

theorem takesNew_of_jobAt {s : State} {j : JobNo} {b : Job} (hb : jobAt s j = some b) :
    takesNew s.sweep.jobs[j] = finished b := by
  unfold jobAt at hb
  unfold takesNew
  split at hb <;> simp_all

/-- The room after one entry of the table has changed. -/
theorem jobRoom_set {s t : State} {j : JobNo} {b : Job} (h : t.sweep.jobs = s.sweep.jobs.set j (.job b))
    (hne : takesNew s.sweep.jobs[j] ≠ finished b) :
    if finished b then jobRoom t = jobRoom s + 1 else jobRoom s = jobRoom t + 1 := by
  have hj : takesNew t.sweep.jobs[j] = finished b := by
    rw [h]
    simp [takesNew]
  have hother : ∀ i : JobNo, i ≠ j → takesNew t.sweep.jobs[i] = takesNew s.sweep.jobs[i] := fun i hi => by
    have hi' : ¬ j.val = i.val := fun e => hi (Fin.ext e).symm
    rw [h]
    simp [hi']
  rw [jobRoom_eq, jobRoom_eq]
  cases hb : finished b with
  | true =>
    rw [hb] at hne hj
    exact countP_allJobs_one_more (f := fun j => takesNew s.sweep.jobs[j]) (g := fun j => takesNew t.sweep.jobs[j])
      (by simpa using hne) hj hother
  | false =>
    rw [hb] at hne hj
    exact countP_allJobs_one_more (f := fun j => takesNew t.sweep.jobs[j]) (g := fun j => takesNew s.sweep.jobs[j])
      hj (by simpa using hne) fun i hi => (hother i hi).symm

/-! ## The oldest job that may be displaced (R114) -/

/-- A queued PURGE job of level 2 or 3. -/
def Displaceable (s : State) (j : JobNo) (b : Job) : Prop :=
  jobAt s j = some b ∧ b.kind = .purge ∧ b.state = .queued ∧ (b.level = 2 ∨ b.level = 3)

/-- The older of the oldest so far and one job more. -/
def olderOf (s : State) (best : Option (JobNo × Job)) (j : JobNo) : Option (JobNo × Job) :=
  match jobAt s j with
  | some b =>
    if b.kind = .purge && b.state = .queued && (b.level = 2 || b.level = 3) then
      match best with
      | some x => if b.stamp < x.2.stamp then some (j, b) else best
      | none => some (j, b)
    else best
  | none => best

theorem oldestDisplaceable_eq (s : State) : oldestDisplaceable s = (allJobs.foldl (olderOf s) none).map (·.1) := rfl

/-- The oldest of some jobs that may be displaced. -/
structure IsOldest (s : State) (l : List JobNo) (best : Option (JobNo × Job)) : Prop where
  none : best = none → ∀ j ∈ l, ∀ b, ¬ Displaceable s j b
  some : ∀ x, best = some x → Displaceable s x.1 x.2 ∧ ∀ j ∈ l, ∀ b, Displaceable s j b → x.2.stamp ≤ b.stamp

/-- A job that may not be displaced changes nothing. -/
theorem IsOldest.skip {s : State} {l : List JobNo} {best : Option (JobNo × Job)} (h : IsOldest s l best) {j : JobNo}
    (hj : ∀ b, ¬ Displaceable s j b) : IsOldest s (l ++ [j]) best where
  none e i hi b := by
    rcases List.mem_append.1 hi with hi | hi
    · exact h.none e i hi b
    · rw [List.mem_singleton.1 hi]
      exact hj b
  some x e := ⟨(h.some x e).1, fun i hi b hb => by
    rcases List.mem_append.1 hi with hi | hi
    · exact (h.some x e).2 i hi b hb
    · rw [List.mem_singleton.1 hi] at hb
      exact absurd hb (hj b)⟩

/-- The oldest so far, where it is as old as one job more. -/
theorem IsOldest.keep {s : State} {l : List JobNo} {x : JobNo × Job} (h : IsOldest s l (.some x)) {j : JobNo} {b : Job}
    (hb : jobAt s j = .some b) (hx : x.2.stamp ≤ b.stamp) : IsOldest s (l ++ [j]) (.some x) where
  none e := nomatch e
  some y e := by
    cases e
    refine ⟨(h.some x rfl).1, fun i hi c hc => ?_⟩
    rcases List.mem_append.1 hi with hi | hi
    · exact (h.some x rfl).2 i hi c hc
    · rw [List.mem_singleton.1 hi] at hc
      rw [Option.some.inj (hc.1.symm.trans hb)]
      exact hx

/-- One job more is the oldest, where it is older than the oldest so far. -/
theorem IsOldest.take {s : State} {l : List JobNo} {best : Option (JobNo × Job)} (h : IsOldest s l best) {j : JobNo}
    {b : Job} (hb : Displaceable s j b) (hx : ∀ x, best = .some x → b.stamp ≤ x.2.stamp) :
    IsOldest s (l ++ [j]) (.some (j, b)) where
  none e := nomatch e
  some y e := by
    cases e
    refine ⟨hb, fun i hi c hc => ?_⟩
    rcases List.mem_append.1 hi with hi | hi
    · cases hbest : best with
      | none => exact absurd hc (h.none hbest i hi c)
      | some x => exact (hx x hbest).trans ((h.some x hbest).2 i hi c hc)
    · rw [List.mem_singleton.1 hi] at hc
      rw [Option.some.inj (hc.1.symm.trans hb.1)]

theorem IsOldest.olderOf {s : State} {l : List JobNo} {best : Option (JobNo × Job)} (h : IsOldest s l best) (j : JobNo) :
    IsOldest s (l ++ [j]) (olderOf s best j) := by
  unfold Machine.olderOf
  split
  · next b hb =>
    split
    · next hok =>
      have hd : Displaceable s j b := by
        simp only [Bool.and_eq_true, Bool.or_eq_true, decide_eq_true_eq, and_assoc] at hok
        exact ⟨hb, hok⟩
      split
      · next x =>
        split
        · next hlt =>
          exact h.take hd fun y e => by
            cases e
            exact Nat.le_of_lt hlt
        · next hle => exact h.keep hb (Nat.not_lt.1 hle)
      · exact h.take hd fun x e => by cases e
    · next hno =>
      refine h.skip fun c hc => hno ?_
      rw [← Option.some.inj (hc.1.symm.trans hb)]
      simpa [and_assoc] using hc.2
  · next hb => exact h.skip fun c hc => nomatch hb.symm.trans hc.1

theorem isOldest_foldl (s : State) (m l : List JobNo) {best : Option (JobNo × Job)} (h : IsOldest s m best) :
    IsOldest s (m ++ l) (l.foldl (olderOf s) best) := by
  induction l generalizing m best with
  | nil => rwa [List.append_nil]
  | cons j l ih =>
    rw [List.foldl_cons, List.append_cons]
    exact ih (m ++ [j]) (h.olderOf j)

theorem isOldest_all (s : State) : IsOldest s allJobs (allJobs.foldl (olderOf s) none) :=
  isOldest_foldl s [] allJobs ⟨fun _ _ h => absurd h List.not_mem_nil, fun x e => by cases e⟩

theorem oldestDisplaceable_none (s : State) : oldestDisplaceable s = none ↔ ∀ j b, ¬ Displaceable s j b := by
  rw [oldestDisplaceable_eq, Option.map_eq_none_iff]
  refine ⟨fun h j b => (isOldest_all s).none h j (mem_allJobs j) b, fun h => ?_⟩
  cases hx : allJobs.foldl (olderOf s) none with
  | none => rfl
  | some x => exact absurd ((isOldest_all s).some x hx).1 (h _ _)

theorem oldestDisplaceable_some {s : State} {j : JobNo} (h : oldestDisplaceable s = some j) :
    ∃ b, Displaceable s j b ∧ ∀ i y, Displaceable s i y → b.stamp ≤ y.stamp := by
  rw [oldestDisplaceable_eq] at h
  obtain ⟨x, hx, rfl⟩ := Option.map_eq_some_iff.1 h
  obtain ⟨hd, hmin⟩ := (isOldest_all s).some x hx
  exact ⟨x.2, hd, fun i y => hmin i (mem_allJobs i) y⟩

end Sys2Proof.Machine
end

section
/-! The step of a theft wipe that queues its PURGE jobs: what it displaces, what it places, and what it leaves out (R112, R114). -/

namespace Sys2Proof.Machine

/-! ## Displacement -/

/-- The displacement of one job: it is CANCELLED, with detail THEFT. -/
def displaceJob (x : State × Release) (j : JobNo) : State × Release :=
  (raise (finishJob x.1 j .cancelled []).1 { kind := .sweepCancelled, job := some j, detail := .cancelled .theft },
    x.2.join (finishJob x.1 j .cancelled []).2)

theorem displace_of_room {need n : Nat} {x : State × Release} (h : need ≤ jobRoom x.1) : displace need n x = x := by
  cases n with
  | zero => rfl
  | succ n =>
    unfold displace
    rw [if_neg (Nat.not_lt.2 h)]

theorem displace_of_none {need n : Nat} {x : State × Release} (h : oldestDisplaceable x.1 = none) : displace need n x = x := by
  cases n with
  | zero => rfl
  | succ n =>
    unfold displace
    rw [h]
    exact ite_self _

theorem displace_succ {need n : Nat} {x : State × Release} {j : JobNo} (hr : jobRoom x.1 < need)
    (hj : oldestDisplaceable x.1 = some j) : displace need (n + 1) x = displace need n (displaceJob x j) := by
  conv_lhs => unfold displace
  rw [if_pos hr, hj]
  rfl

/-- Queued PURGE jobs have been cancelled, `x` before and `y` after. -/
structure Displaced (x y : State × Release) : Prop where
  frame    : y.1 = { x.1 with ranges := y.1.ranges, sweep := y.1.sweep, intents := y.1.intents, journal := y.1.journal }
  sweep    : y.1.sweep = { x.1.sweep with jobs := y.1.sweep.jobs, stack := y.1.sweep.stack }
  released : ∃ n, y.2 = x.2.join n ∧ Released [] n x.1 y.1
  journal  : ∃ es : List Event, y.1.journal = es.foldl journalRecord x.1.journal ∧ ∀ e ∈ es, e.kind = .sweepCancelled

theorem Displaced.refl (x : State × Release) : Displaced x x :=
  ⟨rfl, rfl, Released.exists_none _ (fun _ _ => rfl) rfl, [], rfl, fun _ h => absurd h List.not_mem_nil⟩

theorem Displaced.trans {x y z : State × Release} (h : Displaced x y) (k : Displaced y z) : Displaced x z := by
  obtain ⟨m, hm, hrel⟩ := h.released
  obtain ⟨n, hn, krel⟩ := k.released
  obtain ⟨es, hes, hall⟩ := h.journal
  obtain ⟨fs, hfs, kall⟩ := k.journal
  refine ⟨by rw [k.frame, h.frame], by rw [k.sweep, h.sweep],
    ⟨m.join n, by rw [hn, hm, Release.join_assoc], hrel.trans krel⟩, es ++ fs, by rw [hfs, hes, List.foldl_append],
    fun e he => ?_⟩
  rcases List.mem_append.1 he with he | he
  · exact hall e he
  · exact kall e he

/-- The end of a job that is not RUNNING leaves the lanes as they are. -/
theorem endTurn_queued {s : State} {j : JobNo} {b : Job} (hb : jobAt s j = some b) (hq : b.state = .queued) :
    endTurn s j cancelledJob = { s with sweep := { s.sweep with
      jobs := s.sweep.jobs.set j (.job (cancelledJob b)), stack := s.sweep.stack.filter (· ≠ j) } } := by
  have hlane : holdsLane s j = false := by
    simp [holdsLane, hb, hq]
  rw [endTurn_eq hb, hlane]
  rfl

theorem displaceJob_displaced {x : State × Release} {j : JobNo} {b : Job} (hb : Displaceable x.1 j b) (hs : x.1.startUp = none) :
    Displaced x (displaceJob x j) ∧
      (displaceJob x j).1.sweep.jobs = x.1.sweep.jobs.set j (.job (cancelledJob b)) := by
  obtain ⟨hframe, -, n, hn, hrel⟩ := finishJob_cancelled hb.1 []
  unfold displaceJob
  generalize finishJob x.1 j .cancelled [] = y at hframe hn hrel
  rw [endTurn_queued hb.1 hb.2.2.1] at hframe hrel
  have hstart : y.1.startUp = none := by rw [hframe]; exact hs
  rw [raise_journal _ _ hstart]
  refine ⟨⟨by rw [hframe], by rw [hframe], ⟨n, by rw [hn, Release.nil_join], hrel.congr ⟨rfl, rfl⟩ ⟨rfl, rfl⟩⟩,
    [{ kind := .sweepCancelled, job := some j, detail := .cancelled .theft }], by rw [hframe]; rfl, fun e he => ?_⟩,
    by rw [hframe]⟩
  rw [List.mem_singleton.1 he]

/-- A displacement makes room for one job. -/
theorem jobRoom_displaceJob {x : State × Release} {j : JobNo} {b : Job} (hb : Displaceable x.1 j b)
    (hs : x.1.startUp = none) : jobRoom (displaceJob x j).1 = jobRoom x.1 + 1 := by
  have hlive : finished b = false := by simp [finished, hb.2.2.1]
  have h := jobRoom_set (displaceJob_displaced hb hs).2 (by
    rw [takesNew_of_jobAt hb.1, hlive, finished_cancelledJob]
    decide)
  rwa [finished_cancelledJob, if_pos rfl] at h

theorem displace_displaced (need n : Nat) (x : State × Release) (hs : x.1.startUp = none) :
    Displaced x (displace need n x) ∧ (need ≤ jobRoom x.1 + n →
      need ≤ jobRoom (displace need n x).1 ∨ oldestDisplaceable (displace need n x).1 = none) := by
  induction n generalizing x with
  | zero => exact ⟨.refl x, .inl⟩
  | succ n ih =>
    by_cases hr : jobRoom x.1 < need
    · cases hj : oldestDisplaceable x.1 with
      | none =>
        rw [displace_of_none hj]
        exact ⟨.refl x, fun _ => .inr hj⟩
      | some j =>
        obtain ⟨b, hb, -⟩ := oldestDisplaceable_some hj
        have hstep := (displaceJob_displaced hb hs).1
        have hroom := jobRoom_displaceJob hb hs
        obtain ⟨hd, hends⟩ := ih (displaceJob x j) (by rw [hstep.frame]; exact hs)
        rw [displace_succ hr hj]
        exact ⟨hstep.trans hd, fun h => hends (by omega)⟩
    · rw [displace_of_room (Nat.not_lt.1 hr)]
      exact ⟨.refl x, fun _ => .inl (Nat.not_lt.1 hr)⟩

/-! ## Placing -/

/-- The groups that are placed are the first ones, one for each job. -/
theorem placeGroups_groups (o : PurgeOpt) (s : State) (groups : List (List RangeIx)) :
    (placeGroups o s groups).2.1 = groups.take (placeGroups o s groups).2.2.length := by
  induction groups generalizing s with
  | nil => rfl
  | cons g gs ih =>
    unfold placeGroups
    cases freeEntry s with
    | none => rfl
    | some j => exact congrArg (g :: ·) (ih _)

theorem freeEntry_of_room {s : State} (h : 0 < jobRoom s) : ∃ j, freeEntry s = some j := by
  obtain ⟨j, hj⟩ := List.exists_mem_of_length_pos h
  obtain ⟨hj, ht⟩ := List.mem_filter.1 hj
  cases hf : freeEntry s with
  | some j => exact ⟨j, rfl⟩
  | none => exact absurd ht (List.find?_eq_none.1 hf j hj)

theorem finished_queuedPurge (s : State) (o : PurgeOpt) (g : List RangeIx) : finished (queuedPurge s o g) = false := rfl

/-- Where there is room for all of them, all groups are placed. -/
theorem placeGroups_of_room (o : PurgeOpt) (s : State) (groups : List (List RangeIx)) (h : groups.length ≤ jobRoom s) :
    (placeGroups o s groups).2.1 = groups := by
  induction groups generalizing s with
  | nil => rfl
  | cons g gs ih =>
    rw [List.length_cons] at h
    obtain ⟨j, hj⟩ := freeEntry_of_room (s := s) (by omega)
    have hroom := jobRoom_set (s := s) (t := queueJob s j (purgeJob o g (groupStart s g) false)) (j := j)
      (b := queuedPurge s o g) rfl (by
        rw [freeEntry_takesNew hj, finished_queuedPurge]
        decide)
    rw [finished_queuedPurge, if_neg Bool.false_ne_true] at hroom
    unfold placeGroups
    rw [hj]
    exact congrArg (g :: ·) (ih (queueJob s j (purgeJob o g (groupStart s g) false)) (by omega))

theorem groupsOf4_flatten (l : List RangeIx) : (groupsOf4 l).flatten = l := by
  induction l using groupsOf4.induct with
  | case1 a b c d rest ih => rw [groupsOf4, List.flatten_cons, ih]; rfl
  | case2 => rfl
  | case3 l hlong hne =>
    match l with
    | [] => exact absurd rfl hne
    | [_] | [_, _] | [_, _, _] => rfl
    | a :: b :: c :: d :: rest => exact absurd rfl (hlong a b c d rest)

/-- A range of a placed group is in a PURGE job of up to 4 ranges. -/
theorem placeGroups_job {o : PurgeOpt} {s : State} {set : List RangeIx} {r : RangeIx}
    (hr : r ∈ (placeGroups o s (groupsOf4 set)).2.1.flatten) :
    ∃ j b, jobAt (placeGroups o s (groupsOf4 set)).1 j = some b ∧ r ∈ b.ranges ∧ b.ranges.length ≤ 4 ∧
      NewPurge s o b.ranges b := by
  have hplaced := placeGroups_placed o s (groupsOf4 set)
  rw [placeGroups_groups] at hr
  obtain ⟨g, hg, hrg⟩ := List.mem_flatten.1 hr
  obtain ⟨k, hk, hgk⟩ := List.mem_take_iff_getElem.1 hg
  have hklen : k < (placeGroups o s (groupsOf4 set)).2.2.length := by omega
  obtain ⟨f, b, hf, hb, hnew⟩ := hplaced.placed k hklen
  have hfg : f = g := by
    rw [List.getElem?_eq_getElem (by omega), hgk] at hf
    exact (Option.some.inj hf).symm
  subst hfg
  rw [groupsOf4_getElem? set k (by omega)] at hf
  refine ⟨_, b, hb, ?_, ?_, ?_⟩
  · rw [hnew.ranges]
    exact hrg
  · rw [hnew.ranges, ← Option.some.inj hf, List.length_take]
    exact Nat.min_le_left _ _
  · rwa [hnew.ranges]

/-! ## The step as a whole -/

/-- SWEEP_DROPPED of a range of a theft wipe. -/
def droppedEvent (cause : TheftCause) (r : RangeIx) : Event :=
  { kind := .sweepDropped, range := some r, detail := .theft cause }

/-- No queued PURGE job of level 2 or 3 is left, and no entry that could take a job. -/
def NoRoomLeft (s : State) : Prop := freeEntry s = none ∧ ∀ j b, ¬ Displaceable s j b

/-- A theft wipe has queued the PURGE jobs of its set, `a` before and `y` after. -/
structure TheftPurged (cause : TheftCause) (set : List RangeIx) (a : State) (y : State × Release × List RangeIx) : Prop where
  frame    : y.1 = { a with ranges := y.1.ranges, sweep := y.1.sweep, intents := y.1.intents, journal := y.1.journal }
  sweep    : y.1.sweep = { a.sweep with
    jobs := y.1.sweep.jobs, stack := y.1.sweep.stack, nextStamp := y.1.sweep.nextStamp }
  released : Released [] y.2.1 a y.1
  journal  : ∃ es : List Event, y.1.journal = es.foldl journalRecord a.journal ∧
    (∀ e ∈ es, e.kind = .sweepCancelled ∨ ∃ r ∈ set, e = droppedEvent cause r) ∧
    (a.dev.policy.purge ≠ none → ∀ r ∈ set, r ∉ y.2.2 → droppedEvent cause r ∈ es)
  placed   : ∀ p, a.dev.policy.purge = some p → ∀ r ∈ y.2.2, ∃ j b, jobAt y.1 j = some b ∧ r ∈ b.ranges ∧
    b.ranges.length ≤ 4 ∧ NewPurge a (theftOpt p) b.ranges b
  left     : a.dev.policy.purge ≠ none → ∀ r ∈ set, r ∉ y.2.2 → NoRoomLeft y.1

theorem foldl_raise_journal (s : State) (es : List Event) (hs : s.startUp = none) :
    es.foldl raise s = { s with journal := es.foldl journalRecord s.journal } := by
  induction es generalizing s with
  | nil => rfl
  | cons e es ih =>
    rw [List.foldl_cons, raise_journal _ _ hs, ih { s with journal := journalRecord s.journal e } hs]
    rfl

theorem Released.rangeStart {n : Release} {a t : State} (h : Released [] n a t) : rangeStart t = rangeStart a :=
  rangeStart_congr fun r => by
    rw [h.outside r List.not_mem_nil]
    split <;> rfl

theorem theftPurge_none {cause : TheftCause} {set : List RangeIx} {a : State} (h : a.dev.policy.purge = none) :
    theftPurge a cause set = (a, ⟨[], []⟩, []) := by
  unfold theftPurge
  rw [h]

/-- What displacement and placing make of the state, before the ranges that are left out are told of. -/
def theftPlaced (p : Pattern) (set : List RangeIx) (a : State) : State × List (List RangeIx) × List JobNo :=
  placeGroups (theftOpt p) (displace (groupsOf4 set).length 6 (a, ⟨[], []⟩)).1 (groupsOf4 set)

theorem theftPurge_some {cause : TheftCause} {set : List RangeIx} {a : State} {p : Pattern}
    (h : a.dev.policy.purge = some p) : theftPurge a cause set =
      (((set.filter (fun r => !(theftPlaced p set a).2.1.flatten.contains r)).map (droppedEvent cause)).foldl raise
        (theftPlaced p set a).1, (displace (groupsOf4 set).length 6 (a, ⟨[], []⟩)).2, (theftPlaced p set a).2.1.flatten) := by
  unfold theftPurge
  rw [h]
  rfl

/-- A range is left out only where no entry can take a job and no job may be displaced. -/
theorem theftPlaced_left {p : Pattern} {set : List RangeIx} {a : State} (hs : a.startUp = none) (hlen : set.length ≤ 16)
    {r : RangeIx} (hr : r ∈ set) (hnot : r ∉ (theftPlaced p set a).2.1.flatten) : NoRoomLeft (theftPlaced p set a).1 := by
  have hends := (displace_displaced (groupsOf4 set).length 6 (a, ⟨[], []⟩) hs).2
    (by rw [groupsOf4_length]; omega)
  unfold theftPlaced at hnot ⊢
  generalize (displace (groupsOf4 set).length 6 (a, ⟨[], []⟩)).1 = d at hends hnot ⊢
  have hplaced := placeGroups_placed (theftOpt p) d (groupsOf4 set)
  have hsome : (placeGroups (theftOpt p) d (groupsOf4 set)).2.1 ≠ groupsOf4 set := fun e => hnot (by
    rw [e, groupsOf4_flatten]
    exact hr)
  have hnone : ∀ j b, ¬ Displaceable d j b := (oldestDisplaceable_none d).1
    (hends.resolve_left fun h => hsome (placeGroups_of_room _ _ _ h))
  refine ⟨hplaced.count.resolve_left fun e => hsome ?_, fun j b hb => ?_⟩
  · rw [placeGroups_groups, e, List.take_length]
  · by_cases hj : j ∈ (placeGroups (theftOpt p) d (groupsOf4 set)).2.2
    · obtain ⟨k, hk, rfl⟩ := List.getElem_of_mem hj
      obtain ⟨g, c, -, hc, hnew⟩ := hplaced.placed k hk
      have hlevel : b.level = 0 := by
        rw [Option.some.inj (hb.1.symm.trans hc)]
        exact hnew.option.1
      rcases hb.2.2.2 with h | h <;> omega
    · refine hnone j b ⟨?_, hb.2⟩
      rw [← hb.1]
      unfold jobAt
      rw [hplaced.others j hj]

theorem theftPurge_purged {cause : TheftCause} {set : List RangeIx} {a : State} (hs : a.startUp = none)
    (hlen : set.length ≤ 16) : TheftPurged cause set a (theftPurge a cause set) := by
  cases hp : a.dev.policy.purge with
  | none =>
    rw [theftPurge_none hp]
    exact ⟨rfl, rfl, .none (fun _ _ => rfl) rfl, ⟨[], rfl, fun _ h => absurd h List.not_mem_nil, fun h => absurd hp h⟩,
      fun p h => (nomatch hp.symm.trans h), fun h => absurd hp h⟩
  | some p =>
    have hd := (displace_displaced (groupsOf4 set).length 6 (a, ⟨[], []⟩) hs).1
    have hleft := fun r => theftPlaced_left (p := p) hs hlen (r := r)
    have hplaced := placeGroups_placed (theftOpt p) (displace (groupsOf4 set).length 6 (a, ⟨[], []⟩)).1 (groupsOf4 set)
    have hjob := fun r => placeGroups_job (o := theftOpt p)
      (s := (displace (groupsOf4 set).length 6 (a, ⟨[], []⟩)).1) (set := set) (r := r)
    rw [theftPurge_some hp]
    obtain ⟨hframe, hsweep, ⟨n, hn, hrel⟩, es, hes, hall⟩ := hd
    have hq : theftPlaced p set a = placeGroups (theftOpt p) (displace (groupsOf4 set).length 6 (a, ⟨[], []⟩)).1
      (groupsOf4 set) := rfl
    rw [← hq] at hplaced hjob
    generalize displace (groupsOf4 set).length 6 (a, ⟨[], []⟩) = x at hframe hsweep hn hrel hes hplaced hjob
    generalize theftPlaced p set a = z at hleft hplaced hjob
    have hx : x.2 = n := hn
    have hzframe := hplaced.frame
    have hzstart : z.1.startUp = none := by
      rw [hzframe, hframe]
      exact hs
    rw [foldl_raise_journal _ _ hzstart]
    refine ⟨?_, ?_, ?_, ⟨es ++ (set.filter (fun r => !z.2.1.flatten.contains r)).map (droppedEvent cause), ?_,
      fun e he => ?_, fun _ r hr hno => ?_⟩, fun q hqp r hr => ?_, fun _ r hr hno => ?_⟩
    · rw [hzframe, hframe]
    · rw [hzframe, hsweep]
    · rw [hx]
      exact hrel.congr ⟨rfl, rfl⟩ ⟨by rw [hzframe], by rw [hzframe]⟩
    · rw [List.foldl_append, hzframe, hes]
    · rcases List.mem_append.1 he with he | he
      · exact .inl (hall e he)
      · obtain ⟨r, hr, rfl⟩ := List.mem_map.1 he
        exact .inr ⟨r, (List.mem_filter.1 hr).1, rfl⟩
    · exact List.mem_append_right _ (List.mem_map_of_mem (List.mem_filter.2 ⟨hr, by simpa using hno⟩))
    · cases hqp.symm.trans hp
      obtain ⟨j, b, hb, hrb, hb4, hnew⟩ := hjob r hr
      exact ⟨j, b, hb, hrb, hb4, hnew.congr hrel.rangeStart.symm⟩
    · exact hleft r hr hno

end Sys2Proof.Machine
end

section
/-! The whole event of a theft wipe (R112 to R114). -/

namespace Sys2Proof.Machine

/-! ## The event -/

/-- The state in which a theft wipe has ended the prepared state and journaled THEFT_WIPE. -/
def theftBegun (s : State) (cause : TheftCause) : State :=
  raise { s with control := { s.control with prepared := none } } { kind := .theftWipe, detail := .theft cause }

theorem theftBegun_eq {s : State} (cause : TheftCause) (hs : s.startUp = none) : theftBegun s cause =
    { s with control := { s.control with prepared := none }
             journal := journalRecord s.journal { kind := .theftWipe, detail := .theft cause } } :=
  raise_journal _ _ hs

/-- The ranges that a theft wipe makes DRAINING. -/
def theftAll (s : State) : List RangeIx := theftSet s ++ theftPending s

/-- The state in which a theft wipe has made its ranges DRAINING, and what it has left to be stored. -/
def theftDrained (s : State) (cause : TheftCause) : State × Release :=
  (theftAll s).foldl (makeDraining (theftAll s)) (theftBegun s cause, ⟨[], []⟩)

/-- The state in which a theft wipe has queued its PURGE jobs, what that has left to be stored, and the ranges placed. -/
def theftQueued (s : State) (cause : TheftCause) : State × Release × List RangeIx :=
  theftPurge (theftDrained s cause).1 cause (theftSet s)

/-- The pending entry of a theft wipe for a range. -/
def theftEntry (s : State) (placed : List RangeIx) (r : RangeIx) : Intent :=
  ⟨r, s.ranges[r].gen, if placed.contains r then s.dev.policy.purge.map (fun p => ⟨0, .holding, p⟩) else none, false⟩

theorem foldl_issue_plain (s : State) (l : List StoreOp) : issueEach s l =
    { s with writes := s.writes ++ l.map (fun op => ⟨op, .nothing, []⟩) } := by
  unfold issueEach
  induction l generalizing s with
  | nil =>
    rw [List.map_nil, List.append_nil]
    rfl
  | cons op l ih =>
    rw [List.foldl_cons, ih]
    simp [issue]

theorem theftTrigger_eq {s : State} (cause : TheftCause) (hs : s.startUp = none) : theftTrigger s cause =
    (let y := theftQueued s cause
    let rel := (theftDrained s cause).2.join y.2.1
    let add := (theftSet s).map (theftEntry y.1 y.2.2)
    ({ y.1 with intents := y.1.intents ++ add
                writes := y.1.writes ++ rel.steady.map (fun r => ⟨.rangeSteady r, .nothing, []⟩) },
      theftSet s, .intents [] rel.drop add)) := by
  have hset : theftSet (theftBegun s cause) = theftSet s := by rw [theftBegun_eq cause hs]; rfl
  have hpending : theftPending (theftBegun s cause) = theftPending s := by rw [theftBegun_eq cause hs]; rfl
  unfold theftTrigger
  dsimp only
  rw [foldl_issue_plain, List.map_map]
  change (let set := theftSet (theftBegun s cause)
    let all := set ++ theftPending (theftBegun s cause)
    let x := all.foldl (makeDraining all) (theftBegun s cause, ⟨[], []⟩)
    let y := theftPurge x.1 cause set
    let rel := x.2.join y.2.1
    let add := set.map (theftEntry y.1 y.2.2)
    (({ y.1 with intents := y.1.intents ++ add
                 writes := y.1.writes ++ rel.steady.map (fun r => ⟨.rangeSteady r, .nothing, []⟩) } : State),
      set, StoreOp.intents [] rel.drop add)) = _
  rw [hset, hpending]
  rfl

theorem mem_theftSet {s : State} {r : RangeIx} (h : r ∈ theftSet s) : intentOf s r = none := by
  have := (List.mem_filter.1 h).2
  simp only [Bool.and_eq_true, Option.isNone_iff_eq_none] at this
  exact this.2

theorem mem_theftPending {s : State} {r : RangeIx} (h : r ∈ theftPending s) : intentOf s r ≠ none := by
  have := (List.mem_filter.1 h).2
  simp only [Bool.and_eq_true] at this
  intro e
  rw [e] at this
  exact absurd this.2 Bool.false_ne_true

theorem theftAll_nodup (s : State) : (theftAll s).Nodup := by
  have hn : allRanges.Nodup := by decide
  refine List.nodup_append.2 ⟨hn.filter _, hn.filter _, fun a ha b hb e => ?_⟩
  rw [← e] at hb
  exact mem_theftPending hb (mem_theftSet ha)

theorem theftSet_length (s : State) : (theftSet s).length ≤ 16 := List.length_filter_le _ allRanges

theorem theftDrained_drained {s : State} (cause : TheftCause) (hs : s.startUp = none) :
    Drained (theftAll s) (theftAll s) (theftBegun s cause, ⟨[], []⟩) (theftDrained s cause) :=
  foldl_makeDraining (fun _ h => h) (theftAll_nodup s) _ (by rw [theftBegun_eq cause hs]; exact hs)

theorem Released.widen {set : List RangeIx} {n : Release} {a t : State} (h : Released [] n a t) : Released set n a t :=
  ⟨fun r _ => h.outside r List.not_mem_nil, h.intents⟩

/-- A theft wipe's event: `s` before, `t` in the end; `m` and `y` where its ranges drain and where its jobs are queued. -/
structure Wiped (cause : TheftCause) (s : State) (m : State × Release) (y : State × Release × List RangeIx) (t : State) :
    Prop where
  drained : Drained (theftAll s) (theftAll s) (theftBegun s cause, ⟨[], []⟩) m
  purged  : TheftPurged cause (theftSet s) m.1 y
  begun   : theftBegun s cause = { s with
    control := { s.control with prepared := none }
    journal := journalRecord s.journal { kind := .theftWipe, detail := .theft cause } }
  final   : t = { y.1 with
    intents := y.1.intents ++ (theftSet s).map (theftEntry y.1 y.2.2)
    writes := y.1.writes ++ (m.2.steady ++ y.2.1.steady).map (fun r => ⟨.rangeSteady r, .nothing, []⟩) }

theorem theftTrigger_wiped {s : State} (cause : TheftCause) (hs : s.startUp = none) :
    Wiped cause s (theftDrained s cause) (theftQueued s cause) (theftTrigger s cause).1 where
  drained := theftDrained_drained cause hs
  purged := theftPurge_purged (by
    rw [(theftDrained_drained cause hs).frame, theftBegun_eq cause hs]
    exact hs) (theftSet_length s)
  begun := theftBegun_eq cause hs
  final := by
    rw [theftTrigger_eq cause hs]
    rfl

section
variable {cause : TheftCause} {s : State} {m : State × Release} {y : State × Release × List RangeIx} {t : State}

theorem Wiped.queued_frame (h : Wiped cause s m y t) : y.1 = { s with
    control := { s.control with prepared := none }
    ranges := y.1.ranges, slots := m.1.slots, arb := m.1.arb, sweep := y.1.sweep, intents := y.1.intents
    journal := y.1.journal } := by
  rw [h.purged.frame, h.drained.frame, h.begun]

theorem Wiped.frame (h : Wiped cause s m y t) : t = { s with
    control := { s.control with prepared := none }
    ranges := t.ranges, slots := t.slots, arb := t.arb, sweep := t.sweep, intents := t.intents, journal := t.journal
    writes := t.writes } := by
  rw [h.final, h.queued_frame]

/-- What the whole event releases: the ranges that are not the wipe's, and the intent list. -/
theorem Wiped.released (h : Wiped cause s m y t) : Released (theftAll s) (m.2.join y.2.1) s y.1 := by
  obtain ⟨n, hn, hrel⟩ := h.drained.released
  have hm : m.2 = n := hn
  rw [hm]
  refine (hrel.trans h.purged.released.widen).congr ?_ ⟨rfl, rfl⟩
  rw [h.begun]
  exact ⟨rfl, rfl⟩

theorem Wiped.ranges_eq (h : Wiped cause s m y t) : t.ranges = y.1.ranges := by rw [h.final]

theorem Wiped.inside (h : Wiped cause s m y t) {r : RangeIx} (hr : r ∈ theftAll s) :
    t.ranges[r] = drainingEntry s.ranges[r] := by
  have hm : m.1.ranges[r] = drainingEntry s.ranges[r] := by
    rw [h.drained.inside r hr, if_pos hr, h.begun]
  rw [h.ranges_eq, h.purged.released.outside r List.not_mem_nil, hm, if_neg fun e => nomatch e.1]

theorem Wiped.outside (h : Wiped cause s m y t) {r : RangeIx} (hr : r ∉ theftAll s) : t.ranges[r] =
    if s.ranges[r].cond = .purging ∧ r ∈ m.2.steady ++ y.2.1.steady then { s.ranges[r] with cond := .steady }
    else s.ranges[r] := by
  rw [h.ranges_eq]
  exact h.released.outside r hr

theorem Wiped.gen (h : Wiped cause s m y t) (r : RangeIx) : y.1.ranges[r].gen = s.ranges[r].gen := by
  rw [← h.ranges_eq]
  by_cases hr : r ∈ theftAll s
  · rw [h.inside hr]
    rfl
  · rw [h.outside hr]
    split <;> rfl

theorem Wiped.entry (h : Wiped cause s m y t) (r : RangeIx) : theftEntry y.1 y.2.2 r = theftEntry s y.2.2 r := by
  have hdev : y.1.dev = s.dev := by rw [h.queued_frame]
  unfold theftEntry
  rw [h.gen r, hdev]

theorem Wiped.added (h : Wiped cause s m y t) :
    (theftSet s).map (theftEntry y.1 y.2.2) = (theftSet s).map (theftEntry s y.2.2) :=
  List.map_congr_left fun r _ => h.entry r

theorem Wiped.intents (h : Wiped cause s m y t) : t.intents =
    s.intents.map (dropPurge (m.2.drop ++ y.2.1.drop)) ++ (theftSet s).map (theftEntry s y.2.2) := by
  rw [h.final, ← h.added]
  exact congrArg (· ++ _) h.released.intents

theorem Wiped.entry_mem (h : Wiped cause s m y t) {r : RangeIx} (hr : r ∈ theftSet s) :
    theftEntry s y.2.2 r ∈ t.intents := by
  rw [h.intents]
  exact List.mem_append_right _ (List.mem_map_of_mem hr)

theorem Wiped.slots (h : Wiped cause s m y t) (i : SlotIx) :
    t.slots[i] = Machine.released^[timesNamed s (theftAll s) i] s.slots[i] := by
  have hslots : t.slots = m.1.slots := by rw [h.final, h.queued_frame]
  rw [hslots, h.drained.slots i, h.begun]
  rfl

theorem Wiped.slot_lost (h : Wiped cause s m y t) {r : RangeIx} {i : SlotIx} (hr : r ∈ theftAll s)
    (hnames : s.ranges[r].slot = some i ∨ nextSlotOf s.ranges[r] = some i) (hone : namings s i = 1) :
    t.slots[i] = Machine.released s.slots[i] := by
  have hperm : (theftAll s).Perm (allRanges.filter (theftAll s).contains) :=
    (List.perm_ext_iff_of_nodup (theftAll_nodup s) ((by decide : allRanges.Nodup).filter _)).2 fun q => by
      simp [mem_allRanges q]
  rw [h.slots i, timesNamed_perm hperm, timesNamed_of_namings List.filter_sublist (hperm.mem_iff.1 hr) hnames hone]
  rfl

theorem Wiped.sweep (h : Wiped cause s m y t) :
    t.sweep = { s.sweep with jobs := t.sweep.jobs, stack := t.sweep.stack, nextStamp := t.sweep.nextStamp } := by
  have hm := h.drained.jobs.sweep
  rw [h.begun] at hm
  have ht : t.sweep = y.1.sweep := by rw [h.final]
  rw [ht, h.purged.sweep, hm]

theorem Wiped.arb (h : Wiped cause s m y t) : t.arb =
    if allJobs.any (fun j => cutBy s (fun _ b => reaches (theftAll s) b) j && holdsLane s j) then undedicated s.arb
    else s.arb := by
  have ht : t.arb = m.1.arb := by rw [h.final, h.queued_frame]
  rw [ht, h.drained.jobs.arb, h.begun]
  rfl

/-- What the wipe makes of the jobs, before it queues its own. -/
theorem Wiped.jobs (h : Wiped cause s m y t) :
    JobsWiped (theftAll s) (fun _ b => reaches (theftAll s) b) s m.1 :=
  h.drained.jobs.congr (by rw [h.begun]; exact ⟨rfl, rfl⟩) ⟨rfl, rfl⟩

theorem Wiped.arb_holding (h : Wiped cause s m y t) {j : JobNo} {b : Job}
    (hcut : cutBy s (fun _ b => reaches (theftAll s) b) j = true) (hb : jobAt s j = some b) (hrun : b.state = .running)
    (hhold : b.policy = .holding) : t.arb = undedicated s.arb :=
  h.arb.trans (if_pos (List.any_eq_true.2
    ⟨j, mem_allJobs j, Bool.and_eq_true_iff.2 ⟨hcut, holdsLane_iff.2 ⟨b, hb, hrun, hhold⟩⟩⟩))

theorem Wiped.arb_yielding (h : Wiped cause s m y t)
    (hyield : ∀ j b, cutBy s (fun _ b => reaches (theftAll s) b) j = true → jobAt s j = some b → b.state = .running →
      b.policy = .yielding) : t.arb = s.arb := by
  refine h.arb.trans (if_neg fun e => ?_)
  obtain ⟨j, -, hj⟩ := List.any_eq_true.1 e
  obtain ⟨hcut, hlane⟩ := Bool.and_eq_true_iff.1 hj
  obtain ⟨b, hb, hrun, hhold⟩ := holdsLane_iff.1 hlane
  rw [hyield j b hcut hb hrun] at hhold
  cases hhold

theorem Wiped.rangeStart (h : Wiped cause s m y t) : rangeStart m.1 = rangeStart s := rangeStart_congr fun r => by
  have ht : y.1.ranges[r].start = m.1.ranges[r].start := by
    rw [h.purged.released.outside r List.not_mem_nil]
    split <;> rfl
  rw [← ht, ← h.ranges_eq]
  by_cases hr : r ∈ theftAll s
  · rw [h.inside hr]
    rfl
  · rw [h.outside hr]
    split <;> rfl

theorem Wiped.policy (h : Wiped cause s m y t) : m.1.dev.policy.purge = s.dev.policy.purge := by
  rw [h.drained.frame, h.begun]

/-- The journal of the event, and what becomes of each range of the set (R112, R114). -/
theorem Wiped.journal (h : Wiped cause s m y t) : ∃ more : List Event,
    t.journal = (({ kind := .theftWipe, detail := .theft cause } : Event) :: more).foldl journalRecord s.journal ∧
    (∀ e ∈ more, e.kind = .sweepCancelled ∨ ∃ r ∈ theftSet s, e = droppedEvent cause r) ∧
    (s.dev.policy.purge ≠ none → ∀ r ∈ theftSet s, r ∉ y.2.2 → droppedEvent cause r ∈ more) := by
  obtain ⟨es, hes, hall⟩ := h.drained.journal
  obtain ⟨fs, hfs, hkinds, hdrop⟩ := h.purged.journal
  have ht : t.journal = y.1.journal := by rw [h.final]
  refine ⟨es ++ fs, ?_, fun e he => ?_, fun hp r hr hno => List.mem_append_right _ (hdrop (by rwa [h.policy]) r hr hno)⟩
  · rw [ht, hfs, hes, h.begun, List.foldl_cons, List.foldl_append]
  · rcases List.mem_append.1 he with he | he
    · exact .inl (hall e he).1
    · exact hkinds e he

theorem Wiped.entry_plain (h : Wiped cause s m y t) {r : RangeIx} (hr : r ∈ theftSet s)
    (hno : s.dev.policy.purge = none ∨ r ∉ y.2.2) : (⟨r, s.ranges[r].gen, none, false⟩ : Intent) ∈ t.intents := by
  have hmem := h.entry_mem hr
  unfold theftEntry at hmem
  rcases hno with hp | hno
  · rw [hp] at hmem
    simpa using hmem
  · rwa [if_neg (by simpa using hno)] at hmem

theorem Wiped.entry_purge (h : Wiped cause s m y t) {r : RangeIx} (hr : r ∈ theftSet s) {p : Pattern}
    (hp : s.dev.policy.purge = some p) (hin : r ∈ y.2.2) :
    (⟨r, s.ranges[r].gen, some ⟨0, .holding, p⟩, false⟩ : Intent) ∈ t.intents := by
  have hmem := h.entry_mem hr
  unfold theftEntry at hmem
  rw [if_pos (by simpa using hin), hp] at hmem
  exact hmem

theorem Wiped.job (h : Wiped cause s m y t) {r : RangeIx} {p : Pattern} (hp : s.dev.policy.purge = some p)
    (hin : r ∈ y.2.2) : ∃ j b, jobAt t j = some b ∧ r ∈ b.ranges ∧ b.ranges.length ≤ 4 ∧
      NewPurge s ⟨0, .holding, p⟩ b.ranges b := by
  obtain ⟨j, b, hb, hrb, hlen, hnew⟩ := h.purged.placed p (by rwa [h.policy]) r hin
  have ht : jobAt t j = jobAt y.1 j := jobAt_congr (by rw [h.final]) j
  exact ⟨j, b, ht.trans hb, hrb, hlen, hnew.congr h.rangeStart.symm⟩

theorem Wiped.left (h : Wiped cause s m y t) {r : RangeIx} (hr : r ∈ theftSet s) (hp : s.dev.policy.purge ≠ none)
    (hno : r ∉ y.2.2) : NoRoomLeft t := by
  obtain ⟨hfree, hnone⟩ := h.purged.left (by rwa [h.policy]) r hr hno
  have hsweep : t.sweep = y.1.sweep := by rw [h.final]
  refine ⟨?_, fun j b hb => hnone j b ⟨?_, hb.2⟩⟩
  · unfold freeEntry
    rw [hsweep]
    exact hfree
  · rw [← hb.1]
    exact (jobAt_congr (by rw [hsweep]) j).symm

end

end Sys2Proof.Machine
end

section
/-! The steps of a theft wipe one by one, its writes, and the theft wipe as a whole (R108, R112 to R116). -/

namespace Sys2Proof.Machine

/-! ## The event as the policy describes it -/

theorem theftPending_eq (s : State) : theftPending s = allRanges.filter (fun r =>
    s.ranges[r].active && s.ranges[r].flags.wipeOnTheft && s.ranges[r].cond ≠ .draining &&
      (intentOf s r).any (fun e => !e.stored)) := by
  unfold theftPending
  refine congrArg (fun f => allRanges.filter f) (funext fun r => ?_)
  cases intentOf s r <;> rfl

theorem drainingEntry_names (x : RangeEntry) : (drainingEntry x).slot = none ∧ nextSlotOf (drainingEntry x) = none := by
  unfold nextSlotOf drainingEntry
  cases x.mig <;> exact ⟨rfl, rfl⟩

/-- The event of a theft wipe, clause by clause. -/
theorem theftTrigger_spec (s : State) (cause : TheftCause) (hs : s.startUp = none) :
    let x := theftTrigger s cause
    let t := x.1
    let all := x.2.1 ++ theftPending s
    let begun := raise { s with control := { s.control with prepared := none } }
      { kind := .theftWipe, detail := .theft cause }
    let m := all.foldl (makeDraining all) (begun, ⟨[], []⟩)
    let y := theftPurge m.1 cause x.2.1
    x.2.1 = theftSet s ∧ all = theftAll s ∧ Wiped cause s m y t ∧
      x.2.2 = .intents [] (m.2.drop ++ y.2.1.drop) ((theftSet s).map (theftEntry s y.2.2)) := by
  intro x t all begun m y
  have hset : x.2.1 = theftSet s := congrArg (fun x => x.2.1) (theftTrigger_eq cause hs)
  have hall : all = theftAll s := congrArg (· ++ theftPending s) hset
  have hm : m = theftDrained s cause := by
    change all.foldl (makeDraining all) (begun, ⟨[], []⟩) = _
    rw [hall]
    rfl
  have hy : y = theftQueued s cause := by
    change theftPurge m.1 cause x.2.1 = _
    rw [hm, hset]
    rfl
  have hw : Wiped cause s m y t := by
    rw [hm, hy]
    exact theftTrigger_wiped cause hs
  refine ⟨hset, hall, hw, ?_⟩
  rw [← hw.added, hm, hy]
  exact congrArg (fun x => x.2.2) (theftTrigger_eq cause hs)

/-! ## One range, and one job of it (R55, R108) -/

theorem releaseNames_spec (z : State) (r : RangeIx) :
    releaseNames z r = { z with
      ranges := z.ranges.set r { z.ranges[r] with
        slot := none, mig := z.ranges[r].mig.map (fun m => { m with nextSlot := none }) }
      slots := (releaseNames z r).slots } ∧
    ∀ i : SlotIx, (releaseNames z r).slots[i] = released^[timesNamed z [r] i] z.slots[i] := by
  refine ⟨?_, (namesReleased_spec z r).2⟩
  unfold releaseNames
  dsimp only
  rw [releaseOpt_eq, releaseOpt_eq z]
  rfl

theorem timesNamed_once {s : State} {r : RangeIx} {i : SlotIx}
    (h : s.ranges[r].slot = some i ∨ nextSlotOf s.ranges[r] = some i) (hne : s.ranges[r].slot ≠ nextSlotOf s.ranges[r]) :
    timesNamed s [r] i = 1 := by
  unfold timesNamed
  rw [List.countP_singleton, List.countP_singleton]
  rcases h with h | h
  · have hn : nextSlotOf s.ranges[r] ≠ some i := fun e => hne (h.trans e.symm)
    simp [h, hn, -Fin.getElem_fin]
  · have hn : s.ranges[r].slot ≠ some i := fun e => hne (e.trans h.symm)
    simp [h, hn, -Fin.getElem_fin]

theorem makeDraining_set (set : List RangeIx) (x : State × Release) (r : RangeIx) : makeDraining set x r =
    allJobs.foldl (wipeJob set r) ({ releaseNames x.1 r with ranges := x.1.ranges.set r (drainingEntry x.1.ranges[r]) },
      x.2) := by
  rw [makeDraining_eq, (namesDrained_spec x.1 r).1]
  have h : ({ x.1 with ranges := x.1.ranges.set r (drainingEntry x.1.ranges[r]), slots := (namesDrained x.1 r).slots }
      : State) = { releaseNames x.1 r with ranges := x.1.ranges.set r (drainingEntry x.1.ranges[r]) } := by
    rw [(releaseNames_spec x.1 r).1]
    rfl
  rw [h]
  rfl

/-- A job that a wipe of a range reaches. -/
def WipeReaches (r : RangeIx) (b : Job) : Prop := finished b = false ∧ r ∈ b.ranges ∧ (b.kind = .rekey ∨ b.level ≠ 0)

theorem reaches_iff (r : RangeIx) (b : Job) : reaches [r] b = true ↔ WipeReaches r b := by
  rw [reaches_singleton]
  simp [WipeReaches, and_assoc]

theorem wipeJob_of_not_reached {set : List RangeIx} {r : RangeIx} {x : State × Release} {j : JobNo}
    (h : ∀ b, jobAt x.1 j = some b → ¬ WipeReaches r b) : wipeJob set r x j = x := by
  unfold wipeJob
  dsimp only
  cases hb : jobAt x.1 j with
  | none => rfl
  | some b =>
    dsimp only
    rw [← reaches_singleton, if_neg fun e => h b hb ((reaches_iff r b).1 e)]

theorem wipeJob_of_chunk {set : List RangeIx} {r : RangeIx} {x : State × Release} {j : JobNo} {b : Job}
    (hb : jobAt x.1 j = some b) (hr : WipeReaches r b) (hc : hasChunk x.1 j = true) :
    wipeJob set r x j = (setJob x.1 j (.job (remembering set b)), x.2) := by
  unfold wipeJob
  dsimp only
  rw [hb]
  dsimp only
  rw [← reaches_singleton, if_pos ((reaches_iff r b).2 hr), if_pos hc, modJob_eq hb]
  rfl

theorem wipeJob_of_cancelled {set : List RangeIx} {r : RangeIx} {x : State × Release} {j : JobNo} {b : Job}
    (hb : jobAt x.1 j = some b) (hr : WipeReaches r b) (hc : hasChunk x.1 j = false) :
    wipeJob set r x j = ((cancelByWipe x.1 j set r).1, x.2.join (cancelByWipe x.1 j set r).2) := by
  unfold wipeJob
  dsimp only
  rw [hb]
  dsimp only
  rw [← reaches_singleton, if_pos ((reaches_iff r b).2 hr), if_neg (by rw [hc]; exact Bool.false_ne_true)]

/-! ## The job table -/

theorem jobRoom_count (s : State) :
    allJobs.countP (fun j => s.sweep.jobs[j] = .free || (jobAt s j).any finished) = jobRoom s := by
  rw [jobRoom_eq]
  exact congrArg (fun f => allJobs.countP f) (funext fun j => (takesNew_eq s j).symm)

theorem freeEntry_find (s : State) :
    freeEntry s = allJobs.find? (fun j => s.sweep.jobs[j] = .free || (jobAt s j).any finished) := by
  unfold freeEntry
  exact congrArg (fun f => allJobs.find? f) (funext fun j => takesNew_eq s j)

theorem groupsOf4_eq (l : List RangeIx) : groupsOf4 l = if l = [] then [] else l.take 4 :: groupsOf4 (l.drop 4) := by
  match l with
  | [] => rfl
  | [_] | [_, _] | [_, _, _] => rfl
  | _ :: _ :: _ :: _ :: _ => rfl

theorem placeGroups_none {o : PurgeOpt} {s : State} (h : freeEntry s = none) (g : List RangeIx) (gs : List (List RangeIx)) :
    placeGroups o s (g :: gs) = (s, [], []) := by
  unfold placeGroups
  rw [h]

theorem placeGroups_some {o : PurgeOpt} {s : State} {j : JobNo} (h : freeEntry s = some j) (g : List RangeIx)
    (gs : List (List RangeIx)) : placeGroups o s (g :: gs) =
      (let x := placeGroups o (queueJob s j (purgeJob o g (groupStart s g) false)) gs
      (x.1, g :: x.2.1, j :: x.2.2)) := by
  conv_lhs => unfold placeGroups
  rw [h]
  rfl

/-! ## The writes of a theft wipe (R115, R116) -/

theorem behindTheft_none {chain : List (StoreOp × Done)} {l : List Write} (h : ∀ w ∈ l, theftWrite w = false) :
    behindTheft chain l = none := by
  induction l with
  | nil => rfl
  | cons w l ih =>
    unfold behindTheft
    rw [ih fun v hv => h v (List.mem_cons_of_mem _ hv)]
    dsimp only
    rw [if_neg (by rw [h w (List.mem_cons_self ..)]; exact Bool.false_ne_true)]

/-- A theft wipe's writes follow the last write that is an earlier theft wipe's. -/
theorem behindTheft_last {chain : List (StoreOp × Done)} (pre : List Write) {w : Write} {post : List Write}
    (hw : theftWrite w = true) (hpost : ∀ v ∈ post, theftWrite v = false) :
    behindTheft chain (pre ++ w :: post) = some (pre ++ { w with rest := w.rest ++ chain } :: post) := by
  induction pre with
  | nil =>
    rw [List.nil_append]
    unfold behindTheft
    rw [behindTheft_none hpost]
    dsimp only
    rw [if_pos hw]
    rfl
  | cons v pre ih =>
    rw [List.cons_append]
    unfold behindTheft
    rw [ih]
    rfl

theorem issueTheft_quiet {s : State} (h : theftOutstanding s = false) (op : StoreOp) (d : Done)
    (rest : List (StoreOp × Done)) :
    issueTheft s ((op, d) :: rest) = { s with writes := s.writes ++ [⟨op, d, rest⟩] } := by
  unfold issueTheft
  rw [behindTheft_none fun w hw => by simpa using List.any_eq_false.1 h w hw]
  rfl

theorem issueTheft_behind {s : State} {chain : List (StoreOp × Done)} {pre post : List Write} {w : Write}
    (h : s.writes = pre ++ w :: post) (hw : theftWrite w = true) (hpost : ∀ v ∈ post, theftWrite v = false) :
    issueTheft s chain = { s with writes := pre ++ { w with rest := w.rest ++ chain } :: post } := by
  unfold issueTheft
  rw [h, behindTheft_last pre hw hpost]

/-! ## The completion of a theft wipe's writes (R115, R163, R174) -/

/-- The write that follows a completed one. -/
def follows : List (StoreOp × Done) → List Write
  | [] => []
  | y :: ys => [⟨y.1, y.2, ys⟩]

/-- The state in which the oldest write has completed, before the change that waited on it. -/
def writeDone (s : State) (op : StoreOp) (more : List (StoreOp × Done)) (rest : List Write) : State :=
  { s with store := applyOp s op, writes := rest ++ follows more }

theorem exec_oldest {s : State} {op : StoreOp} {d : Done} {more : List (StoreOp × Done)} {rest : List Write}
    (hw : s.writes = ⟨op, d, more⟩ :: rest) : exec .storeWriteCompletion s =
      .next (startUpGoesOn (storeDone (writeDone s op more rest) d)) := by
  have hrest : issueRest { s with store := applyOp s op, writes := rest } ⟨op, d, more⟩ = writeDone s op more rest := by
    cases more with
    | nil =>
      unfold writeDone follows
      rw [List.append_nil]
      rfl
    | cons y ys => rfl
  simp only [exec, execStoreWriteCompletion, hw, completeWrite, hrest]

/-- With start-up over, a change that keeps it so is all that a completion brings. -/
theorem exec_oldest_settled {s t : State} {op : StoreOp} {d : Done} {more : List (StoreOp × Done)} {rest : List Write}
    (hw : s.writes = ⟨op, d, more⟩ :: rest) (hd : storeDone (writeDone s op more rest) d = t) (ht : t.startUp = none) :
    exec .storeWriteCompletion s = .next t := by
  rw [exec_oldest hw, hd, startUpGoesOn_none t ht]

/-- A theft wipe's writes have completed, or its intents are stored: the unit takes its next request, or a RESTART that waited
goes on. -/
structure GoesOn (s t : State) : Prop where
  idle    : s.control.service = none → exec .storeWriteCompletion s = .next (takeNext t)
  other   : ∀ v, s.control.service = some v → (∀ p, v.after ≠ .restart p) → exec .storeWriteCompletion s = .next t
  restart : ∀ v, s.control.service = some v → ∀ p, v.after = .restart p →
    exec .storeWriteCompletion s = .next (startUpGoesOn (finishService t))

theorem GoesOn.of_afterTheft {s t : State} {op : StoreOp} {d : Done} {more : List (StoreOp × Done)} {rest : List Write}
    (hw : s.writes = ⟨op, d, more⟩ :: rest) (hd : storeDone (writeDone s op more rest) d = afterTheft t)
    (ht : t.startUp = none) (hc : t.control = s.control) : GoesOn s t := by
  have hexec := exec_oldest hw
  rw [hd] at hexec
  refine ⟨fun hv => ?_, fun v hv hno => ?_, fun v hv p hp => ?_⟩
  · have ha : afterTheft t = takeNext t := by
      unfold afterTheft
      rw [hc, hv]
    rw [hexec, ha, startUpGoesOn_none _ ((takeNext_startUp t).trans ht)]
  · have ha : afterTheft t = t := by
      unfold afterTheft
      rw [hc, hv]
      dsimp only
      split
      · next p hp => exact absurd hp (hno p)
      · rfl
    rw [hexec, ha, startUpGoesOn_none t ht]
  · have ha : afterTheft t = finishService t := by
      unfold afterTheft
      rw [hc, hv]
      dsimp only
      rw [hp]
    rw [hexec, ha]

/-- The entries of a theft wipe's set are stored. -/
def theftMarked (s : State) (set : List RangeIx) : State :=
  { s with intents := s.intents.map (fun e => if set.contains e.range then { e with stored := true } else e) }

/-- WIPE_COMMITTED for one range. -/
def tellCommitted (s : State) (r : RangeIx) : State :=
  match intentOf s r with
  | some e => raise s { kind := .wipeCommitted, range := some r, detail := .gen e.gen }
  | none => s

theorem tellCommitted_kept (s : State) (r : RangeIx) (hs : s.startUp = none) :
    (tellCommitted s r).startUp = none ∧ (tellCommitted s r).control = s.control := by
  unfold tellCommitted
  split
  · exact ⟨raise_startUp _ _ hs, raise_control _ _⟩
  · exact ⟨hs, rfl⟩

theorem foldl_tellCommitted_kept (l : List RangeIx) (s : State) (hs : s.startUp = none) :
    (l.foldl tellCommitted s).startUp = none ∧ (l.foldl tellCommitted s).control = s.control := by
  induction l generalizing s with
  | nil => exact ⟨hs, rfl⟩
  | cons r l ih =>
    obtain ⟨h1, h2⟩ := tellCommitted_kept s r hs
    obtain ⟨h3, h4⟩ := ih (tellCommitted s r) h1
    exact ⟨h3, h4.trans h2⟩

end Sys2Proof.Machine
end

section
/-! The theft wipe as a whole (R112 to R116). -/

namespace Sys2Proof.Machine

/-- The completion of each of a theft wipe's writes. -/
theorem theftWrites_complete (s : State) (op : StoreOp) (more : List (StoreOp × Done)) (rest : List Write)
    (hs : s.startUp = none) :
    let u := writeDone s op more rest
    (∀ cause, s.writes = ⟨op, .theftDevice cause false, more⟩ :: rest →
      exec .storeWriteCompletion s = .next { u with dev := { s.dev with lastCause := cause } }) ∧
    (∀ cause v r, s.writes = ⟨op, .theftDevice cause true, more⟩ :: rest → s.control.service = some v →
      v.after = .respond r →
        exec .storeWriteCompletion s = .next (respond { u with dev := { s.dev with lastCause := cause } } r)) ∧
    (∀ cause set, s.writes = ⟨op, .theftIntents cause set, more⟩ :: rest →
      GoesOn s (set.foldl tellCommitted (theftMarked u set))) ∧
    (s.writes = ⟨op, .theftClear, more⟩ :: rest → GoesOn s { u with dev := { s.dev with lockedStarts := 0 } }) := by
  intro u
  refine ⟨fun cause hw => ?_, fun cause v r hw hv hr => ?_, fun cause set hw => ?_, fun hw => ?_⟩
  · exact exec_oldest_settled hw rfl hs
  · refine exec_oldest_settled hw (t := respond { u with dev := { s.dev with lastCause := cause } } r) ?_
      ((respond_startUp _ _).trans hs)
    change finishService { u with dev := { s.dev with lastCause := cause } } = _
    unfold finishService
    rw [show ({ u with dev := { s.dev with lastCause := cause } } : State).control.service = some v from hv]
    dsimp only
    rw [hr]
  · obtain ⟨h1, h2⟩ := foldl_tellCommitted_kept set (theftMarked u set) hs
    exact GoesOn.of_afterTheft hw rfl h1 h2
  · exact GoesOn.of_afterTheft hw rfl hs rfl

/-- Settles O38: the event by `Wiped`, which composes the drain of the ranges with the queueing of the PURGE jobs; then the
steps and the writes one by one. -/
theorem theftWipeDrainsTheFlaggedRanges : Obligations.TheftWipeDrainsTheFlaggedRanges := by
  refine ⟨fun s cause hs => ?_, fun set x r => ?_, fun set r x j => ?_, fun s cause set => ?_, fun need n x => ?_,
    fun s => ?_, fun o s g gs => ?_, freeEntry_find, groupsOf4_eq, fun s => rfl, fun cause control p set op => rfl,
    fun s op d rest => ?_, fun s op more rest hs => ?_⟩
  · intro x t all begun m y steady drop add hit cut
    obtain ⟨hset, hwhole, hw, hop⟩ := theftTrigger_spec s cause hs
    have hall : all = theftAll s := hwhole
    have hadd : add = (theftSet s).map (theftEntry s y.2.2) := congrArg (fun l => l.map (theftEntry s y.2.2)) hset
    have hin : ∀ r ∈ all, t.ranges[r] = drainingEntry s.ranges[r] := fun r hr => hw.inside (hall ▸ hr)
    have hout : ∀ r, r ∉ all → t.ranges[r] =
        if s.ranges[r].cond = .purging ∧ r ∈ steady then { s.ranges[r] with cond := .steady } else s.ranges[r] :=
      fun r hr => hw.outside (hall ▸ hr)
    have hmem : ∀ r, r ∈ all ↔ r ∈ x.2.1 ∨ r ∈ theftPending s := fun r => List.mem_append
    have hjobs : JobsWiped all (fun _ b => reaches all b) s m.1 := by
      rw [hall]
      exact hw.jobs
    have hcut : ∀ j, cut j = cutBy s (fun _ b => reaches (theftAll s) b) j := fun j => by
      rw [← hall]
      rfl
    obtain ⟨more, hjournal, hkinds, hdropped⟩ := hw.journal
    refine ⟨hset, theftPending_eq s, ?_, ?_, hw.frame, ?_, hw.sweep, hjobs.sweep, hjobs.jobs, ?_, ?_, hin, hout,
      fun i hi => ?_, fun i r hr hn h1 => ?_, fun r hr => ?_, fun r hr hp => ?_, more, hjournal, ?_, fun hp r hr => ?_,
      fun p hp r hr => ?_⟩
    · have hwrites : y.1.writes = s.writes := by rw [hw.queued_frame]
      refine hw.final.trans ?_
      rw [hadd, hw.added, hwrites]
    · rw [hadd]
      exact hop
    · rw [hadd]
      exact hw.intents
    · rintro ⟨j, b, hj, hb, hrun, hhold⟩
      exact hw.arb_holding ((hcut j).symm.trans hj) hb hrun hhold
    · intro hyield
      exact hw.arb_yielding fun j b hj => hyield j b ((hcut j).trans hj)
    · rw [hw.slots i, timesNamed_eq_zero fun r hr => hi r (hall.symm ▸ hr)]
      rfl
    · exact hw.slot_lost (hall ▸ hr) hn h1
    · rw [hin r ((hmem r).2 hr)]
      exact ⟨rfl, rfl, drainingEntry_names _⟩
    · rw [hout r fun h => ((hmem r).1 h).elim hr hp]
      split
      · next h => exact ⟨rfl, rfl, .inr ⟨h.1, rfl⟩⟩
      · exact ⟨rfl, rfl, .inl rfl⟩
    · rw [hset]
      exact hkinds
    · exact hw.entry_plain (hset ▸ hr) (.inl hp)
    · have hr' : r ∈ theftSet s := hset ▸ hr
      by_cases hplaced : r ∈ y.2.2
      · exact .inl ⟨hw.entry_purge hr' hp hplaced, hw.job hp hplaced⟩
      · have hpurge : s.dev.policy.purge ≠ none := by
          rw [hp]
          exact nofun
        obtain ⟨hfree, hnone⟩ := hw.left hr' hpurge hplaced
        refine .inr ⟨hw.entry_plain hr' (.inr hplaced), hdropped hpurge r hr' hplaced, hfree, fun j b hb hk hq => ?_⟩
        exact not_or.1 fun hl => hnone j b ⟨hb, hk, hq, hl⟩
  · intro z n e
    obtain ⟨hframe, hslots⟩ := releaseNames_spec z r
    refine ⟨makeDraining_set set x r, hframe, fun i h1 h2 => ?_, fun i h hne => ?_⟩
    · exact (hslots i).trans (by
        rw [timesNamed_eq_zero fun q hq => by
          rw [List.mem_singleton.1 hq]
          exact ⟨h1, h2⟩]
        rfl)
    · exact (hslots i).trans (by
        rw [timesNamed_once h hne]
        rfl)
  · exact ⟨wipeJob_of_not_reached, fun b => wipeJob_of_chunk, fun b => wipeJob_of_cancelled⟩
  · exact ⟨theftPurge_none, fun _ => theftPurge_some⟩
  · intro room
    have hroom : room = jobRoom x.1 := jobRoom_count x.1
    rw [hroom]
    exact ⟨rfl, displace_of_room, fun _ => displace_of_none, fun j => displace_succ⟩
  · exact ⟨oldestDisplaceable_none s, fun j => oldestDisplaceable_some⟩
  · exact ⟨rfl, fun h => placeGroups_none h g gs, fun j h => placeGroups_some h g gs⟩
  · exact ⟨fun h => issueTheft_quiet h op d rest, fun pre w post => issueTheft_behind⟩
  · intro f u next goesOn
    have hu : writeDone s op more rest = u := by cases more <;> rfl
    obtain ⟨hdevice, hcontrol, hintents, hclear⟩ := theftWrites_complete s op more rest hs
    rw [hu] at hdevice hcontrol hintents hclear
    have goes : ∀ {t}, GoesOn s t → goesOn t := fun h => ⟨h.idle, fun v hv => ⟨h.other v hv, h.restart v hv⟩⟩
    exact ⟨hdevice, hcontrol, fun cause set hw => goes (hintents cause set hw), fun hw => goes (hclear hw)⟩

end Sys2Proof.Machine
end

section
/-! Proof checking and its accounting: what a request's proof decides, what a mismatch costs, and the requests that need OWNER
authority (R64 to R68, R84). -/

namespace Sys2Proof.Machine

/-! ## Tries left (O3) -/

/-- Settles O3: every operation of every command keeps the tries within the budget. -/
theorem everyStepKeepsTriesWithinBudget : Obligations.EveryStepKeepsTriesWithinBudget :=
  fun _ _ htries hstep => (step_kept hstep).tries htries

/-! ## The command of a request and its proof check (R66) -/

/-- The requests that need OWNER authority and nothing else take it. -/
theorem takesOwner_of_needsOwner {r : Request} {config : Bool} (h : needsOwner r = some config) : takesOwner r = true := by
  cases r <;> cases h <;> rfl

/-- The command of a request that needs OWNER authority checks its proof, then OWNER, then the frozen state. -/
theorem exec_ownerRequest {s : State} (p : StartInputs) {b : RequestBlock} {r : Request} {config : Bool}
    (h : starting s = some (b, r)) (hn : needsOwner r = some config) :
    ∃ go, exec (commandOf p b r) s = .next (ownerRequest (endPrepared s) b config go) := by
  cases r <;> cases hn <;>
    simp only [commandOf, exec, execRestart, execCredClear, execCredDisable, execCredEnable, execCredGrant, execCredRevoke,
      execCredBudget, execRangeDefine, execRangeDelete, execRangeFlags, execCeilingSet, execReserveClose, execPbwSet,
      execSweepPause, execSweepResume, execSweepCancel, execTheftSet, execPowerSet, h] <;>
    exact ⟨_, rfl⟩

/-- The command of a request that names a credential, and whose proof check does not pass, is that check. -/
theorem exec_withProof {s : State} (p : StartInputs) {b : RequestBlock} {r : Request} (h : starting s = some (b, r))
    (hc : b.cred ≠ 255) (hp : ∀ c m, checkProof s b (takesOwner r) ≠ .passed c m) :
    ∃ go, exec (commandOf p b r) s = .next (withProof (endPrepared s) b (takesOwner r) go) := by
  cases hn : needsOwner r with
  | some config =>
    obtain ⟨go, hgo⟩ := exec_ownerRequest p h hn
    rw [takesOwner_of_needsOwner hn, hgo]
    exact ⟨_, rfl⟩
  | none =>
    have hnamed : (namedCred b).isSome = true := by rw [namedCred, if_neg hc]; rfl
    cases r
    case query =>
      simp only [commandOf, exec, execQuery, h]
      cases hk : checkProof s b false with
      | passed c m => exact absurd hk (hp c m)
      | refused st => exact ⟨_, rfl⟩
      | mismatch c => exact ⟨_, rfl⟩
    case unlock l =>
      simp only [commandOf, hnamed, if_true, exec, execUnlock, h]
      exact ⟨_, rfl⟩
    case freeze | journalRead | journalMask | lock | credSet | rangeRekey | reserveOpen | wipePrepare | wipeCommit |
        sweepStatus =>
      simp only [commandOf, exec, execFreeze, execJournalRead, execJournalMask, execLock, execCredSet, execRangeRekey,
        execReserveOpen, execWipePrepare, execWipeCommit, execSweepStatus, h]
      exact ⟨_, rfl⟩
    all_goals cases hn

theorem checkProof_endPrepared (s : State) (b : RequestBlock) (owner : Bool) :
    checkProof (endPrepared s) b owner = checkProof s b owner := rfl

/-- A request that a proof check refuses is answered so. -/
theorem exec_refused {s : State} (p : StartInputs) {b : RequestBlock} {r : Request} {st : RespStatus}
    (h : starting s = some (b, r)) (hc : b.cred ≠ 255) (hk : checkProof s b (takesOwner r) = .refused st) :
    exec (commandOf p b r) s = .next (respond (endPrepared s) ⟨st, .none⟩) := by
  obtain ⟨v, hv, -⟩ := starting_service s _ h
  obtain ⟨go, hgo⟩ := exec_withProof p h hc (fun c m e => by rw [hk] at e; cases e)
  have hservice : (endPrepared s).control.service.isSome = true := by simp [endPrepared, hv]
  rw [hgo]
  unfold withProof
  rw [checkProof_endPrepared, hk]
  exact congrArg _ (refuse_eq _ false st hservice)

/-- A request whose proof does not match is accounted for. -/
theorem exec_mismatch {s : State} (p : StartInputs) {b : RequestBlock} {r : Request} {c : CredIx}
    (h : starting s = some (b, r)) (hc : b.cred ≠ 255) (hk : checkProof s b (takesOwner r) = .mismatch c) :
    exec (commandOf p b r) s = .next (mismatch (endPrepared s) b c) := by
  obtain ⟨go, hgo⟩ := exec_withProof p h hc (fun c m e => by rw [hk] at e; cases e)
  rw [hgo]
  unfold withProof
  rw [checkProof_endPrepared, hk]

/-! ## The outcome of a proof check (R66) -/

/-- The byte of a credential is not that of ABSENT. -/
theorem cred_ne_absent {b : RequestBlock} {c : CredIx} (h : b.cred.toNat = c.val) : b.cred ≠ 255 := by
  intro e
  have hlt := c.isLt
  rw [e] at h
  simp at h
  omega

theorem checkProof_absent {s : State} {b : RequestBlock} (owner : Bool) (h : b.cred = 255) :
    checkProof s b owner = .passed none false := by
  simp [checkProof, namedCred, h]

theorem checkProof_beyond {s : State} {b : RequestBlock} (owner : Bool) (h : b.cred ≠ 255) (hb : 8 ≤ b.cred.toNat) :
    checkProof s b owner = .refused .badRequest := by
  simp only [checkProof, namedCred, if_neg h, toIndex_of_le hb]

/-! The check of a credential by its state. -/

section
variable {s : State} {b : RequestBlock} {c : CredIx} (owner : Bool) (h : b.cred.toNat = c.val)
include h

theorem checkProof_empty (hs : s.creds[c].state = .empty) :
    checkProof s b owner = if owner && c = 0 then .passed (some c) false else .refused .denied := by
  simp only [checkProof, namedCred, if_neg (cred_ne_absent h), h, toIndex_val, hs]

theorem checkProof_disabled (hs : s.creds[c].state = .disabled) : checkProof s b owner = .refused .disabled := by
  simp only [checkProof, namedCred, if_neg (cred_ne_absent h), h, toIndex_val, hs]

theorem checkProof_exhausted (hs : s.creds[c].state = .exhausted) : checkProof s b owner = .refused .exhausted := by
  simp only [checkProof, namedCred, if_neg (cred_ne_absent h), h, toIndex_val, hs]

theorem checkProof_set {v : Secret} (hs : s.creds[c].state = .set) (hv : s.creds[c].verifier = some v) :
    checkProof s b owner = if Config.proofMatches b.proof v then .passed (some c) true else .mismatch c := by
  simp only [checkProof, namedCred, if_neg (cred_ne_absent h), h, toIndex_val, hs, hv]

end

/-- Settles O39: the outcome of the check by the credential byte and the credential's state, and what the command makes of a
check that does not pass. -/
theorem proofCheckDecidesTheRequest : Obligations.ProofCheckDecidesTheRequest := by
  intro s p b r h owner u go refused
  have hrefused : ∀ {st}, b.cred ≠ 255 → checkProof s b owner = .refused st → refused st := fun hc hk =>
    ⟨hk, exec_refused p h hc hk⟩
  refine ⟨fun hc => ?_, fun hc hb => hrefused hc (checkProof_beyond owner hc hb), fun c hc => ?_⟩
  · have hk := checkProof_absent (s := s) owner hc
    refine ⟨hk, fun f => ?_⟩
    show withProof (endPrepared s) b owner f = _
    unfold withProof
    rw [checkProof_endPrepared, hk]
    rfl
  · have hne := cred_ne_absent hc
    refine ⟨fun he ho h0 => ?_, fun he ho => ?_, fun he => ?_, fun he => ?_, fun v he hv hm => ?_, fun v he hv hm => ?_⟩
    · have hpass : checkProof s b owner = .passed (some c) false := by
        rw [checkProof_empty owner hc he]
        exact if_pos (by simp [ho, h0])
      refine ⟨hpass, fun f => ?_⟩
      show withProof (endPrepared s) b owner f = _
      unfold withProof
      rw [checkProof_endPrepared, hpass]
      rfl
    · refine hrefused hne ?_
      rw [checkProof_empty owner hc he]
      exact if_neg (by rcases ho with ho | ho <;> simp [ho])
    · exact hrefused hne (checkProof_disabled owner hc he)
    · exact hrefused hne (checkProof_exhausted owner hc he)
    · have hmis : checkProof s b owner = .mismatch c := by rw [checkProof_set owner hc he hv]; simp [hm]
      exact ⟨hmis, exec_mismatch p h hne hmis⟩
    · have hpass : checkProof s b owner = .passed (some c) true := by rw [checkProof_set owner hc he hv]; simp [hm]
      refine ⟨hpass, fun f => ?_⟩
      show withProof (endPrepared s) b owner f = _
      unfold withProof
      rw [checkProof_endPrepared, hpass]
      rfl

/-! ## The accounting of a mismatch (R67) -/

/-- A mismatch in the tables: a try, a strike, and their entries of the journal. -/
theorem countMismatch_eq {s : State} (b : RequestBlock) {c : CredIx} (hs : s.startUp = none) (hset : s.creds[c].state = .set) :
    let left := s.creds[c].tries - 1
    let denied : Event := { kind := .unlockDenied, cred := some c, detail := .code b.code }
    countMismatch s b c = { s with
      creds := s.creds.set c { s.creds[c] with tries := left, state := if left = 0 then .exhausted else .set }
      dev := { s.dev with strikes := if s.dev.strikes < 250 then s.dev.strikes + 1 else s.dev.strikes }
      journal := if left = 0 then
          journalRecord (journalRecord s.journal denied) { kind := .credExhausted, cred := some c }
        else journalRecord s.journal denied } := by
  intro left denied
  have htold : raise (modDev (modCred s c (fun x => { x with tries := x.tries - 1 }))
      (fun d => { d with strikes := nextStrikes d.strikes })) denied = { s with
        creds := s.creds.set c { s.creds[c] with tries := left }
        dev := { s.dev with strikes := nextStrikes s.dev.strikes }
        journal := journalRecord s.journal denied } := raise_journal _ _ hs
  unfold countMismatch
  dsimp only
  rw [htold]
  by_cases hl : left = 0
  · rw [if_pos (by simpa using hl), if_pos hl, if_pos hl]
    refine (raise_journal _ _ (by exact hs)).trans ?_
    simp [modCred, Vector.set_set, nextStrikes]
  · rw [if_neg (by simpa using hl), if_neg hl, if_neg hl, ← hset]
    rfl

/-- Settles O40: the tables, then the device record write, or the theft wipe at the strike limit. -/
theorem mismatchIsAccounted : Obligations.MismatchIsAccounted := by
  intro s v b c hs hv hset left strikes denied u limit
  have hu : setAfter (countMismatch s b c) (.respond (refusal .denied)) = u := by
    rw [countMismatch_eq b hs hset]
    simp only [setAfter, hv]
    rfl
  unfold mismatch
  rw [hu]
  refine ⟨fun hl => if_neg fun e => ?_, fun h0 hl => if_pos ?_⟩
  · simp only [Bool.and_eq_true, decide_eq_true_eq] at e
    exact hl.elim e.1 (fun hne => hne e.2)
  · simp only [Bool.and_eq_true, decide_eq_true_eq]
    exact ⟨h0, hl⟩

/-! ## OWNER authority (R65, R84) -/

/-- A proof check changes nothing of the frozen state. -/
theorem Serves.frozen {s u : State} {b : RequestBlock} {r : Request} {owner d : Bool} {c : Option CredIx}
    (h : Serves s b r owner c u d) : u.control.frozen = s.control.frozen := by
  obtain ⟨m, -, rfl, -⟩ := h.passes
  rw [passedState_control]
  rfl

/-- Another credential than OWNER is refused, after the accounting of its proof. -/
theorem Serves.ownerRequest_other {s u : State} {b : RequestBlock} {r : Request} {d : Bool} {c : Option CredIx}
    (h : Serves s b r true c u d) (hc : c ≠ some 0) (config : Bool) (go : State → Bool → State) :
    Machine.ownerRequest (endPrepared s) b config go = refusedWith u d .notPermitted := by
  unfold Machine.ownerRequest
  rw [h.withProof, if_pos hc, refuse_eq _ _ _ h.service]

/-- A configuration request of OWNER is refused while the part is frozen. -/
theorem Serves.ownerRequest_frozen {s u : State} {b : RequestBlock} {r : Request} {d : Bool}
    (h : Serves s b r true (some 0) u d) (hf : s.control.frozen = true) (go : State → Bool → State) :
    Machine.ownerRequest (endPrepared s) b true go = refusedWith u d .frozen := by
  unfold Machine.ownerRequest
  rw [h.withProof, if_neg (not_not.2 rfl), if_pos (by simp [h.frozen, hf]), refuse_eq _ _ _ h.service]

/-- Settles O41: the two refusals of a request that needs OWNER authority, in their order. -/
theorem ownerRequestsNeedOwner : Obligations.OwnerRequestsNeedOwner := by
  intro s p b r c u d config h hn
  obtain ⟨go, hgo⟩ := exec_ownerRequest p h.starts hn
  rw [hgo]
  refine ⟨fun hc => congrArg _ (h.ownerRequest_other hc config go), ?_⟩
  rintro rfl rfl hf
  exact congrArg _ (h.ownerRequest_frozen hf go)

end Sys2Proof.Machine
end

section
/-! FREEZE, QUERY, RESTART and a request block that names no request (chapter 11, R84, R174). -/

namespace Sys2Proof.Machine

/-! ## What a request goes on to -/

/-- A request that goes on at once goes on as it is to. -/
theorem setAfter_service {s : State} {v : Service} (a : After) (h : s.control.service = some v) :
    (setAfter s a).control.service = some { v with after := a } := by
  simp [setAfter, h]

/-- A request whose proof check passes goes on from the tables that the check leaves. -/
theorem withProof_passed {s : State} {b : RequestBlock} {owner m : Bool} {c : Option CredIx}
    (h : checkProof s b owner = .passed c m) (go : State → Option CredIx → Bool → State) :
    withProof s b owner go = go (passedState s c m) c (passedDirty s m) := by
  unfold withProof
  rw [h]
  cases m with
  | false => cases c <;> simp [passedState, passedDirty]
  | true =>
    cases c with
    | none => exact absurd (checkProof_none _ _ _ _ h) (by decide)
    | some c =>
      simp only [passedState, passedDirty, Bool.true_and]
      rfl

/-! ## FREEZE (R84) -/

theorem Serves.exec_freeze {s u : State} {b : RequestBlock} {d : Bool} {c : Option CredIx}
    (h : Serves s b .freeze false c u d) : exec .freeze s =
      .next (answerAfter { u with control := { u.control with frozen := true } } d ⟨.done, .none⟩) := by
  simp only [exec, execFreeze, h.starts]
  rw [h.withProof]
  exact congrArg _ (carried_eq _ d .none h.service)

/-! ## A request block that names no request (R174) -/

theorem atStart_eq {s : State} {v : Service} (hv : s.control.service = some v) (ha : v.after = .start)
    (ht : theftOutstanding s = false) : atStart s = some v.block := by
  simp [atStart, hv, ha, ht]

theorem exec_unknownRequest {s : State} {b : RequestBlock} (h : atStart s = some b) (hb : parse b = none) :
    exec .unknownRequest s = .next (respond (endPrepared s) (refusal .badRequest)) := by
  simp only [exec, execUnknownRequest, h, hb]

/-! ## QUERY (R176) -/

/-- The end of a QUERY: its report is taken, and then the prepared state ends. -/
theorem finish_query {s : State} {v : Service} (hv : s.control.service = some v) (ha : v.after = .query) :
    finishService s = respond (endPrepared s) ⟨.done, .query (queryReport s)⟩ := by
  unfold finishService
  rw [hv]
  dsimp only
  rw [ha]

theorem exec_query {s : State} {b : RequestBlock} {c : Option CredIx} {m : Bool} (h : starting s = some (b, .query))
    (hk : checkProof s b false = .passed c m) :
    exec .query s = .next (proceed (passedState s c m) (passedDirty s m) [] .query) := by
  simp only [exec, execQuery, h, hk, withProof_passed hk]

/-- A QUERY with no write to wait for reports at once. -/
theorem proceed_query {s : State} {v : Service} (hv : s.control.service = some v) :
    proceed s false [] .query = respond (endPrepared s) ⟨.done, .query (queryReport s)⟩ := by
  rw [proceed_now, finish_query (setAfter_service .query hv) rfl]
  exact respond_setAfter (endPrepared s) .query _

theorem slotCount_eq (s : State) (st : SlotState) :
    slotCount s st = mediaSlots.countP (fun i => s.slots[i].state = st) := List.countP_eq_length_filter.symm

theorem quarantinedTags_eq (s : State) :
    quarantinedTags s = s.media.tags.toList.countP (fun t => t = .quarantined) := List.countP_eq_length_filter.symm

/-- The span is reported of the ACTIVE entries 1 to 15. -/
theorem rangeReport_span (s : State) (r : RangeIx) : (rangeReport s r).span =
    if r ≠ 0 ∧ s.ranges[r].active = true then some (s.ranges[r].start, s.ranges[r].len) else none := by
  unfold rangeReport
  cases ha : s.ranges[r].active <;> by_cases h0 : r = 0 <;> simp [ha, h0, -Fin.getElem_fin]

/-- Settles O44: each of the three answers from its command, the report at a QUERY's end, and the report part by part. -/
theorem freezeAndUnknownRequestsAreAnswered : Obligations.FreezeAndUnknownRequestsAreAnswered := by
  refine ⟨fun s b c u d h => h.exec_freeze, fun s v hv ha ht hb => exec_unknownRequest (atStart_eq hv ha ht) hb,
    fun s b c m h hk => ?_, fun s v t h => ?_, fun s => ?_⟩
  · intro u
    obtain ⟨v, hv, -⟩ := starting_service s _ h
    have hu : u.control = s.control := passedState_control s c m
    refine ⟨fun hd => ?_, fun hd => ?_⟩
    · rw [exec_query h hk, hd, proceed_stored _ _ _ _ (.inl rfl)]
    · rw [exec_query h hk, hd, proceed_query (hu ▸ hv), ← hu]
      rfl
  · obtain ⟨hv, ha⟩ := h.inService
    refine h.finish (finish_query hv ha) ?_
    rw [respond_startUp]
    exact h.startUp
  · intro slots
    have hranges : allRanges.map (rangeReport s) = allRanges.map (fun r => { rangeReport s r with
        span := if r ≠ 0 ∧ s.ranges[r].active = true then some (s.ranges[r].start, s.ranges[r].len) else none }) :=
      List.map_congr_left fun r _ => by rw [← rangeReport_span]
    unfold queryReport
    rw [hranges, slotCount_eq, slotCount_eq, slotCount_eq, quarantinedTags_eq]
    rfl

/-! ## RESTART (R177, R183, R59) -/

/-- What RESTART leaves of a state, start-up being still to begin. -/
def restartBegins (s : State) (p : StartInputs) : State :=
  let t := abortAll s none
  { clearVolatile { t with front := emptyFront t.front.nextSeg t.front.sent, writes := t.writes.map (bareWrite t) }
      t.regions.persistentWritten with
    startUp := some ⟨.restart, p, .waitStore, none, []⟩ }

theorem restartPart_eq (s : State) (p : StartInputs) : restartPart s p = startUpGoesOn (restartBegins s p) := by
  unfold restartPart beginStartUp restartBegins
  with_reducible rfl

/-- Start-up waits for a write in flight. -/
theorem startUpGoesOn_waits {s : State} {u : StartUp} (hu : s.startUp = some u) (hw : s.writes ≠ []) :
    startUpGoesOn s = s := by
  have hwaits : phaseWaits s u = true := by simp [phaseWaits, hw]
  simp [startUpGoesOn, advance, hu, hwaits]

theorem restartBegins_begun (s : State) (p : StartInputs) : RestartBegun s p (restartBegins s p) := by
  obtain ⟨tags, -, habort⟩ := abortAll_none s
  have hwaits : s.writes ≠ [] → startUpGoesOn (restartBegins s p) = restartBegins s p := fun hw => by
    refine startUpGoesOn_waits (u := ⟨.restart, p, .waitStore, none, []⟩) rfl ?_
    unfold restartBegins
    rw [habort]
    simpa [clearVolatile] using hw
  unfold restartBegins at hwaits ⊢
  rw [habort] at hwaits ⊢
  exact {
    phase := rfl
    sent := rfl
    tags := fun x => by simp [clearVolatile, emptyFront]
    lists := ⟨rfl, rfl, rfl⟩
    store := ⟨rfl, rfl⟩
    slots := fun i => by simp [clearVolatile, emptySlot]
    media := ⟨fun i => by simp [clearVolatile, emptyMediaPort], rfl⟩
    control := rfl
    regions := ⟨rfl, rfl, rfl⟩
    sweep := rfl
    locked := fun r => by simp [clearVolatile, loadedEntry]
    ranges := rfl
    creds := rfl
    arb := rfl
    theft := rfl
    power := rfl
    journal := rfl
    rest := rfl
    waits := hwaits }

theorem restartBegins_store (s : State) (p : StartInputs) : (restartBegins s p).store = s.store :=
  (restartBegins_begun s p).store.1

/-- The end of a RESTART: it waits for a theft wipe's store writes, and else answers and starts up. -/
theorem finish_restart {s : State} {v : Service} {p : StartInputs} (hv : s.control.service = some v)
    (ha : v.after = .restart p) : finishService s =
      if theftOutstanding s then s else startUpGoesOn (restartBegins (respond s ⟨.done, .none⟩) p) := by
  unfold finishService
  rw [hv]
  dsimp only
  rw [ha]
  dsimp only
  rw [restartPart_eq]

theorem Serves.exec_restart {s u : State} {b : RequestBlock} {p : StartInputs} {d : Bool}
    (h : Serves s b .restart true (some 0) u d) : exec (.restart p) s = .next (proceed u d [] (.restart p)) := by
  simp only [exec, execRestart, h.starts]
  rw [h.ownerRequest rfl]

/-- A proof check issues no store write. -/
theorem Serves.writes {s u : State} {b : RequestBlock} {r : Request} {owner d : Bool} {c : Option CredIx}
    (h : Serves s b r owner c u d) : u.writes = s.writes ∧ u.store = s.store := by
  obtain ⟨m, -, rfl, -⟩ := h.passes
  cases c <;> cases m <;> exact ⟨rfl, rfl⟩

@[simp] theorem takeNext_store (s : State) : (takeNext s).store = s.store := by
  unfold takeNext
  repeat' split
  all_goals rfl

@[simp] theorem respond_store (s : State) (r : Response) : (respond s r).store = s.store := by
  unfold respond
  repeat' split
  all_goals simp

/-- Settles O45: at its end RESTART answers and leaves the state from which start-up goes on, or waits for a theft wipe. -/
theorem restartAnswersThenStartsUp : Obligations.RestartAnswersThenStartsUp := by
  refine ⟨fun s b p u d h => ⟨fun hd => ?_, fun hd => ?_⟩, fun s v p t h => ?_⟩
  · rw [h.exec_restart, hd, proceed_stored _ _ _ _ (.inl rfl)]
  · obtain ⟨hwrites, hstore⟩ := h.writes
    obtain ⟨v, hv⟩ := Option.isSome_iff_exists.1 h.service
    have hquiet : theftOutstanding (setAfter u (.restart p)) = false := by
      rw [← starting_quiet s _ h.starts]
      show theftOutstanding { s with writes := u.writes } = _
      rw [hwrites]
    refine ⟨restartBegins (respond u ⟨.done, .none⟩) p, ?_, ?_, restartBegins_begun _ p⟩
    · rw [h.exec_restart, hd, proceed_now, finish_restart (setAfter_service _ hv) rfl, hquiet, respond_setAfter,
        if_neg Bool.false_ne_true]
    · rw [restartBegins_store, respond_store, hstore]
  · obtain ⟨hv, ha⟩ := h.inService
    refine ⟨fun ht => ?_, fun ht => ⟨restartBegins (respond t ⟨.done, .none⟩) p, ?_, restartBegins_begun _ p⟩⟩
    · refine h.finish ?_ h.startUp
      rw [finish_restart hv ha, if_pos ht]
    · rw [h.goesOn, finish_restart hv ha, ht, if_neg Bool.false_ne_true]

end Sys2Proof.Machine
end

section
/-! The sweep engine reads nothing of the control unit and changes nothing of it: it does the same whatever the request in service
is to do next. -/

namespace Sys2Proof.Machine

/-- The state with another control unit. -/
def withControl (s : State) (k : Control) : State := { s with control := k }

variable (s : State) (k : Control)

theorem setAfter_eq (a : After) : setAfter s a =
    withControl s { s.control with service := s.control.service.map (fun v => { v with after := a }) } := rfl

/-! ## What is read -/

@[simp] theorem withControl_arb : (withControl s k).arb = s.arb := rfl
@[simp] theorem withControl_ranges : (withControl s k).ranges = s.ranges := rfl
@[simp] theorem withControl_sweep : (withControl s k).sweep = s.sweep := rfl
@[simp] theorem withControl_power : (withControl s k).power = s.power := rfl
@[simp] theorem withControl_startUp : (withControl s k).startUp = s.startUp := rfl
@[simp] theorem jobAt_withControl (j : JobNo) : jobAt (withControl s k) j = jobAt s j := rfl
@[simp] theorem hasChunk_withControl (j : JobNo) : hasChunk (withControl s k) j = hasChunk s j := rfl
@[simp] theorem runningJob_withControl : runningJob (withControl s k) = runningJob s := rfl
@[simp] theorem mostUrgent_withControl : mostUrgent (withControl s k) = mostUrgent s := rfl
@[simp] theorem freeEntry_withControl : freeEntry (withControl s k) = freeEntry s := rfl
@[simp] theorem freeLane_withControl : freeLane (withControl s k) = freeLane s := rfl
@[simp] theorem waitsOnDrain_withControl : waitsOnDrain (withControl s k) = waitsOnDrain s := rfl
@[simp] theorem purgeNames_withControl : purgeNames (withControl s k) = purgeNames s := rfl
@[simp] theorem lacksRekey_withControl : lacksRekey (withControl s k) = lacksRekey s := rfl
@[simp] theorem lacksPurge_withControl : lacksPurge (withControl s k) = lacksPurge s := rfl
@[simp] theorem rekeyJob_withControl : rekeyJob (withControl s k) = rekeyJob s := rfl
@[simp] theorem rekeyOf_withControl : rekeyOf (withControl s k) = rekeyOf s := rfl
@[simp] theorem rekeyLocked_withControl : rekeyLocked (withControl s k) = rekeyLocked s := rfl
@[simp] theorem powerHolds_withControl : powerHolds (withControl s k) = powerHolds s := rfl
@[simp] theorem pauseHolds_withControl : pauseHolds (withControl s k) = pauseHolds s := rfl
@[simp] theorem wipeSpares_withControl : wipeSpares (withControl s k) = wipeSpares s := rfl
@[simp] theorem clippedEnd_withControl : clippedEnd (withControl s k) = clippedEnd s := rfl
@[simp] theorem runsOf_withControl : runsOf (withControl s k) = runsOf s := rfl
@[simp] theorem purgeEnds_withControl : purgeEnds (withControl s k) = purgeEnds s := rfl
@[simp] theorem pastRange_withControl : pastRange (withControl s k) = pastRange s := rfl
@[simp] theorem passesRange_withControl : passesRange (withControl s k) = passesRange s := rfl
@[simp] theorem runningWaits_withControl : runningWaits (withControl s k) = runningWaits s := rfl
@[simp] theorem freeToRun_withControl : freeToRun (withControl s k) = freeToRun s := rfl

/-! ## The updates -/

theorem withControl_ite (c : Prop) [Decidable c] (t : State) :
    withControl (if c then s else t) k = if c then withControl s k else withControl t k := apply_ite (withControl · k) c s t

@[simp] theorem modRange_withControl (r : RangeIx) (f : RangeEntry → RangeEntry) :
    modRange (withControl s k) r f = withControl (modRange s r f) k := rfl

@[simp] theorem setJob_withControl (j : JobNo) (e : JobEntry) : setJob (withControl s k) j e = withControl (setJob s j e) k := rfl

@[simp] theorem setLane_withControl (l : LaneIx) (x : Lane) : setLane (withControl s k) l x = withControl (setLane s l x) k := rfl

@[simp] theorem setChunk_withControl (c : Option Chunk) : setChunk (withControl s k) c = withControl (setChunk s c) k := rfl

@[simp] theorem offStack_withControl (j : JobNo) : offStack (withControl s k) j = withControl (offStack s j) k := rfl

@[simp] theorem queueJob_withControl (j : JobNo) (b : Job) :
    queueJob (withControl s k) j b = withControl (queueJob s j b) k := rfl

@[simp] theorem modJob_withControl (j : JobNo) (f : Job → Job) :
    modJob (withControl s k) j f = withControl (modJob s j f) k := by
  unfold modJob
  cases h : jobAt s j <;> simp [h]

@[simp] theorem raise_withControl (e : Event) : raise (withControl s k) e = withControl (raise s e) k := by
  unfold raise
  simp only [withControl_startUp]
  split <;> rfl

@[simp] theorem issue_withControl (l : List (StoreOp × Done)) : issue (withControl s k) l = withControl (issue s l) k := by
  cases l <;> rfl

/-- A fold of updates that leave the control unit be. -/
theorem foldl_withControl {α : Type} {f : State → α → State} (hf : ∀ t x, f (withControl t k) x = withControl (f t x) k)
    (l : List α) : l.foldl f (withControl s k) = withControl (l.foldl f s) k := by
  induction l generalizing s with
  | nil => rfl
  | cons x l ih => rw [List.foldl_cons, List.foldl_cons, hf, ih]

@[simp] theorem raiseAll_withControl (l : List Event) : raiseAll (withControl s k) l = withControl (raiseAll s l) k :=
  foldl_withControl s k (fun t e => raise_withControl t k e) l

@[simp] theorem issueEach_withControl (l : List StoreOp) : issueEach (withControl s k) l = withControl (issueEach s l) k :=
  foldl_withControl s k (fun t op => issue_withControl t k [(op, .nothing)]) l

@[simp] theorem issueAll_withControl (l : List StoreOp) (d : Done) :
    issueAll (withControl s k) l d = withControl (issueAll s l d) k := by
  unfold issueAll
  cases l.reverse <;> simp

/-! ## Jobs and lanes -/

@[simp] theorem undedicate_withControl : undedicate (withControl s k) = withControl (undedicate s) k := by
  simp only [undedicate_eq]
  rfl

@[simp] theorem dedicate_withControl : dedicate (withControl s k) = withControl (dedicate s) k := by
  unfold dedicate
  simp only [freeLane_withControl]
  split <;> rfl

@[simp] theorem endTurn_withControl (j : JobNo) (f : Job → Job) :
    endTurn (withControl s k) j f = withControl (endTurn s j f) k := by
  unfold endTurn
  cases h : jobAt s j <;> simp [h, withControl_ite]

@[simp] theorem becomeRunning_withControl (j : JobNo) :
    becomeRunning (withControl s k) j = withControl (becomeRunning s j) k := by
  unfold becomeRunning
  cases h : jobAt s j with
  | none => simp [h]
  | some b =>
    simp only [jobAt_withControl, h, withControl_ite, ← dedicate_withControl]
    rfl

@[simp] theorem preempt_withControl (j : JobNo) : preempt (withControl s k) j = withControl (preempt s j) k := by
  unfold preempt
  cases h : jobAt s j <;> simp [h, withControl_ite]

@[simp] theorem pauseJob_withControl (j : JobNo) (c : PauseCause) :
    pauseJob (withControl s k) j c = withControl (pauseJob s j c) k := endTurn_withControl s k j _

@[simp] theorem returnJob_withControl (j : JobNo) : returnJob (withControl s k) j = withControl (returnJob s j) k := by
  unfold returnJob
  cases h : jobAt s j <;> simp [h, withControl_ite]

@[simp] theorem returnIf_withControl (c : PauseCause) (j : JobNo) :
    returnIf c (withControl s k) j = withControl (returnIf c s j) k := by
  unfold returnIf
  cases h : jobAt s j <;> simp [h, withControl_ite]

@[simp] theorem returnUnlocked_withControl (r : RangeIx) :
    returnUnlocked (withControl s k) r = withControl (returnUnlocked s r) k := by
  unfold returnUnlocked
  cases h : rekeyOf s r <;> simp [h]

/-! ## The end of a job -/

/-- A release in the state with another control unit. -/
def releaseWith (k : Control) (x : State × Release) : State × Release := (withControl x.1 k, x.2)

theorem releaseWith_ite (c : Prop) [Decidable c] (x y : State × Release) :
    releaseWith k (if c then x else y) = if c then releaseWith k x else releaseWith k y := apply_ite (releaseWith k) c x y

theorem releaseRange_withControl (x : State × Release) (r : RangeIx) :
    releaseRange (releaseWith k x) r = releaseWith k (releaseRange x r) := by
  unfold releaseRange
  simp only [releaseWith_ite]
  rfl

theorem foldl_releaseRange_withControl (l : List RangeIx) (x : State × Release) :
    l.foldl releaseRange (releaseWith k x) = releaseWith k (l.foldl releaseRange x) := by
  induction l generalizing x with
  | nil => rfl
  | cons r l ih => rw [List.foldl_cons, List.foldl_cons, releaseRange_withControl, ih]

theorem finishJob_withControl (j : JobNo) (st : JobState) (except : List RangeIx) :
    finishJob (withControl s k) j st except = releaseWith k (finishJob s j st except) := by
  unfold finishJob
  cases h : jobAt s j with
  | none => simp [h, releaseWith]
  | some b =>
    simp only [jobAt_withControl, h, endTurn_withControl, releaseWith_ite, ← foldl_releaseRange_withControl]
    rfl

theorem cancelByWipe_withControl (j : JobNo) (set : List RangeIx) (r : RangeIx) :
    cancelByWipe (withControl s k) j set r = releaseWith k (cancelByWipe s j set r) := by
  unfold cancelByWipe
  simp [finishJob_withControl, releaseWith]

@[simp] theorem reportAfter_withControl (ops : List StoreOp) (e : Event) :
    reportAfter (withControl s k) ops e = withControl (reportAfter s ops e) k := by
  unfold reportAfter
  simp [withControl_ite]

@[simp] theorem settleTurn_withControl (j : JobNo) (e : ChunkEnd) :
    settleTurn (withControl s k) j e = withControl (settleTurn s j e) k := by
  unfold settleTurn
  cases hj : jobAt s j with
  | none => simp [hj]
  | some b =>
    simp only [jobAt_withControl, hj]
    cases hc : cursorRange b with
    | none => cases b.wipeSet <;> simp [finishJob_withControl, releaseWith]
    | some r =>
      cases b.wipeSet with
      | cons w ws => simp [cancelByWipe_withControl, releaseWith]
      | nil =>
        cases e with
        | failed => simp [finishJob_withControl, releaseWith, withControl_ite]
        | stalled c => simp [finishJob_withControl, releaseWith, withControl_ite]
        | went => cases hp : pauseHolds s b <;> simp [hp, finishJob_withControl, releaseWith, withControl_ite]

@[simp] theorem settleRunning_withControl : settleRunning (withControl s k) = withControl (settleRunning s) k := by
  unfold settleRunning
  cases h : runningJob s <;> simp [h]

/-! ## Unscheduled ranges and the choice -/

@[simp] theorem createRekey_withControl (r : RangeIx) : createRekey (withControl s k) r = withControl (createRekey s r) k := by
  unfold createRekey
  cases hj : freeEntry s <;> cases hm : s.ranges[r].mig <;> simp [hj, hm, withControl_ite, -Fin.getElem_fin]

@[simp] theorem createPurge_withControl : createPurge (withControl s k) = withControl (createPurge s) k := by
  unfold createPurge
  simp only [lacksPurge_withControl, freeEntry_withControl]
  split <;> rfl

@[simp] theorem createUnscheduled_withControl :
    createUnscheduled (withControl s k) = withControl (createUnscheduled s) k := by
  unfold createUnscheduled
  dsimp only
  rw [foldl_withControl s k (fun t r => createRekey_withControl t k r),
    foldl_withControl _ k (fun t _ => createPurge_withControl t k)]

@[simp] theorem chooseIdle_withControl : chooseIdle (withControl s k) = withControl (chooseIdle s) k := by
  unfold chooseIdle
  cases hp : s.sweep.stack.head? with
  | none => cases hq : mostUrgent s <;> simp [hp, hq]
  | some p =>
    cases hq : mostUrgent s with
    | none => simp [hp, hq]
    | some q => cases hj : jobAt s p <;> simp [hp, hq, hj, withControl_ite]

@[simp] theorem choose_withControl : choose (withControl s k) = withControl (choose s) k := by
  unfold choose
  cases hr : runningJob s with
  | none => simp [hr]
  | some j => cases hj : jobAt s j <;> cases hq : mostUrgent s <;> simp [hr, hj, hq, withControl_ite]

/-! ## The chosen job goes on -/

@[simp] theorem askLanes_withControl (p : LanePolicy) : askLanes (withControl s k) p = withControl (askLanes s p) k := by
  unfold askLanes
  cases p with
  | yielding => rfl
  | holding =>
    cases h : s.arb.dedicated with
    | none => simp [h]
    | some l =>
      simp only [withControl_arb, h, withControl_ite]
      rfl

@[simp] theorem storePurge_withControl (j : JobNo) (b : Job) (c : Chunk) :
    storePurge (withControl s k) j b c = withControl (storePurge s j b c) k := rfl

@[simp] theorem takePurge_withControl (j : JobNo) (b : Job) (r : RangeIx) :
    takePurge (withControl s k) j b r = withControl (takePurge s j b r) k := by
  simp [takePurge, withControl_ite]

@[simp] theorem endRange_withControl (r : RangeIx) (op : StoreOp) (d : Done) :
    endRange (withControl s k) r op d = withControl (endRange s r op d) k := by
  unfold endRange
  rw [withControl_ite]
  rfl

@[simp] theorem goOn_withControl : goOn (withControl s k) = withControl (goOn s) k := by
  unfold goOn
  cases hr : runningJob s with
  | none => simp [hr]
  | some j =>
    cases hj : jobAt s j with
    | none => simp [hr, hj]
    | some b => cases hk : b.kind <;> cases hc : cursorRange b <;> simp [hr, hj, hk, hc, withControl_ite]

theorem onward_withControl {f : State → State} (hf : ∀ t, f (withControl t k) = withControl (f t) k) :
    onward f (withControl s k) = withControl (onward f s) k := by
  unfold onward
  cases hp : passesRange s <;> simp [hp, hf, withControl_ite]

theorem engineTurn_withControl (n : Nat) : engineTurn n (withControl s k) = withControl (engineTurn n s) k := by
  induction n generalizing s with
  | zero => rfl
  | succ n ih =>
    unfold engineTurn
    rw [settleRunning_withControl, createUnscheduled_withControl, choose_withControl, onward_withControl _ _ ih]

@[simp] theorem engine_withControl : engine (withControl s k) = withControl (engine s) k := by
  unfold engine
  simp [engineTurn_withControl, withControl_ite]

end Sys2Proof.Machine
end

section
/-! The keys of a set of ranges: the legal sets, how many keys one needs, and their load into the EMPTY media slots (R52, R53,
R70). -/

namespace Sys2Proof.Machine

/-! ## Legal sets (R70) -/

theorem toIndices_eq_some {n : Nat} {l : List Nat} {set : List (Fin n)} :
    toIndices n l = some set ↔ set.map (·.val) = l := by
  induction l generalizing set with
  | nil => cases set <;> simp [toIndices]
  | cons k l ih =>
    by_cases hk : k < n
    · have hi : toIndex n k = some ⟨k, hk⟩ := dif_pos hk
      cases hl : toIndices n l with
      | none =>
        refine ⟨fun h => by simp [toIndices, hi, hl] at h, fun h => ?_⟩
        cases set with
        | nil => cases h
        | cons i set =>
          rw [List.map_cons, List.cons.injEq] at h
          rw [ih.2 h.2] at hl
          cases hl
      | some is =>
        simp only [toIndices, hi, hl, Option.some.injEq]
        have his := ih.1 hl
        refine ⟨fun h => by rw [← h, List.map_cons, his], fun h => ?_⟩
        rw [← his] at h
        exact (List.map_injective_iff.2 Fin.val_injective
          (h.trans (List.map_cons (f := fun i : Fin n => i.val) (a := ⟨k, hk⟩) (l := is)).symm)).symm
    · refine ⟨fun h => by simp [toIndices, toIndex_of_le (Nat.not_lt.1 hk)] at h, fun h => ?_⟩
      cases set with
      | nil => cases h
      | cons i set => exact absurd ((List.cons.inj h).1 ▸ i.isLt) hk

theorem toRangeSet_eq_some {s : State} {l : List Nat} {set : List RangeIx} :
    toRangeSet s l = some set ↔ set.map (·.val) = l ∧ 1 ≤ l.length ∧ l.length ≤ 16 ∧ l.Nodup ∧
      ∀ r ∈ set, s.ranges[r].active = true := by
  have hlegal : ∀ t : List RangeIx,
      (1 ≤ t.length && t.length ≤ 16 && t.Nodup && t.all (fun r => s.ranges[r].active)) = true ↔
      1 ≤ (t.map (·.val)).length ∧ (t.map (·.val)).length ≤ 16 ∧ (t.map (·.val)).Nodup ∧
        ∀ r ∈ t, s.ranges[r].active = true := fun t => by
    simp [List.nodup_map_iff Fin.val_injective, and_assoc, -Fin.getElem_fin]
  unfold toRangeSet
  cases ht : toIndices 16 l with
  | none =>
    refine ⟨nofun, fun h => ?_⟩
    rw [toIndices_eq_some.2 h.1] at ht
    cases ht
  | some t =>
    have htl := toIndices_eq_some.1 ht
    subst htl
    dsimp only
    constructor
    · intro h
      split at h
      · cases h
        exact ⟨rfl, (hlegal _).1 ‹_›⟩
      · cases h
    · rintro ⟨heq, h⟩
      cases List.map_injective_iff.2 Fin.val_injective heq
      exact if_pos ((hlegal _).2 h)

theorem toRangeSet_nodup {s : State} {l : List Nat} {set : List RangeIx} (h : toRangeSet s l = some set) : set.Nodup := by
  obtain ⟨rfl, -, -, hn, -⟩ := toRangeSet_eq_some.1 h
  exact hn.of_map _

theorem toRangeSet_active {s : State} {l : List Nat} {set : List RangeIx} (h : toRangeSet s l = some set) :
    ∀ r ∈ set, s.ranges[r].active = true := by
  obtain ⟨-, -, -, -, hactive⟩ := toRangeSet_eq_some.1 h
  exact hactive

/-! ## The keys that a set needs (R52) -/

theorem wantedKeys_eq (s : State) (set : List RangeIx) :
    wantedKeys s set = (allRanges.filter set.contains).flatMap (fun r => (neededRoles s r).map (Prod.mk r)) := by
  unfold wantedKeys neededRoles
  congr 1
  funext r
  split <;> rfl

theorem mem_wantedKeys {s : State} {set : List RangeIx} {x : RangeIx × Role} :
    x ∈ wantedKeys s set ↔ x.1 ∈ set ∧ x.2 ∈ neededRoles s x.1 := by
  obtain ⟨r, role⟩ := x
  simp [wantedKeys_eq, mem_allRanges]

theorem neededRoles_nodup (s : State) (r : RangeIx) : (neededRoles s r).Nodup := by
  unfold neededRoles
  split <;> decide

theorem wantedKeys_nodup (s : State) (set : List RangeIx) : (wantedKeys s set).Nodup := by
  rw [wantedKeys_eq]
  refine List.nodup_flatMap.2 ⟨fun r _ => (neededRoles_nodup s r).map (Prod.mk_right_injective r), ?_⟩
  have hn : (allRanges.filter set.contains).Nodup := List.Nodup.filter _ (by decide)
  refine hn.imp fun {a b} hab => ?_
  intro x ha hb
  obtain ⟨p, -, rfl⟩ := List.mem_map.1 ha
  obtain ⟨q, -, hq⟩ := List.mem_map.1 hb
  exact hab (congrArg Prod.fst hq).symm

/-- A set without repetition is the ranges that it contains, in another order. -/
theorem filter_contains_perm {set : List RangeIx} (h : set.Nodup) : (allRanges.filter set.contains).Perm set :=
  (List.perm_ext_iff_of_nodup (List.Nodup.filter _ (by decide)) h).2 fun r => by simp [mem_allRanges]

theorem keyNeed_eq {s : State} {set : List RangeIx} (h : set.Nodup) : keyNeed s set = (wantedKeys s set).length := by
  rw [wantedKeys_eq, List.length_flatMap]
  unfold keyNeed
  simp only [List.length_map]
  exact ((filter_contains_perm h).map _).sum_eq.symm

/-! ## Loading keys (R52, R53) -/

theorem emptyMediaSlots_nodup (s : State) : (emptyMediaSlots s).Nodup := List.Nodup.filter _ (by decide)

/-- The lowest EMPTY media slot that is filled leaves the others. -/
theorem emptyMediaSlots_fill {s : State} {i : SlotIx} {rest : List SlotIx} {x : Slot} (h : emptyMediaSlots s = i :: rest)
    (hx : x.state ≠ .empty) : emptyMediaSlots (modSlot s i (fun _ => x)) = rest := by
  have hfill : emptyMediaSlots (modSlot s i (fun _ => x)) = (emptyMediaSlots s).filter (fun k => k ≠ i) := by
    unfold emptyMediaSlots
    rw [List.filter_filter]
    refine List.filter_congr fun k _ => ?_
    rw [modSlot_slots]
    by_cases hk : k = i
    · simp [hk, hx]
    · simp [hk, -Fin.getElem_fin]
  have hn := emptyMediaSlots_nodup s
  rw [h, List.nodup_cons] at hn
  rw [hfill, h, List.filter_cons, if_neg (by simp)]
  exact List.filter_eq_self.2 fun k hk => by simpa using fun e : k = i => hn.1 (e ▸ hk)

/-- Load a key of a range and hold it. -/
def holdRole (s : State) (x : RangeIx × Role) : State := holdKey s x.1 x.2

theorem holdRole_full {s : State} (x : RangeIx × Role) (h : emptyMediaSlots s = []) : holdRole s x = s := by
  unfold holdRole holdKey placeKey
  rw [h]

theorem holdRole_fill {s : State} {i : SlotIx} {rest : List SlotIx} (x : RangeIx × Role) (h : emptyMediaSlots s = i :: rest) :
    holdRole s x = modSlot s i (fun _ => keyedSlot s x true) := by
  obtain ⟨r, role⟩ := x
  unfold holdRole holdKey placeKey
  rw [h]
  cases role <;> rfl

theorem holdRole_ranges (s : State) (x : RangeIx × Role) : (holdRole s x).ranges = s.ranges := placeKey_ranges ..

theorem foldl_holdRole_ranges (l : List (RangeIx × Role)) (s : State) : (l.foldl holdRole s).ranges = s.ranges := by
  induction l generalizing s with
  | nil => rfl
  | cons x l ih => rw [List.foldl_cons, ih, holdRole_ranges]

theorem holdKeys_eq (s : State) (set : List RangeIx) : holdKeys s set = (wantedKeys s set).foldl holdRole s := by
  rw [wantedKeys_eq]
  unfold holdKeys
  have hfold : ∀ (l : List RangeIx) (t : State), t.ranges = s.ranges →
      l.foldl (fun t r => (neededRoles t r).foldl (fun t role => holdKey t r role) t) t =
        (l.flatMap (fun r => (neededRoles s r).map (Prod.mk r))).foldl holdRole t := fun l => by
    induction l with
    | nil => exact fun t _ => rfl
    | cons r l ih =>
      intro t ht
      have hroles : neededRoles t r = neededRoles s r := by
        unfold neededRoles
        rw [ht]
      have hrange : (neededRoles s r).foldl (fun t role => holdKey t r role) t =
          ((neededRoles s r).map (Prod.mk r)).foldl holdRole t := by
        rw [List.foldl_map]
        rfl
      rw [List.foldl_cons, List.flatMap_cons, List.foldl_append, hroles, hrange]
      exact ih _ (by rw [foldl_holdRole_ranges, ht])
  exact hfold _ s rfl

/-- `t` is `s` with some keys held, each in the next EMPTY media slot, as far as those go. -/
structure KeysPlaced (s t : State) (keys : List (RangeIx × Role)) : Prop where
  frame  : t = { s with slots := t.slots }
  loaded : ∀ (n : Nat) (x : RangeIx × Role) (i : SlotIx), keys[n]? = some x → (emptyMediaSlots s)[n]? = some i →
    t.slots[i] = keyedSlot s x true
  others : ∀ i : SlotIx, i ∉ (emptyMediaSlots s).take keys.length → t.slots[i] = s.slots[i]

theorem keysPlaced_foldl (keys : List (RangeIx × Role)) (s : State) : KeysPlaced s (keys.foldl holdRole s) keys := by
  induction keys generalizing s with
  | nil => exact ⟨rfl, fun n x i h => by simp at h, fun _ _ => rfl⟩
  | cons x keys ih =>
    rw [List.foldl_cons]
    cases he : emptyMediaSlots s with
    | nil =>
      obtain ⟨hframe, -, hothers⟩ := ih s
      rw [holdRole_full x he]
      exact ⟨hframe, fun n y i _ h => by simp [he] at h, fun i _ => hothers i (by simp [he])⟩
    | cons i rest =>
      obtain ⟨hframe, hloaded, hothers⟩ := ih (holdRole s x)
      have hn := emptyMediaSlots_nodup s
      rw [he, List.nodup_cons] at hn
      rw [holdRole_fill x he] at hframe hloaded hothers ⊢
      have hrest : emptyMediaSlots (modSlot s i (fun _ => keyedSlot s x true)) = rest :=
        emptyMediaSlots_fill he (by simp [keyedSlot])
      rw [hrest] at hloaded hothers
      have hfirst : i ∉ rest.take keys.length := fun h => hn.1 (List.mem_of_mem_take h)
      refine ⟨hframe, fun n y q hy hq => ?_, fun q hq => ?_⟩
      · cases n with
        | zero =>
          simp only [List.getElem?_cons_zero, Option.some.injEq] at hy
          simp only [he, List.getElem?_cons_zero, Option.some.injEq] at hq
          subst hy hq
          rw [hothers i hfirst, modSlot_slots, if_pos rfl]
        | succ n =>
          rw [he] at hq
          exact hloaded n y q (by simpa using hy) (by simpa using hq)
      · simp only [he, List.length_cons, List.take_succ_cons, List.mem_cons, not_or] at hq
        rw [hothers q hq.2, modSlot_slots, if_neg (fun e => hq.1 (Fin.ext (by simp [e])))]

theorem holdKeys_held (s : State) (set : List RangeIx) : KeysHeld s (holdKeys s set) set := by
  rw [holdKeys_eq]
  obtain ⟨hframe, hloaded, hothers⟩ := keysPlaced_foldl (wantedKeys s set) s
  exact ⟨hframe, hloaded, hothers⟩

end Sys2Proof.Machine
end

section
/-! The take-up of held slots (R54): one slot, and every key that a set of ranges has had loaded. -/

namespace Sys2Proof.Machine

/-! ## One slot -/

/-- What a held slot is when it has been taken up. -/
def takenSlot (x : Slot) : Slot := { x with held := false, count := x.count + 1 }

/-- The slot that a range names in a role. -/
def namedSlot (x : RangeEntry) : Role → Option SlotIx
  | .current => x.slot
  | .next => nextSlotOf x

theorem canTake_iff_entry {s : State} {r : RangeIx} {role : Role} : canTake s r role = true ↔
    s.ranges[r].active = true ∧ s.ranges[r].cond ≠ .draining ∧ (role = .next → s.ranges[r].mig.isSome = true) ∧
      namedSlot s.ranges[r] role = none := by
  cases role <;> simp [canTake, namedSlot, and_assoc, -Fin.getElem_fin]

theorem takeUpSlot_lost {want : RangeIx → Bool} {s : State} {i : SlotIx} (h : s.slots[i].held = true)
    (hn : s.slots[i].owner = none ∨ s.slots[i].role = none) : takeUpSlot want s i = modSlot s i (fun _ => emptySlot) := by
  unfold takeUpSlot
  dsimp only
  rw [if_pos h]
  rcases hn with hn | hn
  · rw [hn]
  · rw [hn]
    cases s.slots[i].owner <;> rfl

theorem takeUpSlot_owned {want : RangeIx → Bool} {s : State} {i : SlotIx} {r : RangeIx} {g : Gen} {role : Role}
    (h : s.slots[i].held = true) (ho : s.slots[i].owner = some (r, g)) (hr : s.slots[i].role = some role) :
    takeUpSlot want s i = if canTake s r role && want r then nameSlot (modSlot s i takenSlot) r role i
      else modSlot s i (fun _ => emptySlot) := by
  unfold takeUpSlot
  dsimp only
  rw [if_pos h, ho, hr]
  rfl

theorem takeUpSlot_taken {want : RangeIx → Bool} {s : State} {i : SlotIx} {r : RangeIx} {g : Gen} {role : Role}
    (h : s.slots[i].held = true) (ho : s.slots[i].owner = some (r, g)) (hr : s.slots[i].role = some role)
    (hc : canTake s r role = true) (hw : want r = true) :
    takeUpSlot want s i = nameSlot (modSlot s i takenSlot) r role i := by
  rw [takeUpSlot_owned h ho hr, if_pos (by simp [hc, hw])]

theorem takeUpSlot_zeroed {want : RangeIx → Bool} {s : State} {i : SlotIx} {r : RangeIx} {g : Gen} {role : Role}
    (h : s.slots[i].held = true) (ho : s.slots[i].owner = some (r, g)) (hr : s.slots[i].role = some role)
    (hn : ¬ (canTake s r role = true ∧ want r = true)) : takeUpSlot want s i = modSlot s i (fun _ => emptySlot) := by
  rw [takeUpSlot_owned h ho hr, if_neg (by simpa using hn)]

/-! ## Naming a slot -/

/-- An entry changed in the slots that it names alone. -/
def Renamed (x y : RangeEntry) : Prop :=
  y = { x with slot := y.slot, mig := x.mig.map (fun m => { m with nextSlot := nextSlotOf y }) }

/-- A migration record with the next-key slot that its entry names is that record. -/
theorem map_nextSlotOf (x : RangeEntry) : x.mig.map (fun m => { m with nextSlot := nextSlotOf x }) = x.mig := by
  cases h : x.mig with
  | none => rfl
  | some m => simp [nextSlotOf, h]

theorem Renamed.refl (x : RangeEntry) : Renamed x x := by
  unfold Renamed
  rw [map_nextSlotOf]

theorem Renamed.trans {x y z : RangeEntry} (h : Renamed x y) (k : Renamed y z) : Renamed x z := by
  unfold Renamed at *
  generalize z.slot = slot, nextSlotOf z = next at k ⊢
  rw [k, h]
  simp [Function.comp_def]

/-- An entry that names the slots it did is the same. -/
theorem Renamed.eq {x y : RangeEntry} (h : Renamed x y) (hn : ∀ role, namedSlot y role = namedSlot x role) : y = x := by
  have hslot : y.slot = x.slot := hn .current
  have hnext : nextSlotOf y = nextSlotOf x := hn .next
  rw [h, hnext, map_nextSlotOf, hslot]

/-- The entry that comes to name a slot in a role. -/
def nameIn (i : SlotIx) (role : Role) (x : RangeEntry) : RangeEntry :=
  match role with
  | .current => { x with slot := some i }
  | .next => { x with mig := x.mig.map (fun m => { m with nextSlot := some i }) }

theorem nameSlot_eq (s : State) (r : RangeIx) (role : Role) (i : SlotIx) :
    nameSlot s r role i = modRange s r (nameIn i role) := by
  cases role <;> rfl

theorem renamed_nameIn (i : SlotIx) (role : Role) (x : RangeEntry) : Renamed x (nameIn i role x) := by
  cases role with
  | current =>
    have h := map_nextSlotOf x
    simp only [Renamed, nameIn, nextSlotOf] at h ⊢
    rw [h]
  | next => cases h : x.mig <;> simp [Renamed, nameIn, nextSlotOf, h]

theorem namedSlot_nameIn_same {i : SlotIx} {role : Role} {x : RangeEntry} (h : role = .next → x.mig.isSome = true) :
    namedSlot (nameIn i role x) role = some i := by
  cases role with
  | current => rfl
  | next =>
    obtain ⟨m, hm⟩ := Option.isSome_iff_exists.1 (h rfl)
    simp [namedSlot, nameIn, nextSlotOf, hm]

theorem namedSlot_nameIn_other (i : SlotIx) {role role' : Role} (x : RangeEntry) (h : role' ≠ role) :
    namedSlot (nameIn i role x) role' = namedSlot x role' := by
  cases role <;> cases role'
  case current.next => rfl
  case next.current => rfl
  all_goals exact absurd rfl h

/-! ## A list of held slots -/

/-- A slot that is held for a range that can take it up. -/
structure Takable (want : RangeIx → Bool) (s : State) (z : SlotIx × RangeIx × Role) : Prop where
  held  : s.slots[z.1].held = true
  owner : ∃ g, s.slots[z.1].owner = some (z.2.1, g)
  role  : s.slots[z.1].role = some z.2.2
  takes : canTake s z.2.1 z.2.2 = true
  want  : want z.2.1 = true

/-- `t` is `s` with a list of slots taken up. -/
structure SlotsTaken (s t : State) (l : List (SlotIx × RangeIx × Role)) : Prop where
  frame   : t = { s with ranges := t.ranges, slots := t.slots }
  slots   : ∀ z ∈ l, t.slots[z.1] = takenSlot s.slots[z.1]
  others  : ∀ i : SlotIx, i ∉ l.map Prod.fst → t.slots[i] = s.slots[i]
  named   : ∀ z ∈ l, namedSlot t.ranges[z.2.1] z.2.2 = some z.1
  unnamed : ∀ (r : RangeIx) (role : Role), (r, role) ∉ l.map Prod.snd →
    namedSlot t.ranges[r] role = namedSlot s.ranges[r] role
  entries : ∀ r : RangeIx, Renamed s.ranges[r] t.ranges[r]

theorem SlotsTaken.nil (s : State) : SlotsTaken s s [] :=
  ⟨rfl, nofun, fun _ _ => rfl, nofun, fun _ _ _ => rfl, fun _ => .refl _⟩

theorem SlotsTaken.one {want : RangeIx → Bool} {s : State} {z : SlotIx × RangeIx × Role} (h : Takable want s z) :
    SlotsTaken s (takeUpSlot want s z.1) [z] := by
  obtain ⟨i, r, role⟩ := z
  obtain ⟨hheld, ⟨g, howner⟩, hrole, htakes, hwant⟩ := h
  obtain ⟨-, -, hmig, -⟩ := canTake_iff_entry.1 htakes
  rw [takeUpSlot_taken hheld howner hrole htakes hwant, nameSlot_eq]
  refine ⟨rfl, fun z hz => ?_, fun k hk => ?_, fun z hz => ?_, fun q role' hq => ?_, fun q => ?_⟩
  · rw [List.mem_singleton.1 hz]
    exact (modSlot_slots s i i takenSlot).trans (if_pos rfl)
  · exact (modSlot_slots s i k takenSlot).trans (if_neg (by simpa using hk))
  · rw [List.mem_singleton.1 hz, modRange_ranges, if_pos rfl]
    exact namedSlot_nameIn_same hmig
  · rw [modRange_ranges]
    split
    · rename_i e
      subst e
      exact namedSlot_nameIn_other i _ (by simpa using hq)
    · rfl
  · rw [modRange_ranges]
    split
    · rename_i e
      subst e
      exact renamed_nameIn i role _
    · exact .refl _

theorem SlotsTaken.cons {s t u : State} {z : SlotIx × RangeIx × Role} {l : List (SlotIx × RangeIx × Role)}
    (h : SlotsTaken s t [z]) (k : SlotsTaken t u l) (hi : z.1 ∉ l.map Prod.fst) (hx : z.2 ∉ l.map Prod.snd) :
    SlotsTaken s u (z :: l) := by
  refine ⟨?_, fun y hy => ?_, fun i hn => ?_, fun y hy => ?_, fun r role hn => ?_, fun r => (h.entries r).trans (k.entries r)⟩
  · rw [k.frame, h.frame]
  · rcases List.mem_cons.1 hy with rfl | hy
    · rw [k.others _ hi]
      exact h.slots y (List.mem_singleton.2 rfl)
    · rw [k.slots y hy, h.others y.1 fun e => hi (List.mem_singleton.1 e ▸ List.mem_map_of_mem hy)]
  · rw [List.map_cons, List.mem_cons, not_or] at hn
    rw [k.others i hn.2, h.others i (by simpa using hn.1)]
  · rcases List.mem_cons.1 hy with rfl | hy
    · rw [k.unnamed _ _ hx]
      exact h.named y (List.mem_singleton.2 rfl)
    · exact k.named y hy
  · rw [List.map_cons, List.mem_cons, not_or] at hn
    rw [k.unnamed r role hn.2, h.unnamed r role (by simpa using hn.1)]

/-- A slot taken up leaves another slot, of another range or role, to be taken up. -/
theorem Takable.after {want : RangeIx → Bool} {s t : State} {z y : SlotIx × RangeIx × Role} (h : Takable want s y)
    (k : SlotsTaken s t [z]) (hi : y.1 ≠ z.1) (hx : y.2 ≠ z.2) : Takable want t y := by
  obtain ⟨hheld, howner, hrole, htakes, hwant⟩ := h
  obtain ⟨hactive, hcond, hmig, hnone⟩ := canTake_iff_entry.1 htakes
  have hslot : t.slots[y.1] = s.slots[y.1] := k.others _ (by simpa using hi)
  have hentry := k.entries y.2.1
  unfold Renamed at hentry
  refine ⟨hslot ▸ hheld, hslot ▸ howner, hslot ▸ hrole, canTake_iff_entry.2 ⟨?_, ?_, fun hr => ?_, ?_⟩, hwant⟩
  · rw [hentry]
    exact hactive
  · rw [hentry]
    exact hcond
  · rw [hentry]
    simpa using hmig hr
  · rw [k.unnamed _ _ (by simpa using hx)]
    exact hnone

/-- Slots that are held for ranges that can take them up, each for another range or role, are taken up. -/
theorem slotsTaken_foldl {want : RangeIx → Bool} (l : List (SlotIx × RangeIx × Role)) (s : State)
    (h : ∀ z ∈ l, Takable want s z) (hi : (l.map Prod.fst).Nodup) (hx : (l.map Prod.snd).Nodup) :
    SlotsTaken s ((l.map Prod.fst).foldl (takeUpSlot want) s) l := by
  induction l generalizing s with
  | nil => exact .nil s
  | cons z l ih =>
    rw [List.map_cons, List.nodup_cons] at hi hx
    have hone := SlotsTaken.one (h z (List.mem_cons_self ..))
    refine hone.cons (ih _ (fun y hy => ?_) hi.2 hx.2) hi.1 hx.1
    exact (h y (List.mem_cons_of_mem _ hy)).after hone (fun e => hi.1 (e ▸ List.mem_map_of_mem hy))
      (fun e => hx.1 (e ▸ List.mem_map_of_mem hy))

/-! ## The keys of a set (R54) -/

/-- Of some slots the held ones are taken up. -/
theorem foldl_takeUpSlot_held (want : RangeIx → Bool) (l : List SlotIx) (hl : l.Nodup) (s : State) :
    l.foldl (takeUpSlot want) s = (l.filter (fun i => s.slots[i].held)).foldl (takeUpSlot want) s := by
  induction l generalizing s with
  | nil => rfl
  | cons i l ih =>
    obtain ⟨hi, hl⟩ := List.nodup_cons.1 hl
    rw [List.foldl_cons, List.filter_cons]
    cases hh : s.slots[i].held with
    | false =>
      rw [takeUpSlot_free want s i hh, ih hl]
      rfl
    | true =>
      have hsame : l.filter (fun k => (takeUpSlot want s i).slots[k].held) = l.filter (fun k => s.slots[k].held) :=
        List.filter_congr fun k hk => by rw [takeUpSlot_other want s i k fun e => hi (e ▸ hk)]
      rw [ih hl, hsame]
      rfl

/-- A slot that a load has taken is an EMPTY one. -/
theorem empty_of_mem {s : State} {i : SlotIx} (h : i ∈ emptyMediaSlots s) : s.slots[i].state = .empty :=
  of_decide_eq_true (List.mem_filter.1 h).2

/-- With no slot held before, the slots held after a load are those that it has taken. -/
theorem KeysHeld.held_iff {s t : State} {set : List RangeIx} (h : KeysHeld s t set)
    (hroom : (wantedKeys s set).length ≤ (emptyMediaSlots s).length) (hfree : ∀ k : SlotIx, s.slots[k].held = false)
    (i : SlotIx) : t.slots[i].held = true ↔ i ∈ (emptyMediaSlots s).take (wantedKeys s set).length := by
  constructor
  · intro hh
    by_contra hn
    rw [h.slots.others i hn, hfree i] at hh
    cases hh
  · intro hm
    obtain ⟨n, hn, rfl⟩ := List.mem_iff_getElem.1 hm
    have hlt : n < (wantedKeys s set).length := lt_of_lt_of_le hn (List.length_take_le _ _)
    rw [List.getElem_take, h.slots.loaded n _ _ (List.getElem?_eq_getElem hlt) (List.getElem?_eq_getElem (hlt.trans_le hroom))]
    rfl

/-- Taking up after a load is taking up the slots that it has taken, in their order. -/
theorem KeysHeld.takeUp_eq {s t : State} {set : List RangeIx} (h : KeysHeld s t set)
    (hroom : (wantedKeys s set).length ≤ (emptyMediaSlots s).length) (hfree : ∀ k : SlotIx, s.slots[k].held = false)
    (want : RangeIx → Bool) : takeUp t want =
      ((emptyMediaSlots s).take (wantedKeys s set).length).foldl (takeUpSlot want) t := by
  unfold takeUp
  rw [foldl_takeUpSlot_held want _ (by decide)]
  congr 1
  rw [(emptyMediaSlots_nodup s).take_eq_filter_mem]
  conv_rhs => rw [emptyMediaSlots, List.filter_filter]
  refine List.filter_congr fun i _ => Bool.eq_iff_iff.2 ?_
  rw [h.held_iff hroom hfree i]
  simp only [Bool.and_eq_true, List.elem_eq_mem, decide_eq_true_eq]
  exact ⟨fun hm => ⟨hm, empty_of_mem (List.mem_of_mem_take hm)⟩, And.left⟩

/-- A range that can take up its keys can take up each of them. -/
theorem Keyless.canTake {s : State} {set : List RangeIx} (h : Keyless s set) {x : RangeIx × Role} (hx : x ∈ wantedKeys s set) :
    canTake s x.1 x.2 = true := by
  obtain ⟨r, role⟩ := x
  obtain ⟨hr, hrole⟩ := mem_wantedKeys.1 hx
  obtain ⟨hactive, hslot⟩ := h.current r hr
  have hcond := h.condition r hr
  refine canTake_iff_entry.2 ⟨hactive, ?_, ?_, ?_⟩
  · rcases hcond with e | ⟨e, -⟩ <;> simp [e, -Fin.getElem_fin]
  · rintro rfl
    rcases hcond with e | ⟨-, hm⟩
    · simp [neededRoles, e, -Fin.getElem_fin] at hrole
    · exact hm
  · cases role with
    | current => exact hslot
    | next => exact h.next r hr

/-- The slots that a load takes, each with its key. -/
def loads (s : State) (set : List RangeIx) : List (SlotIx × RangeIx × Role) := (emptyMediaSlots s).zip (wantedKeys s set)

section
variable {s t : State} {set : List RangeIx}

theorem loads_get {n : Nat} {z : SlotIx × RangeIx × Role} :
    (loads s set)[n]? = some z ↔ (emptyMediaSlots s)[n]? = some z.1 ∧ (wantedKeys s set)[n]? = some z.2 :=
  List.getElem?_zip_eq_some

theorem loads_slots (hroom : (wantedKeys s set).length ≤ (emptyMediaSlots s).length) :
    (loads s set).map Prod.fst = (emptyMediaSlots s).take (wantedKeys s set).length := by
  unfold loads
  rw [List.zip_eq_zip_take_min, min_eq_right hroom]
  exact List.map_fst_zip (by simp [hroom])

theorem loads_keys (hroom : (wantedKeys s set).length ≤ (emptyMediaSlots s).length) :
    (loads s set).map Prod.snd = wantedKeys s set := List.map_snd_zip hroom

theorem KeysHeld.loaded (h : KeysHeld s t set) {z : SlotIx × RangeIx × Role} (hz : z ∈ loads s set) :
    t.slots[z.1] = keyedSlot s z.2 true := by
  obtain ⟨n, hn⟩ := List.mem_iff_getElem?.1 hz
  obtain ⟨hi, hx⟩ := loads_get.1 hn
  exact h.slots.loaded n _ _ hx hi

theorem KeysHeld.takable (h : KeysHeld s t set) (hk : Keyless s set) {z : SlotIx × RangeIx × Role} (hz : z ∈ loads s set) :
    Takable (fun _ => true) t z := by
  have hslot := h.loaded hz
  have hcan : Machine.canTake s z.2.1 z.2.2 = true := hk.canTake (List.of_mem_zip hz).2
  refine ⟨by rw [hslot]; rfl, ⟨_, by rw [hslot]; rfl⟩, by rw [hslot]; rfl, ?_, rfl⟩
  rw [h.frame]
  exact hcan

/-- The keys that a set needs, loaded and held, are taken up: each range names its own. -/
theorem KeysHeld.takeUp (h : KeysHeld s t set) (hroom : (wantedKeys s set).length ≤ (emptyMediaSlots s).length)
    (hfree : ∀ k : SlotIx, s.slots[k].held = false) (hk : Keyless s set) : KeysNamed s (takeUp t (fun _ => true)) set := by
  have htaken : SlotsTaken t (Machine.takeUp t (fun _ => true)) (loads s set) := by
    rw [h.takeUp_eq hroom hfree, ← loads_slots hroom]
    refine slotsTaken_foldl _ t (fun z hz => h.takable hk hz) ?_ ?_
    · rw [loads_slots hroom]
      exact (emptyMediaSlots_nodup s).sublist (List.take_sublist _ _)
    · rw [loads_keys hroom]
      exact wantedKeys_nodup s set
  generalize Machine.takeUp t (fun _ => true) = u at htaken ⊢
  have hranges : t.ranges = s.ranges := by rw [h.frame]
  obtain ⟨hframe, hslots, hothers, hnamed, hunnamed, hentries⟩ := htaken
  rw [hranges] at hunnamed hentries
  refine ⟨?_, ⟨fun n x i hx hi => ?_, fun i hi => ?_⟩, fun n x i hx hi => ?_, fun r _ => hentries r, fun r hr => ?_⟩
  · rw [hframe, h.frame]
  · have hz : (i, x) ∈ loads s set := List.mem_of_getElem? (loads_get.2 ⟨hi, hx⟩)
    rw [hslots _ hz, h.loaded hz]
    rfl
  · rw [hothers i (by rw [loads_slots hroom]; exact hi), h.slots.others i hi]
  · have hz : (i, x) ∈ loads s set := List.mem_of_getElem? (loads_get.2 ⟨hi, hx⟩)
    obtain ⟨r, role⟩ := x
    cases role with
    | current => exact hnamed _ hz
    | next => exact hnamed _ hz
  · refine (hentries r).eq fun role => hunnamed r role fun hm => ?_
    rw [loads_keys hroom] at hm
    exact hr (mem_wantedKeys.1 hm).1

end

end Sys2Proof.Machine
end

section
/-! UNLOCK with a credential: its checks, the load of its keys, and the opening of its ranges (R70, R71). -/

namespace Sys2Proof.Machine

/-! ## The take-up of one slot (R54) -/

theorem takeUpSlot_current {want : RangeIx → Bool} {s : State} {i : SlotIx} {r : RangeIx} {g : Gen}
    (h : s.slots[i].held = true) (ho : s.slots[i].owner = some (r, g)) (hr : s.slots[i].role = some .current)
    (hlive : (s.ranges[r].active = true ∧ s.ranges[r].cond ≠ .draining ∧ want r = true) ∧ s.ranges[r].slot = none) :
    takeUpSlot want s i = { s with
      slots := s.slots.set i { s.slots[i] with held := false, count := s.slots[i].count + 1 }
      ranges := s.ranges.set r { s.ranges[r] with slot := some i } } := by
  obtain ⟨⟨hactive, hcond, hwant⟩, hslot⟩ := hlive
  rw [takeUpSlot_taken h ho hr (canTake_iff_entry.2 ⟨hactive, hcond, nofun, hslot⟩) hwant]
  rfl

theorem takeUpSlot_next {want : RangeIx → Bool} {s : State} {i : SlotIx} {r : RangeIx} {g : Gen} {m : MigRec}
    (h : s.slots[i].held = true) (ho : s.slots[i].owner = some (r, g)) (hr : s.slots[i].role = some .next)
    (hm : s.ranges[r].mig = some m)
    (hlive : (s.ranges[r].active = true ∧ s.ranges[r].cond ≠ .draining ∧ want r = true) ∧ m.nextSlot = none) :
    takeUpSlot want s i = { s with
      slots := s.slots.set i { s.slots[i] with held := false, count := s.slots[i].count + 1 }
      ranges := s.ranges.set r { s.ranges[r] with mig := some { m with nextSlot := some i } } } := by
  obtain ⟨⟨hactive, hcond, hwant⟩, hslot⟩ := hlive
  have hnone : nextSlotOf s.ranges[r] = none := by rw [nextSlotOf, hm]; exact hslot
  rw [takeUpSlot_taken h ho hr (canTake_iff_entry.2 ⟨hactive, hcond, fun _ => by rw [hm]; rfl, hnone⟩) hwant]
  have hname : ∀ t : State, t.ranges = s.ranges → nameSlot t r .next i =
      { t with ranges := s.ranges.set r { s.ranges[r] with mig := some { m with nextSlot := some i } } } := fun t ht => by
    simp only [nameSlot, modRange, ht, hm, Option.map_some]
  exact hname (modSlot s i takenSlot) rfl

/-- What the take-up of one slot does (R54), in the words of the obligation. -/
theorem takeUpSlot_cases (s : State) (want : RangeIx → Bool) (i : SlotIx) :
    let zeroed := { s with slots := s.slots.set i ⟨.empty, none, none, none, false, 0⟩ }
    let up := s.slots.set i { s.slots[i] with held := false, count := s.slots[i].count + 1 }
    (s.slots[i].held = false → takeUpSlot want s i = s) ∧
    (s.slots[i].held = true → (s.slots[i].owner = none ∨ s.slots[i].role = none) → takeUpSlot want s i = zeroed) ∧
    (∀ r g, s.slots[i].held = true → s.slots[i].owner = some (r, g) →
      let live := s.ranges[r].active = true ∧ s.ranges[r].cond ≠ .draining ∧ want r = true
      (s.slots[i].role = some .current → live ∧ s.ranges[r].slot = none → takeUpSlot want s i =
        { s with slots := up, ranges := s.ranges.set r { s.ranges[r] with slot := some i } }) ∧
      (s.slots[i].role = some .current → ¬ (live ∧ s.ranges[r].slot = none) → takeUpSlot want s i = zeroed) ∧
      (∀ m, s.slots[i].role = some .next → s.ranges[r].mig = some m → live ∧ m.nextSlot = none →
        takeUpSlot want s i =
          { s with slots := up, ranges := s.ranges.set r { s.ranges[r] with mig := some { m with nextSlot := some i } } }) ∧
      (s.slots[i].role = some .next → ¬ (live ∧ ∃ m, s.ranges[r].mig = some m ∧ m.nextSlot = none) →
        takeUpSlot want s i = zeroed)) := by
  refine ⟨takeUpSlot_free want s i, takeUpSlot_lost, fun r g hh ho => ⟨takeUpSlot_current hh ho, fun hr hn => ?_,
    fun m hr hm => takeUpSlot_next hh ho hr hm, fun hr hn => ?_⟩⟩
  · refine takeUpSlot_zeroed hh ho hr fun ⟨hc, hw⟩ => hn ?_
    obtain ⟨hactive, hcond, -, hslot⟩ := canTake_iff_entry.1 hc
    exact ⟨⟨hactive, hcond, hw⟩, hslot⟩
  · refine takeUpSlot_zeroed hh ho hr fun ⟨hc, hw⟩ => hn ?_
    obtain ⟨hactive, hcond, hmig, hslot⟩ := canTake_iff_entry.1 hc
    obtain ⟨m, hm⟩ := Option.isSome_iff_exists.1 (hmig rfl)
    refine ⟨⟨hactive, hcond, hw⟩, m, hm, ?_⟩
    rwa [namedSlot, nextSlotOf, hm] at hslot

/-! ## The opening of one range (R71) -/

theorem returnUnlocked_returns {s : State} {r : RangeIx} {j : JobNo} {b : Job} (hj : rekeyOf s r = some j)
    (hb : jobAt s j = some b) (hp : b.state = .paused) (hl : b.pause = some .locked) : returnUnlocked s r = returnJob s j := by
  simp only [returnUnlocked, hj, returnIf, hb, hp, hl, decide_true, Bool.and_self, if_true]

theorem returnUnlocked_none {s : State} {r : RangeIx} (h : rekeyOf s r = none) : returnUnlocked s r = s := by
  simp only [returnUnlocked, h]

theorem returnUnlocked_stays {s : State} {r : RangeIx}
    (h : ∀ j b, rekeyOf s r = some j → jobAt s j = some b → ¬ (b.state = .paused ∧ b.pause = some .locked)) :
    returnUnlocked s r = s := by
  cases hj : rekeyOf s r with
  | none => exact returnUnlocked_none hj
  | some j =>
    cases hb : jobAt s j with
    | none => simp only [returnUnlocked, hj, returnIf, hb]
    | some b =>
      simp only [returnUnlocked, hj, returnIf, hb]
      exact if_neg (by simpa using h j b hj hb)

section
variable (cred : Option CredIx) {access : RangeIx → Access} {s : State} {r : RangeIx}

theorem unlockRange_opens {l : LockState} (h : unlockedTo s.ranges[r] (access r) = l) (hne : l ≠ s.ranges[r].lock) :
    unlockRange cred access s r = raise (returnUnlocked
        { s with ranges := s.ranges.set r { s.ranges[r] with lock := l } } r)
      { kind := .unlocked, range := some r, cred := cred, detail := .lock l } := by
  subst h
  exact if_pos hne

theorem unlockRange_stays (h : unlockedTo s.ranges[r] (access r) = s.ranges[r].lock) : unlockRange cred access s r = s :=
  if_neg (not_not.2 h)

/-- What an UNLOCK makes of one range (R71), in the words of the obligation. -/
theorem unlockRange_cases (access : RangeIx → Access) (s : State) (r : RangeIx) :
    let opens := fun (l : LockState) => raise (returnUnlocked
        { s with ranges := s.ranges.set r { s.ranges[r] with lock := l } } r)
      { kind := .unlocked, range := some r, cred := cred, detail := .lock l }
    (s.ranges[r].lock = .locked → s.ranges[r].slot.isSome = true →
      (access r = .readWrite → unlockRange cred access s r = opens .opened) ∧
      (access r = .read → unlockRange cred access s r = opens .readOnly)) ∧
    (s.ranges[r].lock = .readOnly → access r = .readWrite → unlockRange cred access s r = opens .opened) ∧
    ((s.ranges[r].lock = .opened ∨ (s.ranges[r].lock = .readOnly ∧ access r = .read) ∨
      (s.ranges[r].lock = .locked ∧ s.ranges[r].slot = none)) → unlockRange cred access s r = s) := by
  refine ⟨fun hl hs => ⟨fun ha => unlockRange_opens cred ?_ ?_, fun ha => unlockRange_opens cred ?_ ?_⟩,
    fun hl ha => unlockRange_opens cred ?_ ?_, fun h => unlockRange_stays cred ?_⟩
  · simp only [unlockedTo, hl, ha, hs, if_true]
  · simp only [hl]
    decide
  · simp only [unlockedTo, hl, ha, hs, if_true]
  · simp only [hl]
    decide
  · simp only [unlockedTo, hl, ha]
  · simp only [hl]
    decide
  · rcases h with hl | ⟨hl, ha⟩ | ⟨hl, hn⟩
    · simp only [unlockedTo, hl]
    · simp only [unlockedTo, hl, ha]
    · cases access r <;> simp only [unlockedTo, hl, hn, Option.isSome_none, Bool.false_eq_true, if_false]

theorem unlockRange_startUp (h : s.startUp = none) : (unlockRange cred access s r).startUp = none := by
  unfold unlockRange
  dsimp only
  split
  · exact raise_startUp _ _ ((returnUnlocked_spared Spared.refl).started h)
  · exact h

end

theorem unlockAll_startUp {s : State} (cred : Option CredIx) (set : List RangeIx) (access : RangeIx → Access)
    (h : s.startUp = none) : (unlockAll s cred set access).startUp = none := by
  have hfold : ∀ (l : List RangeIx) (t : State), t.startUp = none → (l.foldl (unlockRange cred access) t).startUp = none :=
    fun l => by
      induction l with
      | nil => exact fun t ht => ht
      | cons r l ih => exact fun t ht => ih _ (unlockRange_startUp cred ht)
  exact engine_startUp (hfold _ _ (by rw [takeUp_startUp, h]))

/-! ## What the request is to do next does not matter -/

theorem takeUpSlot_withControl (want : RangeIx → Bool) (s : State) (k : Control) (i : SlotIx) :
    takeUpSlot want (withControl s k) i = withControl (takeUpSlot want s i) k := by
  cases hh : s.slots[i].held with
  | false => rw [takeUpSlot_free want s i hh, takeUpSlot_free want (withControl s k) i hh]
  | true =>
    cases ho : s.slots[i].owner with
    | none => rw [takeUpSlot_lost hh (.inl ho), takeUpSlot_lost (s := withControl s k) hh (.inl ho)]; rfl
    | some o =>
      cases hr : s.slots[i].role with
      | none => rw [takeUpSlot_lost hh (.inr hr), takeUpSlot_lost (s := withControl s k) hh (.inr hr)]; rfl
      | some role =>
        rw [takeUpSlot_owned hh ho hr, takeUpSlot_owned (s := withControl s k) hh ho hr, withControl_ite, nameSlot_eq,
          nameSlot_eq]
        rfl

theorem unlockRange_withControl (cred : Option CredIx) (access : RangeIx → Access) (s : State) (k : Control) (r : RangeIx) :
    unlockRange cred access (withControl s k) r = withControl (unlockRange cred access s r) k := by
  unfold unlockRange
  simp [withControl_ite, -Fin.getElem_fin]

theorem unlockAll_withControl (s : State) (k : Control) (cred : Option CredIx) (set : List RangeIx)
    (access : RangeIx → Access) :
    unlockAll (withControl s k) cred set access = withControl (unlockAll s cred set access) k := by
  unfold unlockAll takeUp
  rw [foldl_withControl _ _ (fun t i => takeUpSlot_withControl _ t k i),
    foldl_withControl _ _ (fun t r => unlockRange_withControl cred access t k r), engine_withControl]

/-- An operation that does the same with any control unit leaves the control unit. -/
theorem control_of_withControl {f : State → State} (hf : ∀ s k, f (withControl s k) = withControl (f s) k) (s : State) :
    (f s).control = s.control := by
  have h : f s = withControl (f s) s.control := hf s s.control
  rw [h]
  rfl

/-- It does the same whatever the request in service is to do next. -/
theorem setAfter_of_withControl {f : State → State} (hf : ∀ s k, f (withControl s k) = withControl (f s) k) (s : State)
    (a : After) : f (setAfter s a) = setAfter (f s) a := by
  rw [setAfter_eq, setAfter_eq, hf, control_of_withControl hf]

/-! ## The checks (R70) -/

theorem namedCred_of_passed {s : State} {b : RequestBlock} {owner m : Bool} {c : CredIx}
    (h : checkProof s b owner = .passed (some c) m) : (namedCred b).isSome = true := by
  cases hn : namedCred b with
  | some n => rfl
  | none =>
    unfold checkProof at h
    rw [hn] at h
    cases h

theorem Serves.exec_unlock {s u : State} {b : RequestBlock} {l : List Nat} {c : CredIx} {d : Bool}
    (h : Serves s b (.unlock l) false (some c) u d) : exec .unlock s = .next (serveUnlock u c d l) := by
  obtain ⟨m, hm, -, -⟩ := h.passes
  simp only [exec, execUnlock, h.starts, namedCred_of_passed hm, if_true]
  rw [h.withProof]

/-- The LOCKED ranges of a set need more keys than there are EMPTY media slots. -/
theorem lacksSlots_iff (s : State) (set : List RangeIx) :
    lacksSlots s set = true ↔ (emptyMediaSlots s).length < keyNeed s set := decide_eq_true_iff

theorem anyBusy_iff (s : State) (set : List RangeIx) :
    anyBusy s set = true ↔ ∃ r ∈ set, s.ranges[r].cond = .draining ∨ s.ranges[r].cond = .purging := by
  simp [anyBusy, -Fin.getElem_fin]

theorem ungranted_iff (s : State) (c : CredIx) (set : List RangeIx) :
    set.any (fun r => (grantOf s.creds[c] r).isNone) = true ↔ ∃ r ∈ set, grantOf s.creds[c] r = none := by
  simp [-Fin.getElem_fin]

section
variable {s : State} {c : CredIx} {l : List Nat} {set : List RangeIx} (d : Bool) (hset : toRangeSet s l = some set)
include hset

theorem serveUnlock_ungranted (h : ∃ r ∈ set, grantOf s.creds[c] r = none) :
    serveUnlock s c d l = refuse s d .notPermitted := by
  simp only [serveUnlock, hset]
  rw [if_pos ((ungranted_iff s c set).2 h)]

theorem serveUnlock_busy (h : ¬ ∃ r ∈ set, grantOf s.creds[c] r = none)
    (hb : ∃ r ∈ set, s.ranges[r].cond = .draining ∨ s.ranges[r].cond = .purging) :
    serveUnlock s c d l = refuse s d .rangeBusy := by
  simp only [serveUnlock, hset]
  rw [if_neg (mt (ungranted_iff s c set).1 h), if_pos ((anyBusy_iff s set).2 hb)]

theorem serveUnlock_granted (h : ¬ ∃ r ∈ set, grantOf s.creds[c] r = none)
    (hb : ¬ ∃ r ∈ set, s.ranges[r].cond = .draining ∨ s.ranges[r].cond = .purging) :
    serveUnlock s c d l = if (emptyMediaSlots s).length < keyNeed s (lockedOf s set) then refuse s d .slotsExhausted
      else proceed (holdKeys s (lockedOf s set)) false (unlockOps s d) (.unlock c set) := by
  simp only [serveUnlock, hset]
  rw [if_neg (mt (ungranted_iff s c set).1 h), if_neg (mt (anyBusy_iff s set).1 hb)]
  exact if_congr (lacksSlots_iff s _) rfl rfl

end

/-! ## The opening (R71) -/

theorem unlockOps_due {s : State} {d : Bool} (h : d = true ∨ s.dev.lockedStarts ≠ 0) :
    unlockOps s d = [.device { strikes := some 0, lockedStarts := some 0 }] := if_pos (by simpa using h)

theorem unlockOps_none {s : State} (h : s.dev.lockedStarts = 0) : unlockOps s false = [] := if_neg (by simp [h])

/-- The lock states that an UNLOCK or a LOCK answers with. -/
def lockAnswer (s : State) (set : List RangeIx) : State :=
  respond s ⟨.done, .lockStates (set.map (fun r => s.ranges[r].lock))⟩

theorem lockAnswer_setAfter (s : State) (a : After) (set : List RangeIx) :
    lockAnswer (setAfter s a) set = lockAnswer s set := respond_setAfter s a _

theorem finish_unlock {t : State} {v : Service} {c : CredIx} {set : List RangeIx} (hv : t.control.service = some v)
    (ha : v.after = .unlock c set) :
    finishService t = lockAnswer (unlockAll { t with dev := { t.dev with lockedStarts := 0 } } (some c) set
      (fun r => (grantOf t.creds[c] r).getD .read)) set := by
  unfold finishService
  rw [hv]
  dsimp only
  rw [ha]
  rfl

/-- An UNLOCK with no count to store opens its ranges at once. -/
theorem proceed_unlock {t : State} (c : CredIx) (set : List RangeIx) (hv : t.control.service.isSome = true)
    (hl : t.dev.lockedStarts = 0) : proceed t false [] (.unlock c set) =
      lockAnswer (unlockAll t (some c) set (fun r => (grantOf t.creds[c] r).getD .read)) set := by
  obtain ⟨v, hv⟩ := Option.isSome_iff_exists.1 hv
  have hdev : { t.dev with lockedStarts := 0 } = t.dev := by rw [← hl]
  have hstate : { setAfter t (.unlock c set) with dev := { t.dev with lockedStarts := 0 } } =
      setAfter t (.unlock c set) := congrArg (fun d => { setAfter t (.unlock c set) with dev := d }) hdev
  have hopen := setAfter_of_withControl (f := fun s => unlockAll s (some c) set (fun r => (grantOf t.creds[c] r).getD .read))
    (fun s k => unlockAll_withControl s k _ _ _) t (.unlock c set)
  rw [proceed_now, finish_unlock (setAfter_service _ hv) rfl]
  calc lockAnswer (unlockAll { setAfter t (.unlock c set) with dev := { t.dev with lockedStarts := 0 } } (some c) set
          (fun r => (grantOf t.creds[c] r).getD .read)) set
      = lockAnswer (unlockAll (setAfter t (.unlock c set)) (some c) set
          (fun r => (grantOf t.creds[c] r).getD .read)) set := by rw [hstate]
    _ = lockAnswer (setAfter (unlockAll t (some c) set (fun r => (grantOf t.creds[c] r).getD .read)) (.unlock c set))
          set := congrArg (lockAnswer · set) hopen
    _ = _ := lockAnswer_setAfter _ _ _

end Sys2Proof.Machine
end

section
/-! UNLOCK of one range and of a set of ranges, from its checks to its answer (R70, R71). -/

namespace Sys2Proof.Machine

/-! ## One STEADY range that is LOCKED (R52, R54) -/

theorem wantedKeys_one {s : State} {r : RangeIx} (hc : s.ranges[r].cond = .steady) : wantedKeys s [r] = [(r, .current)] := by
  rw [wantedKeys_eq, List.perm_singleton.1 (filter_contains_perm (List.nodup_singleton r))]
  simp [neededRoles, hc, -Fin.getElem_fin]

/-- A range that can take up the one key it needs, and the media slot for it. -/
structure OneKey (s : State) (r : RangeIx) (i : SlotIx) : Prop where
  active : s.ranges[r].active = true
  steady : s.ranges[r].cond = .steady
  locked : s.ranges[r].lock = .locked
  slot   : s.ranges[r].slot = none
  empty  : ∃ rest, emptyMediaSlots s = i :: rest
  free   : ∀ k : SlotIx, s.slots[k].held = false
  noJob  : rekeyOf s r = none

/-- The slots with the key of one range loaded, held or named. -/
def oneKeySlots (s : State) (r : RangeIx) (i : SlotIx) (held : Bool) : Vector Slot 24 :=
  s.slots.set i ⟨.loaded, s.store.ranges[r].key, some (r, s.ranges[r].gen), some .current, held, if held then 0 else 1⟩

/-- One range opened, which names its key's slot. -/
def openedOne (s : State) (r : RangeIx) (i : SlotIx) (l : LockState) : State :=
  { s with slots := oneKeySlots s r i false, ranges := s.ranges.set r { s.ranges[r] with lock := l, slot := some i } }

section
variable {s : State} {r : RangeIx} {i : SlotIx}

theorem OneKey.room (h : OneKey s r i) : ¬ (emptyMediaSlots s).length < keyNeed s [r] := by
  obtain ⟨rest, he⟩ := h.empty
  rw [keyNeed_eq (List.nodup_singleton r), wantedKeys_one h.steady, he]
  simp

theorem OneKey.holdKeys (h : OneKey s r i) : holdKeys s [r] = { s with slots := oneKeySlots s r i true } := by
  obtain ⟨rest, he⟩ := h.empty
  rw [holdKeys_eq, wantedKeys_one h.steady]
  exact holdRole_fill _ he

theorem OneKey.takeUp (h : OneKey s r i) : takeUp { s with slots := oneKeySlots s r i true } (fun _ => true) =
    { s with slots := oneKeySlots s r i false, ranges := s.ranges.set r { s.ranges[r] with slot := some i } } := by
  obtain ⟨rest, he⟩ := h.empty
  have hslot : (oneKeySlots s r i true)[i] =
      ⟨.loaded, s.store.ranges[r].key, some (r, s.ranges[r].gen), some .current, true, 0⟩ := by simp [oneKeySlots]
  have hother : ∀ k : SlotIx, k ≠ i → (oneKeySlots s r i true)[k].held = false := fun k hk => by
    have hv : ¬ i.val = k.val := fun e => hk (Fin.ext e.symm)
    simpa [oneKeySlots, hv] using h.free k
  have hsteady : s.ranges[r].cond ≠ .draining := by
    rw [h.steady]
    decide
  rw [takeUp_one _ _ i (emptyMediaSlots_head he).1 hother, takeUpSlot_current (s := { s with slots := oneKeySlots s r i true })
    (congrArg Slot.held hslot)
    (congrArg Slot.owner hslot) (congrArg Slot.role hslot) ⟨⟨h.active, hsteady, rfl⟩, h.slot⟩]
  simp [oneKeySlots]

/-- An UNLOCK of one range, its key being held. -/
theorem OneKey.unlockAll (h : OneKey s r i) (cred : Option CredIx) {access : RangeIx → Access} {l : LockState}
    (hl : unlockedTo { s.ranges[r] with slot := some i } (access r) = l) (hne : l ≠ .locked) :
    unlockAll (Machine.holdKeys s [r]) cred [r] access =
      engine (raise (openedOne s r i l) { kind := .unlocked, range := some r, cred := cred, detail := .lock l }) := by
  have hentry : (s.ranges.set r { s.ranges[r] with slot := some i })[r] = { s.ranges[r] with slot := some i } := by simp
  unfold Machine.unlockAll
  rw [h.holdKeys, h.takeUp, List.foldl_cons, List.foldl_nil, unlockRange_opens cred (l := l)]
  · rw [returnUnlocked_none (by exact h.noJob)]
    dsimp only
    rw [hentry, Vector.set_set]
    rfl
  · dsimp only
    rw [hentry]
    exact hl
  · dsimp only
    rw [hentry, h.locked]
    exact hne

theorem openedOne_answer (s : State) (r : RangeIx) (i : SlotIx) (l : LockState) (e : Event) :
    lockAnswer (engine (raise (openedOne s r i l) e)) [r] =
      respond (engine (raise (openedOne s r i l) e)) ⟨.done, .lockStates [l]⟩ := by
  have hlock : (engine (raise (openedOne s r i l) e)).ranges[r].lock = l :=
    ((engine_spared (raise_spared Spared.refl)).lock r).trans (by simp [openedOne])
  unfold lockAnswer
  rw [List.map_cons, hlock, List.map_nil]

end

/-! ## UNLOCK with a credential -/

theorem serveUnlock_illegal {s : State} (c : CredIx) (d : Bool) {l : List Nat} (h : toRangeSet s l = none) :
    serveUnlock s c d l = refuse s d .badRequest := by
  simp only [serveUnlock, h]

theorem lockedOf_one {s : State} {r : RangeIx} (h : s.ranges[r].lock = .locked) : lockedOf s [r] = [r] := by
  simp [lockedOf, h, -Fin.getElem_fin]

theorem lockedOf_nodup {s : State} {l : List Nat} {set : List RangeIx} (h : toRangeSet s l = some set) :
    (lockedOf s set).Nodup := (toRangeSet_nodup h).filter _

/-- An UNLOCK that no check refuses. -/
theorem serveUnlock_goesOn {s : State} {c : CredIx} {l : List Nat} {set : List RangeIx} (d : Bool)
    (hset : toRangeSet s l = some set)
    (h : ∀ r ∈ set, (grantOf s.creds[c] r).isSome = true ∧ s.ranges[r].cond ≠ .draining ∧ s.ranges[r].cond ≠ .purging)
    (hroom : ¬ (emptyMediaSlots s).length < keyNeed s (lockedOf s set)) : serveUnlock s c d l =
      proceed (holdKeys s (lockedOf s set)) false (unlockOps s d) (.unlock c set) := by
  rw [serveUnlock_granted d hset, if_neg hroom]
  · rintro ⟨r, hr, hn⟩
    have hs := (h r hr).1
    rw [hn] at hs
    cases hs
  · rintro ⟨r, hr, hb⟩
    exact hb.elim (h r hr).2.1 (h r hr).2.2

/-- The counts, when they are 0, need no write, and the ranges are opened at once. -/
theorem proceed_unlock_held {s : State} (c : CredIx) (need set : List RangeIx) (hv : s.control.service.isSome = true)
    (hl : s.dev.lockedStarts = 0) : proceed (holdKeys s need) false [] (.unlock c set) =
      lockAnswer (unlockAll (holdKeys s need) (some c) set (fun r => (grantOf s.creds[c] r).getD .read)) set := by
  have hframe := (holdKeys_held s need).frame
  have hcreds : (holdKeys s need).creds = s.creds := by rw [hframe]
  have hcontrol : (holdKeys s need).control = s.control := by rw [hframe]
  have hdev : (holdKeys s need).dev = s.dev := by rw [hframe]
  rw [proceed_unlock c set (by rw [hcontrol]; exact hv) (by rw [hdev]; exact hl), hcreds]

/-- The lock state that a grant gives a LOCKED range whose key is loaded (R71). -/
def grantedLock : Access → LockState
  | .readWrite => .opened
  | .read => .readOnly

theorem unlockedTo_keyed {x : RangeEntry} (a : Access) (i : SlotIx) (h : x.lock = .locked) :
    unlockedTo { x with slot := some i } a = grantedLock a := by
  cases a <;> simp only [unlockedTo, h, Option.isSome_some, if_true, grantedLock]

/-- Settles O46: the checks, then the load of the keys and their take-up, for one range and for a set; and what the shared
operations do. -/
theorem unlockOpensALockedRange : Obligations.UnlockOpensALockedRange := by
  intro s b l c
  refine ⟨fun u d h => ?_, fun v set t h => ?_, fun set => toRangeSet_eq_some,
    fun set hn => ⟨keyNeed_eq hn, fun _ => holdKeys_held s set⟩,
    fun t set h => h.takeUp, fun want => rfl, takeUpSlot_cases s, fun t set cred access => rfl,
    fun cred access r => unlockRange_cases cred access s r,
    fun r => ⟨fun j k hj hk hp hl => returnUnlocked_returns hj hk hp hl, returnUnlocked_stays⟩⟩
  · rw [h.exec_unlock]
    refine ⟨fun hset => ?_, fun set hset => ⟨fun hu => ?_, fun hu hb => ?_, fun hu hb hroom => ?_⟩, ?_,
      fun set hset hall => ?_⟩
    · rw [serveUnlock_illegal c d hset, refuse_eq _ _ _ h.service]
    · rw [serveUnlock_ungranted d hset hu, refuse_eq _ _ _ h.service]
    · rw [serveUnlock_busy d hset hu hb, refuse_eq _ _ _ h.service]
    · rw [serveUnlock_granted d hset hu hb, if_pos (show _ < keyNeed u (lockedOf u set) from hroom),
        refuse_eq _ _ _ h.service]
    · intro r a i rest hset hgrant hcond hlock hslot hempty hfree hjob key lock write
      have hone : OneKey u r i :=
        ⟨toRangeSet_active hset r (List.mem_singleton.2 rfl), hcond, hlock, hslot, ⟨rest, hempty⟩, hfree, hjob⟩
      have hgoes := serveUnlock_goesOn (c := c) d hset (fun q hq => by
        rw [List.mem_singleton.1 hq, hgrant, hcond]
        exact ⟨rfl, by decide, by decide⟩) (by rw [lockedOf_one hlock]; exact hone.room)
      rw [lockedOf_one hlock] at hgoes
      rw [hgoes]
      refine ⟨fun hdue => ?_, fun hd hl => ?_⟩
      · rw [unlockOps_due hdue, proceed_stored _ _ _ _ (.inr (List.cons_ne_nil _ _)), hone.holdKeys]
        rfl
      · have hlk : lock = grantedLock a := by cases a <;> rfl
        rw [hd, unlockOps_none hl, proceed_unlock_held c [r] [r] h.service hl, hone.unlockAll (some c) (l := lock),
          openedOne_answer]
        · rfl
        · rw [hgrant, hlk]
          exact unlockedTo_keyed a i hlock
        · rw [hlk]
          cases a <;> decide
    · intro need hroom
      have hgoes := serveUnlock_goesOn (c := c) d hset hall
        (by rw [keyNeed_eq (lockedOf_nodup hset)]; exact Nat.not_lt.2 hroom)
      have hheld := holdKeys_held u need
      rw [hgoes]
      refine ⟨fun hdue => ⟨_, hheld, ?_⟩, fun hd hl hfree hkeyless => ⟨_, hheld.takeUp hroom hfree hkeyless, ?_⟩⟩
      · rw [unlockOps_due hdue, proceed_stored _ _ _ _ (.inr (List.cons_ne_nil _ _))]
        rfl
      · rw [hd, unlockOps_none hl, proceed_unlock_held c _ set h.service hl]
        rfl
  · obtain ⟨hv, ha⟩ := h.inService
    refine h.finish (finish_unlock hv ha) ?_
    exact (respond_startUp _ _).trans (unlockAll_startUp _ _ _ h.startUp)

end Sys2Proof.Machine
end

section
/-! UNLOCK with credential ABSENT, and LOCK (R73 to R75). -/

namespace Sys2Proof.Machine

/-! ## UNLOCK with credential ABSENT (R73) -/

theorem exec_unlockAbsent {s : State} {b : RequestBlock} {l : List Nat} (h : starting s = some (b, .unlock l))
    (hc : b.cred = 255) : exec .unlockAbsent s = .next (serveUnlockAbsent (endPrepared s) l) := by
  simp only [exec, execUnlockAbsent, h]
  exact if_pos (by simp [namedCred, hc])

theorem endPrepared_service {s : State} {x : RequestBlock × Request} (h : starting s = some x) :
    (endPrepared s).control.service.isSome = true := by
  obtain ⟨v, hv, -⟩ := starting_service s _ h
  simp [endPrepared, hv]

/-- An answer of the lock states. -/
theorem carried_lockStates {s : State} (d : Bool) (set : List RangeIx) (h : s.control.service.isSome = true) :
    carried s d (lockStates s set) = answerAfter s d ⟨.done, .lockStates (set.map (fun r => s.ranges[r].lock))⟩ :=
  carried_eq s d _ h

theorem unlockAll_control (s : State) (cred : Option CredIx) (set : List RangeIx) (access : RangeIx → Access) :
    (unlockAll s cred set access).control = s.control :=
  control_of_withControl (f := fun s => unlockAll s cred set access) (fun s k => unlockAll_withControl s k _ _ _) s

section
variable {s : State} {l : List Nat} {set : List RangeIx} (hset : toRangeSet s l = some set)

theorem serveUnlockAbsent_illegal (h : toRangeSet s l = none) : serveUnlockAbsent s l = refuse s false .badRequest := by
  simp only [serveUnlockAbsent, h]

include hset

theorem serveUnlockAbsent_guarded (h : ∃ r ∈ set, guarded s r = true) :
    serveUnlockAbsent s l = refuse s false .notPermitted := by
  simp only [serveUnlockAbsent, hset]
  rw [if_pos (List.any_eq_true.2 h)]

theorem serveUnlockAbsent_busy (h : ¬ ∃ r ∈ set, guarded s r = true)
    (hb : ∃ r ∈ set, s.ranges[r].cond = .draining ∨ s.ranges[r].cond = .purging) :
    serveUnlockAbsent s l = refuse s false .rangeBusy := by
  simp only [serveUnlockAbsent, hset]
  rw [if_neg (mt List.any_eq_true.1 h), if_pos ((anyBusy_iff s set).2 hb)]

theorem serveUnlockAbsent_full (h : ¬ ∃ r ∈ set, guarded s r = true)
    (hb : ¬ ∃ r ∈ set, s.ranges[r].cond = .draining ∨ s.ranges[r].cond = .purging)
    (hroom : (emptyMediaSlots s).length < keyNeed s (lockedOf s set)) :
    serveUnlockAbsent s l = refuse s false .slotsExhausted := by
  simp only [serveUnlockAbsent, hset]
  rw [if_neg (mt List.any_eq_true.1 h), if_neg (mt (anyBusy_iff s set).1 hb), if_pos ((lacksSlots_iff s _).2 hroom)]

/-- An UNLOCK without a credential that no check refuses. -/
theorem serveUnlockAbsent_opens (h : ¬ ∃ r ∈ set, guarded s r = true)
    (hb : ¬ ∃ r ∈ set, s.ranges[r].cond = .draining ∨ s.ranges[r].cond = .purging)
    (hroom : ¬ (emptyMediaSlots s).length < keyNeed s (lockedOf s set)) (hv : s.control.service.isSome = true) :
    serveUnlockAbsent s l =
      lockAnswer (unlockAll (holdKeys s (lockedOf s set)) none set (fun _ => .readWrite)) set := by
  simp only [serveUnlockAbsent, hset]
  rw [if_neg (mt List.any_eq_true.1 h), if_neg (mt (anyBusy_iff s set).1 hb), if_neg (mt (lacksSlots_iff s _).1 hroom)]
  refine carried_lockStates false set ?_
  rw [unlockAll_control, (holdKeys_held s _).frame]
  exact hv

end

theorem holdKeys_nil (s : State) : holdKeys s [] = s := by
  have h : wantedKeys s [] = [] := List.eq_nil_iff_forall_not_mem.2 fun x hx => List.not_mem_nil (mem_wantedKeys.1 hx).1
  rw [holdKeys_eq, h, List.foldl_nil]

/-- An UNLOCK of ranges that are OPEN, with no slot held. -/
theorem unlockAll_opened {s : State} {set : List RangeIx} (cred : Option CredIx) (access : RangeIx → Access)
    (ho : ∀ r ∈ set, s.ranges[r].lock = .opened) (hfree : ∀ k : SlotIx, s.slots[k].held = false) :
    unlockAll s cred set access = engine s := by
  unfold unlockAll
  rw [takeUp_none s _ hfree]
  have hfold : ∀ l ⊆ set, l.foldl (unlockRange cred access) s = s := fun l => by
    induction l with
    | nil => exact fun _ => rfl
    | cons r l ih =>
      intro hl
      obtain ⟨hr, hl⟩ := List.cons_subset.1 hl
      rw [List.foldl_cons, unlockRange_stays cred (by simp only [unlockedTo, ho r hr]), ih hl]
  rw [hfold set (List.Subset.refl set)]

theorem lockAnswer_all {s : State} {set : List RangeIx} {l : LockState} (h : ∀ r ∈ set, s.ranges[r].lock = l) :
    lockAnswer s set = respond s ⟨.done, .lockStates (set.map (fun _ => l))⟩ := by
  unfold lockAnswer
  rw [List.map_congr_left h]

/-! ## LOCK (R74, R75) -/

theorem Serves.exec_lock {s u : State} {b : RequestBlock} {l : List Nat} {c : Option CredIx} {d : Bool}
    (h : Serves s b (.lock l) false c u d) : exec .lock s = .next (serveLock u d l) := by
  simp only [exec, execLock, h.starts]
  rw [h.withProof]

theorem releaseOpt_withControl (s : State) (k : Control) (i : Option SlotIx) :
    releaseOpt (withControl s k) i = withControl (releaseOpt s i) k := by
  cases i <;> rfl

theorem releaseNames_withControl (s : State) (k : Control) (r : RangeIx) :
    releaseNames (withControl s k) r = withControl (releaseNames s r) k := by
  unfold releaseNames
  simp only [withControl_ranges, releaseOpt_withControl, modRange_withControl]

theorem lockJob_withControl (s : State) (k : Control) (r : RangeIx) :
    lockJob (withControl s k) r = withControl (lockJob s r) k := by
  unfold lockJob
  cases hj : rekeyOf s r with
  | none => simp [hj]
  | some j => cases hb : jobAt s j <;> simp [hj, hb, withControl_ite]

theorem lockRange_withControl (cause : LockCause) (s : State) (k : Control) (r : RangeIx) :
    lockRange cause (withControl s k) r = withControl (lockRange cause s r) k := by
  have hguard : guarded (withControl s k) r = guarded s r := rfl
  unfold lockRange
  simp only [hguard, releaseNames_withControl, modRange_withControl, withControl_ranges, lockJob_withControl, ← withControl_ite,
    raise_withControl]
  rfl

theorem lockProcedure_control (s : State) (set : List RangeIx) (cause : LockCause) :
    (lockProcedure s set cause).control = s.control :=
  control_of_withControl (f := fun s => lockProcedure s set cause)
    (fun s k => foldl_withControl s k (fun t r => lockRange_withControl cause t k r) _) s

/-- A range that has released its slots and is LOCKED. -/
def lockedNames (s : State) (r : RangeIx) : State := modRange (releaseNames s r) r (fun x => { x with lock := .locked })

theorem lockedNames_spec (s : State) (r : RangeIx) : (lockedNames s r).creds = s.creds ∧
    ∀ q : RangeIx, (lockedNames s r).ranges[q].active = s.ranges[q].active ∧
      (lockedNames s r).ranges[q].lock = if q = r then .locked else s.ranges[q].lock := by
  unfold lockedNames
  rw [(releaseNames_spec s r).1]
  refine ⟨rfl, fun q => ?_⟩
  rw [modRange_ranges]
  by_cases hq : q = r
  · subst hq
    simp
  · have hv : ¬ r.val = q.val := fun e => hq (Fin.ext e.symm)
    simp [hq, hv]

/-- The lock procedure on a range that is ACTIVE, guarded and not LOCKED. -/
theorem lockRange_spared (cause : LockCause) {s : State} {r : RangeIx}
    (h : (guarded s r && s.ranges[r].active && s.ranges[r].lock ≠ .locked) = true) :
    Spared (lockedNames s r) (lockRange cause s r) := by
  unfold lockRange
  rw [if_pos h]
  refine raise_spared ?_
  split
  · exact lockJob_spared Spared.refl
  · exact Spared.refl

/-- What the lock procedure on one range does: that range is LOCKED if it is ACTIVE and guarded, no range that was LOCKED ceases
to be, and grants and entries stand. -/
theorem lockRange_spec (cause : LockCause) (s : State) (r : RangeIx) :
    (lockRange cause s r).creds = s.creds ∧
    ∀ q : RangeIx, (lockRange cause s r).ranges[q].active = s.ranges[q].active ∧
      (s.ranges[q].lock = .locked ∨ (q = r ∧ guarded s r = true ∧ s.ranges[r].active = true) →
        (lockRange cause s r).ranges[q].lock = .locked) := by
  cases h : guarded s r && s.ranges[r].active && s.ranges[r].lock ≠ .locked with
  | true =>
    have hspared := lockRange_spared cause h
    obtain ⟨hcreds, hranges⟩ := lockedNames_spec s r
    refine ⟨hspared.creds.trans hcreds,
      fun q => ⟨(congrArg Prod.fst (hspared.ranges q)).trans (hranges q).1, fun hl => ?_⟩⟩
    rw [hspared.lock, (hranges q).2]
    rcases hl with hl | ⟨hq, -⟩
    · rw [hl, ite_self]
    · exact if_pos hq
  | false =>
    have hsame : lockRange cause s r = s := if_neg (by rw [h]; decide)
    rw [hsame]
    refine ⟨rfl, fun q => ⟨rfl, fun hl => ?_⟩⟩
    rcases hl with hl | ⟨rfl, hg, ha⟩
    · exact hl
    · simpa [hg, ha, -Fin.getElem_fin] using h

theorem foldl_lockRange_locks (cause : LockCause) (l : List RangeIx) (s : State) (r : RangeIx)
    (h : s.ranges[r].lock = .locked ∨ (r ∈ l ∧ guarded s r = true ∧ s.ranges[r].active = true)) :
    (l.foldl (lockRange cause) s).ranges[r].lock = .locked := by
  induction l generalizing s with
  | nil => exact h.elim id fun h => absurd h.1 List.not_mem_nil
  | cons q l ih =>
    obtain ⟨hcreds, hranges⟩ := lockRange_spec cause s q
    refine ih _ ?_
    rcases h with hl | ⟨hm, hg, ha⟩
    · exact .inl ((hranges r).2 (.inl hl))
    · rcases List.mem_cons.1 hm with rfl | hm
      · exact .inl ((hranges r).2 (.inr ⟨rfl, hg, ha⟩))
      · refine .inr ⟨hm, ?_, (hranges r).1.trans ha⟩
        unfold guarded at hg ⊢
        rw [hcreds]
        exact hg

/-- The lock procedure leaves every ACTIVE guarded range of its set LOCKED, and so does the engine. -/
theorem lockProcedure_locks {s : State} {set : List RangeIx} (cause : LockCause) {r : RangeIx} (hr : r ∈ set)
    (hg : guarded s r = true) (ha : s.ranges[r].active = true) :
    (engine (lockProcedure s set cause)).ranges[r].lock = .locked := by
  rw [(engine_spared Spared.refl).lock r]
  exact foldl_lockRange_locks cause _ s r (.inr ⟨by simpa [mem_allRanges] using hr, hg, ha⟩)

section
variable {s : State} {l : List Nat} {set : List RangeIx} (d : Bool) (hset : toRangeSet s l = some set)

theorem serveLock_illegal (h : toRangeSet s l = none) : serveLock s d l = refuse s d .badRequest := by
  simp only [serveLock, h]

include hset

theorem serveLock_unguarded (h : ∃ r ∈ set, guarded s r = false) : serveLock s d l = refuse s d .notPermitted := by
  simp only [serveLock, hset]
  exact if_pos (by simpa using h)

theorem serveLock_locks (h : ∀ r ∈ set, guarded s r = true) (hv : s.control.service.isSome = true) : serveLock s d l =
    answerAfter (engine (lockProcedure s set .request)) d ⟨.done, .lockStates (set.map (fun _ => LockState.locked))⟩ := by
  have hactive := toRangeSet_active hset
  have hlocks : set.map (fun r => (engine (lockProcedure s set .request)).ranges[r].lock) = set.map (fun _ => .locked) :=
    List.map_congr_left fun r hr => lockProcedure_locks .request hr (h r hr) (hactive r hr)
  have hservice : (engine (lockProcedure s set .request)).control.service.isSome = true := by
    rw [(engine_spared Spared.refl).control, lockProcedure_control]
    exact hv
  rw [← hlocks, ← carried_lockStates d set hservice]
  simp only [serveLock, hset]
  exact if_neg (by simpa using h)

end

/-- Settles O47: the checks of both requests, the load of the keys that are named at once, and the lock procedure. -/
theorem unlockAbsentAndLockFollowTheGuard : Obligations.UnlockAbsentAndLockFollowTheGuard := by
  intro s b l
  refine ⟨fun hstart hc => ?_, fun c u d h => ?_⟩
  · intro u
    have hv : u.control.service.isSome = true := endPrepared_service hstart
    rw [exec_unlockAbsent hstart hc]
    have hrefuse : ∀ st, refuse u false st = respond u ⟨st, .none⟩ := fun st => refuse_eq u false st hv
    refine ⟨fun hset => congrArg _ ((serveUnlockAbsent_illegal (s := u) hset).trans (hrefuse _)),
      fun set hset => ⟨fun hk => ?_, fun hk hb => ?_, fun hk hb hroom => ?_, fun hk hb ho hfree => ?_⟩,
      fun r i rest hset hg hcond hlock hslot hempty hfree hjob => ?_, fun set hset hall => ?_⟩
    · exact congrArg _ ((serveUnlockAbsent_guarded (s := u) hset hk).trans (hrefuse _))
    · exact congrArg _ ((serveUnlockAbsent_busy (s := u) hset hk hb).trans (hrefuse _))
    · exact congrArg _ ((serveUnlockAbsent_full (s := u) hset hk hb hroom).trans (hrefuse _))
    · have hnone : lockedOf u set = [] := List.filter_eq_nil_iff.2 fun r hr => by
        have hopen : u.ranges[r].lock = .opened := ho r hr
        simp [hopen, -Fin.getElem_fin]
      refine congrArg _ ((serveUnlockAbsent_opens (s := u) hset hk hb ?_ hv).trans ?_)
      · rw [hnone]
        exact Nat.not_lt_zero _
      · rw [hnone, holdKeys_nil, unlockAll_opened (s := u) none _ ho hfree]
        exact lockAnswer_all fun r hr => ((engine_spared Spared.refl).lock r).trans (ho r hr)
    · have hone : OneKey u r i :=
        ⟨toRangeSet_active (s := u) hset r (List.mem_singleton.2 rfl), hcond, hlock, hslot, ⟨rest, hempty⟩, hfree, hjob⟩
      have hneed : lockedOf u [r] = [r] := lockedOf_one hlock
      refine congrArg _ ((serveUnlockAbsent_opens (s := u) hset ?_ ?_ (by rw [hneed]; exact hone.room) hv).trans ?_)
      · rintro ⟨q, hq, hgq⟩
        rw [List.mem_singleton.1 hq] at hgq
        exact absurd (hg.symm.trans hgq) Bool.false_ne_true
      · rintro ⟨q, hq, hb⟩
        rw [List.mem_singleton.1 hq] at hb
        rcases hb with hb | hb <;> exact absurd (hcond.symm.trans hb) (by decide)
      · rw [hneed, hone.unlockAll none (unlockedTo_keyed .readWrite i hlock) (by decide), openedOne_answer]
        rfl
    · intro need hroom hfree hkeyless
      have hgoes := serveUnlockAbsent_opens (s := u) hset
        (fun ⟨r, hr, hg⟩ => absurd ((hall r hr).1.symm.trans hg) Bool.false_ne_true)
        (fun ⟨r, hr, hb⟩ => hb.elim (hall r hr).2.1 (hall r hr).2.2)
        (by rw [keyNeed_eq (lockedOf_nodup (s := u) hset)]; exact Nat.not_lt.2 hroom) hv
      refine ⟨_, (holdKeys_held u need).takeUp hroom hfree ⟨hkeyless.current, hkeyless.next, hkeyless.condition⟩, ?_⟩
      exact congrArg _ hgoes
  · rw [h.exec_lock]
    refine ⟨fun hset => ?_, fun set hset => ⟨fun hg => ?_, fun hg => ?_⟩⟩
    · rw [serveLock_illegal d hset, refuse_eq _ _ _ h.service]
    · rw [serveLock_unguarded d hset hg, refuse_eq _ _ _ h.service]
    · rw [serveLock_locks d hset hg h.service]

end Sys2Proof.Machine
end

section
/-! CRED.SET, CRED.DISABLE, CRED.ENABLE and CRED.BUDGET (R77, R78, R80, R83). -/

namespace Sys2Proof.Machine

/-! ## A change of a credential record takes effect (R77) -/

/-- A change that takes no grant away changes the record alone. -/
theorem credChanged_nil (s : State) (c : CredIx) (f : Cred → Cred) :
    credChanged s c f [] = { s with creds := s.creds.set c (f s.creds[c]) } := rfl

/-- A request that has a store write to make, and no refusal, waits for it. -/
theorem proceed_credOp (s : State) (d : Bool) (c : CredIx) (f : Cred → Cred) (a : After) :
    proceed s d [credOp s c f] a = stored s d [.cred c (credRecord (f s.creds[c]))] a :=
  proceed_stored s d _ a (.inr (List.cons_ne_nil _ _))

section
variable {t : State} {v : Service} (hv : t.control.service = some v)
include hv

theorem finish_credSet {k : CredIx} {w : Secret} (ha : v.after = .credSet k w) :
    finishService t = settled (credChanged t k (credSetTo w) []) none (some k) v .none := by
  unfold finishService
  rw [hv]
  dsimp only
  rw [ha]
  rfl

theorem finish_credDisable {k : CredIx} (ha : v.after = .credDisable k) :
    finishService t = settled (credChanged t k credDisabled []) none (some k) v .none := by
  unfold finishService
  rw [hv]
  dsimp only
  rw [ha]
  rfl

theorem finish_credEnable {k : CredIx} (ha : v.after = .credEnable k) :
    finishService t = settled (credChanged t k credEnabled []) none (some k) v .none := by
  unfold finishService
  rw [hv]
  dsimp only
  rw [ha]
  rfl

theorem finish_credBudget {k : CredIx} {n : Nat} (ha : v.after = .credBudget k n) :
    finishService t = settled (credChanged t k (credBudgetTo n) []) none (some k) v .none := by
  unfold finishService
  rw [hv]
  dsimp only
  rw [ha]
  rfl

end

/-- A request that changes a record alone settles it at its last write. -/
theorem LastWrite.changes {s t : State} {v : Service} {a : After} (h : LastWrite s v a t) {k : CredIx} {f : Cred → Cred}
    (hf : finishService t = settled (credChanged t k f []) none (some k) v .none) : exec .storeWriteCompletion s =
      .next (settled { t with creds := t.creds.set k (f t.creds[k]) } none (some k) v .none) :=
  h.settles hf h.startUp

/-! ## CRED.SET (R78) -/

theorem Serves.exec_credSet {s u : State} {b : RequestBlock} {n v : Nat} {c : Option CredIx} {d : Bool}
    (h : Serves s b (.credSet n v) true c u d) : exec .credSet s = .next (serveCredSet u c d n v) := by
  simp only [exec, execCredSet, h.starts]
  rw [h.withProof]

/-- The named credential may set the target's verifier (R78). -/
def MaySet (s : State) (named target : CredIx) : Prop :=
  named = 0 ∨ (named = target ∧ s.creds[target].state = .set) ∨ (named = 1 ∧ target = 0)

theorem maySet_iff (s : State) (named target : CredIx) : maySet s named target = true ↔ MaySet s named target := by
  simp [maySet, MaySet, or_assoc, -Fin.getElem_fin]

section
variable (s : State) (d : Bool) (v : Nat)

theorem serveCredSet_absent (n : Nat) : serveCredSet s none d n v = refuse s d .notPermitted := rfl

theorem serveCredSet_beyond {e : CredIx} {n : Nat} (hn : 8 ≤ n) : serveCredSet s (some e) d n v =
    if e = 0 then if s.control.frozen then refuse s d .frozen else refuse s d .badRequest else refuse s d .notPermitted := by
  unfold serveCredSet
  simp only [toIndex_of_le hn]
  by_cases he : e = 0 <;> simp [he]

theorem serveCredSet_target (e k : CredIx) : serveCredSet s (some e) d k.val v =
    if maySet s e k then
      if s.control.frozen then refuse s d .frozen
      else proceed s d [credOp s k (credSetTo (BitVec.ofNat 256 v))] (.credSet k (BitVec.ofNat 256 v))
    else refuse s d .notPermitted := by
  unfold serveCredSet
  simp only [toIndex_val]
  cases maySet s e k <;> rfl

theorem serveCredSet_owner_frozen (n : Nat) (hf : s.control.frozen = true) :
    serveCredSet s (some 0) d n v = refuse s d .frozen := by
  by_cases hn : 8 ≤ n
  · rw [serveCredSet_beyond s d v hn, if_pos rfl, if_pos hf]
  · have hk := serveCredSet_target s d v 0 ⟨n, Nat.not_le.1 hn⟩
    rwa [if_pos ((maySet_iff ..).2 (.inl rfl)), if_pos hf] at hk

end

theorem credRecord_credSetTo (w : Secret) (x : Cred) : credRecord (credSetTo w x) =
    ⟨if x.state = .disabled then .disabled else .set, some w, x.budget, x.grants⟩ := by
  unfold credRecord credSetTo
  by_cases hx : x.state = .disabled <;> simp [hx]

/-- Settles O48: the authority by the target, the frozen state, the write of the record, and its completion. -/
theorem credSetStoresTheVerifier : Obligations.CredSetStoresTheVerifier := by
  intro s b u d n
  refine ⟨?_, fun c v h => ⟨?_, ?_, ?_, ?_, ?_, ?_⟩, fun k v w t h => ?_⟩
  · rintro k c v rfl hf h hmay
    rw [h.exec_credSet, serveCredSet_target, if_pos ((maySet_iff ..).2 hmay), if_neg (by simp [hf]), proceed_credOp,
      credRecord_credSetTo]
  · rintro rfl
    rw [h.exec_credSet, serveCredSet_absent, refuse_eq _ _ _ h.service]
  · rintro e k rfl rfl h0 hk h1
    have hnot : ¬ MaySet u e k := fun hm => hm.elim h0 fun hm => hm.elim (fun hm => hk hm.1) h1
    rw [h.exec_credSet, serveCredSet_target, if_neg (mt (maySet_iff ..).1 hnot), refuse_eq _ _ _ h.service]
  · rintro e rfl h0 hn
    rw [h.exec_credSet, serveCredSet_beyond _ _ _ hn, if_neg h0, refuse_eq _ _ _ h.service]
  · rintro rfl hf
    rw [h.exec_credSet, serveCredSet_owner_frozen _ _ _ _ hf, refuse_eq _ _ _ h.service]
  · rintro e k rfl rfl hmay hf
    rw [h.exec_credSet, serveCredSet_target, if_pos ((maySet_iff ..).2 hmay), if_pos hf, refuse_eq _ _ _ h.service]
  · rintro rfl hf hn
    rw [h.exec_credSet, serveCredSet_beyond _ _ _ hn, if_pos rfl, if_neg (by simp [hf]), refuse_eq _ _ _ h.service]
  · exact h.changes (finish_credSet h.inService.1 h.inService.2)

/-! ## CRED.DISABLE and CRED.ENABLE (R80) -/

/-- What either request does after its proof check, with its record and what it goes on as. -/
def serveState (s : State) (d : Bool) (n : Nat) (f : Cred → Cred) (a : CredIx → After) : State :=
  match toTarget s n with
  | none => refuse s d .badRequest
  | some k => proceed s d [credOp s k f] (a k)

theorem serveState_beyond (s : State) (d : Bool) {n : Nat} (f : Cred → Cred) (a : CredIx → After) (hn : 8 ≤ n) :
    serveState s d n f a = refuse s d .badRequest := by
  simp only [serveState, toTarget, toIndex_of_le hn]

theorem serveState_target (s : State) (d : Bool) (k : CredIx) (f : Cred → Cred) (a : CredIx → After) :
    serveState s d k.val f a = if k = 0 ∨ s.creds[k].state = .empty then refuse s d .badRequest
      else stored s d [.cred k (credRecord (f s.creds[k]))] (a k) := by
  rw [← proceed_credOp]
  by_cases hk : k = 0 ∨ s.creds[k].state = .empty
  · have hillegal : toTarget s k.val = none := by
      simp only [toTarget, toIndex_val]
      exact if_pos (by simpa using hk)
    rw [if_pos hk]
    simp only [serveState, hillegal]
  · have hlegal : toTarget s k.val = some k := by
      simp only [toTarget, toIndex_val]
      exact if_neg (by simpa using hk)
    rw [if_neg hk]
    simp only [serveState, hlegal]

section
variable {s u : State} {b : RequestBlock} {n : Nat} {c : Option CredIx} {d : Bool}

theorem Serves.exec_credDisable (h : Serves s b (.credDisable n) true c u d) : exec .credDisable s =
    .next (Machine.ownerRequest (endPrepared s) b true (fun s d => serveState s d n credDisabled .credDisable)) := by
  simp only [exec, execCredDisable, h.starts]
  rfl

theorem Serves.exec_credEnable (h : Serves s b (.credEnable n) true c u d) : exec .credEnable s =
    .next (Machine.ownerRequest (endPrepared s) b true (fun s d => serveState s d n credEnabled .credEnable)) := by
  simp only [exec, execCredEnable, h.starts]
  rfl

/-- The three answers of a request that stores a state of its target. -/
theorem Serves.state_answers {r : Request} (h : Serves s b r true c u d) (f : Cred → Cred) (a : CredIx → After) {x : Instr}
    (hx : exec x s = .next (Machine.ownerRequest (endPrepared s) b true (fun s d => serveState s d n f a))) :
    (c ≠ some 0 → exec x s = .next (refusedWith u d .notPermitted)) ∧
    (c = some 0 → u.control.frozen = false → 8 ≤ n → exec x s = .next (refusedWith u d .badRequest)) ∧
    (∀ k : CredIx, n = k.val → c = some 0 → u.control.frozen = false → exec x s = .next
      (if k = 0 ∨ u.creds[k].state = .empty then refusedWith u d .badRequest
      else stored u d [.cred k (credRecord (f u.creds[k]))] (a k))) := by
  rw [hx]
  refine ⟨fun hc => by rw [h.ownerRequest_other hc], ?_, ?_⟩
  · rintro rfl hf hn
    rw [h.ownerRequest (by simp [hf]), serveState_beyond _ _ _ _ hn, refuse_eq _ _ _ h.service]
  · rintro k rfl rfl hf
    rw [h.ownerRequest (by simp [hf]), serveState_target, refuse_eq _ _ _ h.service]

end

/-- A record that keeps its grants, and is EMPTY neither before nor after, guards what it did. -/
theorem guarded_of_kept {t : State} {k : CredIx} {y : Cred} (hx : t.creds[k].state ≠ .empty) (hy : y.state ≠ .empty)
    (hg : y.grants = t.creds[k].grants) (r : RangeIx) : guarded { t with creds := t.creds.set k y } r = guarded t r := by
  unfold guarded
  congr 1
  funext c
  by_cases hc : c = k
  · subst hc
    have hget : (t.creds.set c y)[c] = y := by simp
    simp [guards, grantOf, hget, hx, hy, hg, -Fin.getElem_fin]
  · have hv : ¬ k.val = c.val := fun e => hc (Fin.ext e.symm)
    simp [hv]

/-- Settles O49: both requests by their target, the completions, and the guard that either leaves. -/
theorem credDisableAndEnableChangeTheState : Obligations.CredDisableAndEnableChangeTheState := by
  intro s b c u d n
  refine ⟨fun h => h.state_answers credDisabled .credDisable h.exec_credDisable,
    fun h => h.state_answers credEnabled .credEnable h.exec_credEnable, fun k v t => ?_⟩
  intro x changed disabled enabled
  exact ⟨fun h => h.changes (finish_credDisable h.inService.1 h.inService.2),
    fun h => h.changes (finish_credEnable h.inService.1 h.inService.2),
    fun hx r => ⟨guarded_of_kept (y := credDisabled x) hx nofun rfl r, guarded_of_kept (y := credEnabled x) hx nofun rfl r⟩⟩

/-! ## CRED.BUDGET (R83) -/

theorem Serves.exec_credBudget {s u : State} {b : RequestBlock} {n m : Nat} {c : Option CredIx} {d : Bool}
    (h : Serves s b (.credBudget n m) true c u d) : exec .credBudget s =
      .next (Machine.ownerRequest (endPrepared s) b true (fun s d => serveCredBudget s d n m)) := by
  simp only [exec, execCredBudget, h.starts]

theorem serveCredBudget_illegal (s : State) (d : Bool) {n m : Nat} (h : 8 ≤ n ∨ m < 1 ∨ 15 < m) :
    serveCredBudget s d n m = refuse s d .badRequest := by
  unfold serveCredBudget
  by_cases hn : 8 ≤ n
  · simp only [toIndex_of_le hn]
  · have hi : toIndex 8 n = some ⟨n, Nat.not_le.1 hn⟩ := dif_pos _
    simp only [hi]
    exact if_neg (by simp only [Bool.and_eq_true, decide_eq_true_eq]; omega)

theorem serveCredBudget_legal (s : State) (d : Bool) (k : CredIx) {m : Nat} (h1 : 1 ≤ m) (h15 : m ≤ 15) :
    serveCredBudget s d k.val m = stored s d [.cred k (credRecord (credBudgetTo m s.creds[k]))] (.credBudget k m) := by
  rw [← proceed_credOp]
  simp only [serveCredBudget, toIndex_val]
  exact if_pos (by simp [h1, h15])

theorem credRecord_credBudgetTo (m : Nat) (x : Cred) : credRecord (credBudgetTo m x) =
    ⟨if x.state = .exhausted then .set else x.state, x.verifier, m, x.grants⟩ := by
  unfold credRecord credBudgetTo
  by_cases hx : x.state = .exhausted <;> simp [hx]

/-- Settles O50: the checks, the write of the record, and its completion. -/
theorem credBudgetSetsBudgetAndTries : Obligations.CredBudgetSetsBudgetAndTries := by
  intro s b c u d n m
  refine ⟨fun h => ⟨fun hc => ?_, ?_, ?_⟩, fun k v t h => h.changes (finish_credBudget h.inService.1 h.inService.2)⟩
  · rw [h.exec_credBudget, h.ownerRequest_other hc]
  · rintro rfl hf hbad
    rw [h.exec_credBudget, h.ownerRequest (by simp [hf]), serveCredBudget_illegal _ _ hbad, refuse_eq _ _ _ h.service]
  · rintro k rfl rfl hf h1 h15
    rw [h.exec_credBudget, h.ownerRequest (by simp [hf]), serveCredBudget_legal _ _ _ h1 h15, credRecord_credBudgetTo]

end Sys2Proof.Machine
end

section
/-! CRED.GRANT, CRED.REVOKE and CRED.CLEAR, and the ranges that lose their guard (R33, R79, R81, R82). -/

namespace Sys2Proof.Machine

/-! ## Grants -/

theorem grantOf_eq_none_iff {c : Cred} {r : RangeIx} : grantOf c r = none ↔ ∀ g ∈ c.grants, g.range ≠ r := by
  simp [grantOf]

theorem grantOf_isSome_iff {c : Cred} {r : RangeIx} : (grantOf c r).isSome = true ↔ ∃ g ∈ c.grants, g.range = r := by
  simp [grantOf]

theorem withGrant_new {l : List Grant} {r : RangeIx} (a : Access) (h : ∀ g ∈ l, g.range ≠ r) :
    withGrant l r a = l ++ [⟨r, a⟩] := if_neg (by simpa using h)

theorem withGrant_held {l : List Grant} {r : RangeIx} (a : Access) (h : ∃ g ∈ l, g.range = r) :
    withGrant l r a = l.map (fun g => if g.range = r then ⟨r, a⟩ else g) := by
  unfold withGrant
  rw [if_pos (by simpa using h)]
  refine List.map_congr_left fun g _ => ?_
  by_cases hg : g.range = r
  · rw [if_pos hg, if_pos hg, hg]
  · rw [if_neg hg, if_neg hg]

/-! ## The loss of a guard (R33, R79) -/

/-- A credential without its grants guards nothing: the other credentials' guard is left. -/
theorem guarded_ungranted (s : State) (k : CredIx) (r : RangeIx) :
    guarded { s with creds := s.creds.set k { s.creds[k] with grants := [] } } r = guardedWithout s k r := by
  unfold guarded guardedWithout
  congr 1
  funext c
  by_cases hc : c = k
  · subst hc
    simp [guards, grantOf]
  · have hv : ¬ k.val = c.val := fun e => hc (Fin.ext e.symm)
    simp [hc, hv]

theorem guarded_eq (s : State) (k : CredIx) (r : RangeIx) : guarded s r = (guards s.creds[k] r || guardedWithout s k r) := by
  unfold guarded guardedWithout
  rw [Bool.eq_iff_iff]
  simp only [List.any_eq_true, Bool.or_eq_true, Bool.and_eq_true, decide_eq_true_eq]
  constructor
  · rintro ⟨c, -, hc⟩
    by_cases hk : c = k
    · exact .inl (hk ▸ hc)
    · exact .inr ⟨c, mem_allCreds c, hk, hc⟩
  · rintro (h | ⟨c, hc, -, h⟩)
    · exact ⟨k, mem_allCreds k, h⟩
    · exact ⟨c, hc, h⟩

theorem openedByLoss_eq (s : State) (k : CredIx) (l : List RangeIx) :
    openedByLoss s k l = l.filter (fun r => s.ranges[r].active && s.ranges[r].lock = .locked &&
      s.ranges[r].cond ≠ .draining && guarded s r &&
      !guarded { s with creds := s.creds.set k { s.creds[k] with grants := [] } } r) := by
  unfold openedByLoss
  refine List.filter_congr fun r _ => ?_
  rw [guarded_ungranted, guarded_eq s k r]
  cases guards s.creds[k] r <;> cases guardedWithout s k r <;> cases s.ranges[r].active <;>
    simp [Bool.and_comm, -Fin.getElem_fin]

/-- A range opens on the loss of its guard if it is left unguarded, is not DRAINING and names its keys (R33). -/
def OpensByLoss (s : State) (r : RangeIx) : Prop :=
  s.ranges[r].active = true ∧ guarded s r = false ∧ s.ranges[r].cond ≠ .draining ∧ s.ranges[r].lock ≠ .opened ∧
    s.ranges[r].slot.isSome = true

theorem opensByLoss_iff (s : State) (r : RangeIx) : (s.ranges[r].active && !guarded s r && s.ranges[r].cond ≠ .draining &&
    s.ranges[r].lock ≠ .opened && s.ranges[r].slot.isSome) = true ↔ OpensByLoss s r := by
  simp [OpensByLoss, and_assoc, -Fin.getElem_fin]

theorem openIfUnguarded_opens {s : State} {r : RangeIx} (h : OpensByLoss s r) : openIfUnguarded s r =
    returnUnlocked { s with ranges := s.ranges.set r { s.ranges[r] with lock := .opened } } r :=
  if_pos ((opensByLoss_iff s r).2 h)

theorem openIfUnguarded_stays {s : State} {r : RangeIx} (h : ¬ OpensByLoss s r) : openIfUnguarded s r = s :=
  if_neg (mt (opensByLoss_iff s r).1 h)

theorem foldl_openIfUnguarded_startUp (l : List RangeIx) {s : State} (h : s.startUp = none) :
    (l.foldl openIfUnguarded s).startUp = none := by
  induction l generalizing s with
  | nil => exact h
  | cons r l ih => exact ih (openIfUnguarded_startUp r h)

/-- A change that takes grants away takes up the held keys and opens the ranges that are left unguarded (R33, R54, R77). -/
theorem credChanged_cons (s : State) (c : CredIx) (f : Cred → Cred) (r : RangeIx) (l : List RangeIx) :
    credChanged s c f (r :: l) =
      engine ((r :: l).foldl openIfUnguarded (takeUp { s with creds := s.creds.set c (f s.creds[c]) } (fun _ => true))) := rfl

theorem credChanged_startUp {s : State} (c : CredIx) (f : Cred → Cred) (l : List RangeIx) (h : s.startUp = none) :
    (credChanged s c f l).startUp = none := by
  cases l with
  | nil => exact h
  | cons r l =>
    rw [credChanged_cons]
    exact engine_startUp (foldl_openIfUnguarded_startUp _ (by rw [takeUp_startUp]; exact h))

/-! ## The requests -/

section
variable {s u : State} {b : RequestBlock} {n m a : Nat} {d : Bool}

theorem Serves.exec_credGrant (h : Serves s b (.credGrant n m a) true (some 0) u d) (hf : u.control.frozen = false) :
    exec .credGrant s = .next (serveCredGrant u d n m a) := by
  simp only [exec, execCredGrant, h.starts]
  rw [h.ownerRequest (by simp [hf])]

theorem Serves.exec_credRevoke (h : Serves s b (.credRevoke n m) true (some 0) u d) (hf : u.control.frozen = false) :
    exec .credRevoke s = .next (serveCredRevoke u d n m) := by
  simp only [exec, execCredRevoke, h.starts]
  rw [h.ownerRequest (by simp [hf])]

theorem Serves.exec_credClear (h : Serves s b (.credClear n) true (some 0) u d) (hf : u.control.frozen = false) :
    exec .credClear s = .next (serveCredClear u d n) := by
  simp only [exec, execCredClear, h.starts]
  rw [h.ownerRequest (by simp [hf])]

end

section
variable (s : State) (d : Bool) (k : CredIx) (r : RangeIx)

theorem toAccess_of_lt {a : Nat} (h : 1 < a) : toAccess a = none := by
  obtain ⟨a, rfl⟩ := Nat.exists_eq_add_of_lt h
  rw [show 1 + a + 1 = a + 2 from by omega]
  rfl

theorem toAccess_of_le {a : Nat} (h : a ≤ 1) : toAccess a = some (if a = 0 then .read else .readWrite) := by
  rcases Nat.le_one_iff_eq_zero_or_eq_one.1 h with rfl | rfl <;> rfl

/-- CRED.GRANT of an access that the format knows. -/
theorem serveCredGrant_eq {a : Nat} {access : Access} (ha : toAccess a = some access) : serveCredGrant s d k.val r.val a =
    if s.creds[k].state = .empty ∨ s.ranges[r].active = false then refuse s d .badRequest
    else if k = 1 ∧ s.ranges[r].flags.recoveryBarred = true then refuse s d .notPermitted
    else stored s d [.cred k (credRecord { s.creds[k] with grants := withGrant s.creds[k].grants r access })]
      (.credGrant k r access) := by
  rw [← proceed_credOp s d k (fun x => { x with grants := withGrant x.grants r access })]
  simp only [serveCredGrant, toIndex_val, ha]
  exact if_congr (by simp) rfl (if_congr (by simp) rfl rfl)

theorem serveCredGrant_illegal {n m a : Nat} (h : 8 ≤ n ∨ 16 ≤ m ∨ 1 < a) :
    serveCredGrant s d n m a = refuse s d .badRequest := by
  unfold serveCredGrant
  rcases h with h | h | h
  · simp only [toIndex_of_le h]
  · rw [toIndex_of_le h]
    cases toIndex 8 n <;> rfl
  · rw [toAccess_of_lt h]
    cases toIndex 8 n <;> cases toIndex 16 m <;> rfl

theorem serveCredRevoke_eq : serveCredRevoke s d k.val r.val =
    if grantOf s.creds[k] r = none then refuse s d .badRequest
    else if (emptyMediaSlots s).length < keyNeed s (openedByLoss s k [r]) then refuse s d .slotsExhausted
    else proceed (holdKeys s (openedByLoss s k [r])) d
      [credOp s k (fun x => { x with grants := withoutGrant x.grants r })] (.credRevoke k r) := by
  simp only [serveCredRevoke, toIndex_val]
  exact if_congr (by simp) rfl (if_congr (lacksSlots_iff s _) rfl rfl)

theorem serveCredRevoke_illegal {n m : Nat} (h : 8 ≤ n ∨ 16 ≤ m) : serveCredRevoke s d n m = refuse s d .badRequest := by
  unfold serveCredRevoke
  rcases h with h | h
  · simp only [toIndex_of_le h]
  · rw [toIndex_of_le h]
    cases toIndex 8 n <;> rfl

theorem serveCredClear_eq : serveCredClear s d k.val =
    if (emptyMediaSlots s).length < keyNeed s (openedByLoss s k (s.creds[k].grants.map (·.range))) then
      refuse s d .slotsExhausted
    else proceed (holdKeys s (openedByLoss s k (s.creds[k].grants.map (·.range)))) d [credOp s k credCleared]
      (.credClear k) := by
  simp only [serveCredClear, toIndex_val]
  exact if_congr (lacksSlots_iff s _) rfl rfl

theorem serveCredClear_illegal {n : Nat} (h : 8 ≤ n) : serveCredClear s d n = refuse s d .badRequest := by
  simp only [serveCredClear, toIndex_of_le h]

end

/-! ## The completions -/

section
variable {t : State} {v : Service} {k : CredIx} (hv : t.control.service = some v)
include hv

theorem finish_credGrant {r : RangeIx} {a : Access} (ha : v.after = .credGrant k r a) : finishService t =
    settled (credChanged t k (fun x => { x with grants := withGrant x.grants r a }) []) none (some k) v .none := by
  unfold finishService
  rw [hv]
  dsimp only
  rw [ha]
  rfl

theorem finish_credRevoke {r : RangeIx} (ha : v.after = .credRevoke k r) : finishService t =
    settled (credChanged t k (fun x => { x with grants := withoutGrant x.grants r }) [r]) none (some k) v .none := by
  unfold finishService
  rw [hv]
  dsimp only
  rw [ha]
  rfl

theorem finish_credClear (ha : v.after = .credClear k) : finishService t =
    settled (credChanged t k credCleared (t.creds[k].grants.map (·.range))) none (some k) v .none := by
  unfold finishService
  rw [hv]
  dsimp only
  rw [ha]
  rfl

end

section
variable {s t : State} {v : Service} {k : CredIx} {r : RangeIx}

theorem LastWrite.credGrant_settles {a : Access} (h : LastWrite s v (.credGrant k r a) t) : exec .storeWriteCompletion s =
    .next (settled { t with creds := t.creds.set k { t.creds[k] with grants := withGrant t.creds[k].grants r a } }
      none (some k) v .none) :=
  h.changes (finish_credGrant h.inService.1 h.inService.2)

theorem LastWrite.credRevoke_settles (h : LastWrite s v (.credRevoke k r) t) : exec .storeWriteCompletion s =
    .next (settled (credChanged t k (fun x => { x with grants := withoutGrant x.grants r }) [r]) none (some k) v .none) :=
  h.settles (finish_credRevoke h.inService.1 h.inService.2) (credChanged_startUp _ _ _ h.startUp)

theorem LastWrite.credClear_settles (h : LastWrite s v (.credClear k) t) : exec .storeWriteCompletion s =
    .next (settled (credChanged t k credCleared (t.creds[k].grants.map (·.range))) none (some k) v .none) :=
  h.settles (finish_credClear h.inService.1 h.inService.2) (credChanged_startUp _ _ _ h.startUp)

end

/-- Settles O51: the three requests by their parameters, the ranges that lose their guard, and the completions. -/
theorem grantsFollowTheirRequests : Obligations.GrantsFollowTheirRequests := by
  intro s b u d
  refine ⟨?_, fun n hn hf => ⟨fun h => ?_, fun m h => ?_, fun m a h => ?_⟩,
    fun n m hm hf => ⟨fun h => ?_, fun a h => ?_⟩,
    fun k l => openedByLoss_eq s k l, fun k r v t => ?_⟩
  · rintro k r n m rfl rfl hf x record kept
    refine ⟨fun a h ha hx hr hbar => ?_, fun a h => ⟨fun hbad => ?_, fun ha hx hr hk hbar => ?_⟩, fun h => ?_,
      fun h => ?_⟩
    · intro access
      have hacc : toAccess a = some access := toAccess_of_le (by omega)
      have hlegal : ¬ (u.creds[k].state = .empty ∨ u.ranges[r].active = false) := fun e =>
        e.elim hx fun e => Bool.false_ne_true (e.symm.trans hr)
      rw [h.exec_credGrant hf, serveCredGrant_eq u d k r hacc, if_neg hlegal, if_neg hbar]
      exact ⟨fun hnew => by rw [withGrant_new access hnew]; rfl, fun hheld => by rw [withGrant_held access hheld]; rfl⟩
    · rw [h.exec_credGrant hf, ← refuse_eq _ _ _ h.service]
      rcases Nat.lt_or_ge 1 a with ha | ha
      · rw [serveCredGrant_illegal u d (.inr (.inr ha))]
      · rw [serveCredGrant_eq u d k r (toAccess_of_le ha), if_pos (hbad.resolve_left (Nat.not_lt.2 ha))]
    · have hlegal : ¬ (u.creds[k].state = .empty ∨ u.ranges[r].active = false) := fun e =>
        e.elim hx fun e => Bool.false_ne_true (e.symm.trans hr)
      rw [h.exec_credGrant hf, serveCredGrant_eq u d k r (toAccess_of_le ha), if_neg hlegal, if_pos ⟨hk, hbar⟩,
        refuse_eq _ _ _ h.service]
    · intro need cut
      rw [h.exec_credRevoke hf, serveCredRevoke_eq]
      refine ⟨fun hnone => ?_, fun hsome hroom => ?_, fun hsome hroom => ?_⟩
      · rw [if_pos (grantOf_eq_none_iff.2 hnone), refuse_eq _ _ _ h.service]
      · rw [if_neg (Option.isSome_iff_ne_none.1 (grantOf_isSome_iff.2 hsome)), if_pos hroom, refuse_eq _ _ _ h.service]
      · rw [if_neg (Option.isSome_iff_ne_none.1 (grantOf_isSome_iff.2 hsome)), if_neg (Nat.not_lt.2 hroom),
          proceed_stored _ _ _ _ (.inr (List.cons_ne_nil _ _))]
        rfl
    · intro need
      rw [h.exec_credClear hf, serveCredClear_eq]
      refine ⟨fun hroom => ?_, fun hroom => ?_⟩
      · rw [if_pos hroom, refuse_eq _ _ _ h.service]
      · rw [if_neg (Nat.not_lt.2 hroom), proceed_stored _ _ _ _ (.inr (List.cons_ne_nil _ _))]
        rfl
  · rw [h.exec_credClear hf, serveCredClear_illegal u d hn, refuse_eq _ _ _ h.service]
  · rw [h.exec_credRevoke hf, serveCredRevoke_illegal u d (.inl hn), refuse_eq _ _ _ h.service]
  · rw [h.exec_credGrant hf, serveCredGrant_illegal u d (.inl hn), refuse_eq _ _ _ h.service]
  · rw [h.exec_credRevoke hf, serveCredRevoke_illegal u d (.inr hm), refuse_eq _ _ _ h.service]
  · rw [h.exec_credGrant hf, serveCredGrant_illegal u d (.inr (.inl hm)), refuse_eq _ _ _ h.service]
  · intro x put
    refine ⟨fun a h hnew => ?_, fun a h hheld => ?_, fun h => ?_, fun h hnone => ?_, fun g gs h hsome => ?_, ?_⟩
    · rw [h.credGrant_settles, withGrant_new a hnew]
    · rw [h.credGrant_settles, withGrant_held a hheld]
    · rw [h.credRevoke_settles, credChanged_one]
      rfl
    · have hl : t.creds[k].grants = [] := hnone
      rw [h.credClear_settles, hl, List.map_nil, credChanged_nil]
      rfl
    · have hl : t.creds[k].grants = g :: gs := hsome
      rw [h.credClear_settles, hl, List.map_cons, credChanged_cons]
      rfl
    · exact ⟨openIfUnguarded_opens, openIfUnguarded_stays⟩

end Sys2Proof.Machine
end

section
/-! CEILING.SET, RESERVE.OPEN, RESERVE.CLOSE and PBW.SET (R90, R91, R94, R95, R100). -/

namespace Sys2Proof.Machine

/-! ## What each does at its end -/

section
variable {t : State} {v : Service} (hv : t.control.service = some v)
include hv

theorem finish_ceiling_temporary {n : Nat} (ha : v.after = .ceiling n false) : finishService t =
    settled { t with regions := { t.regions with c := n } } none none v (.ceiling n) := by
  unfold finishService
  rw [hv]
  dsimp only
  rw [ha]
  rfl

theorem finish_ceiling_persistent {n : Nat} (ha : v.after = .ceiling n true) : finishService t = settled
    { t with dev := { t.dev with ceiling := n }, regions := { t.regions with c := n, persistentWritten := true } }
    none none v (.ceiling n) := by
  unfold finishService
  rw [hv]
  dsimp only
  rw [ha]
  rfl

theorem finish_reserve (ha : v.after = .reserve) :
    finishService t = respond t ⟨.done, .reserve t.regions.reserveView⟩ := by
  unfold finishService
  rw [hv]
  dsimp only
  rw [ha]

theorem finish_pbw {len : Nat} {enable write : Bool} (ha : v.after = .pbw len enable write) :
    let w := { t with dev := { t.dev with pbwLen := len, pbwEnabled := enable }
                      regions := { t.regions with writeOpen := write && v.tag.isSome && !t.sleepLine } }
    finishService t = settled w none none v (.pbw len enable w.regions.writeOpen (windowOpen w)) := by
  intro w
  unfold finishService
  rw [hv]
  dsimp only
  rw [ha]
  rfl

end

/-! ## CEILING.SET (R90, R91) -/

section
variable {s u : State} {b : RequestBlock} {d : Bool}

theorem Serves.exec_ceilingSet {n mode : Nat} (h : Serves s b (.ceilingSet n mode) true (some 0) u d)
    (hf : u.control.frozen = false) : exec .ceilingSet s = .next (serveCeiling u d n mode) := by
  simp only [exec, execCeilingSet, h.starts]
  rw [h.ownerRequest (by simp [hf])]

/-- The request in service is that of the checks. -/
theorem Serves.block {r : Request} {owner : Bool} {c : Option CredIx} (h : Serves s b r owner c u d) :
    ∃ v, u.control.service = some v ∧ v.block = b := by
  obtain ⟨v, hv, -, hb, -⟩ := starting_service s _ h.starts
  obtain ⟨m, -, rfl, -⟩ := h.passes
  refine ⟨v, ?_, hb⟩
  rw [passedState_control]
  exact hv

end

theorem serveCeiling_illegal (s : State) (d : Bool) {n mode : Nat} (h : n < 1 ∨ s.regions.u < n ∨ 1 < mode) :
    serveCeiling s d n mode = refuse s d .badRequest := by
  unfold serveCeiling
  by_cases hn : n < 1 ∨ s.regions.u < n
  · exact if_pos (by simpa using hn)
  · rw [if_neg (by simpa using hn)]
    match mode, h with
    | 0, h => exact absurd h (by omega)
    | 1, h => exact absurd h (by omega)
    | _ + 2, _ => rfl

section
variable (s : State) (d : Bool) {n : Nat} (h1 : 1 ≤ n) (hu : n ≤ s.regions.u)
include h1 hu

theorem serveCeiling_temporary : serveCeiling s d n 0 = proceed s d [] (.ceiling n false) :=
  if_neg (by simp only [Bool.or_eq_true, decide_eq_true_eq]; omega)

theorem serveCeiling_persistent : serveCeiling s d n 1 =
    if s.regions.persistentWritten then refuse s d .alreadySet
    else proceed s d [.device { ceiling := some n }] (.ceiling n true) :=
  if_neg (by simp only [Bool.or_eq_true, decide_eq_true_eq]; omega)

end

/-- A temporary ceiling with no write to wait for is in force at once. -/
theorem proceed_ceiling {s : State} {v : Service} (n : Nat) (hv : s.control.service = some v) :
    proceed s false [] (.ceiling n false) = respond
      (raise { s with regions := { s.regions with c := n } } { kind := .configChanged, detail := .code v.block.code })
      ⟨.done, .ceiling n⟩ := by
  rw [proceed_now, finish_ceiling_temporary (setAfter_service _ hv) rfl]
  have hraise := setAfter_of_withControl (f := fun s => raise s { kind := .configChanged, detail := .code v.block.code })
    (fun s k => raise_withControl s k _) { s with regions := { s.regions with c := n } } (.ceiling n false)
  exact (congrArg (respond · ⟨.done, .ceiling n⟩) hraise).trans (respond_setAfter _ _ _)

/-! ## RESERVE.OPEN and RESERVE.CLOSE (R94, R95) -/

/-- The named credential may open the reserve view (R94). -/
def MayOpenReserve (s : State) (c : Option CredIx) : Prop :=
  c = some 0 ∨ c = some 1 ∨ ∃ e : CredIx, c = some e ∧ ∃ r : RangeIx, r ≠ 0 ∧ s.ranges[r].active = true ∧
    (grantOf s.creds[e] r).isSome = true ∧ s.regions.c ≤ s.ranges[r].start ∧
    s.ranges[r].start + s.ranges[r].len ≤ s.regions.u

theorem mayOpenReserve_iff (s : State) (c : Option CredIx) : mayOpenReserve s c = true ↔ MayOpenReserve s c := by
  cases c with
  | none => simp [mayOpenReserve, MayOpenReserve]
  | some e => simp [mayOpenReserve, MayOpenReserve, grantInReserve, mem_definedRanges, or_assoc, and_assoc, -Fin.getElem_fin]

/-- The state in which RESERVE.OPEN is answered: the view is open unless the sleep request line is high. -/
def reserveOpened (s : State) : State := { s with regions := { s.regions with reserveView := !s.sleepLine } }

theorem Serves.exec_reserveOpen {s u : State} {b : RequestBlock} {c : Option CredIx} {d : Bool}
    (h : Serves s b .reserveOpen true c u d) : exec .reserveOpen s = .next (serveReserveOpen u c d) := by
  simp only [exec, execReserveOpen, h.starts]
  rw [h.withProof]

theorem serveReserveOpen_refused {s : State} {c : Option CredIx} (d : Bool) (h : ¬ MayOpenReserve s c) :
    serveReserveOpen s c d = refuse s d .notPermitted := if_pos (by simpa using mt (mayOpenReserve_iff s c).1 h)

theorem serveReserveOpen_opens {s : State} {c : Option CredIx} (d : Bool) (h : MayOpenReserve s c) :
    serveReserveOpen s c d = proceed (reserveOpened s) d [] .reserve := if_neg (by simpa using (mayOpenReserve_iff s c).2 h)

theorem proceed_reserve {s : State} (h : s.control.service.isSome = true) :
    proceed s false [] .reserve = respond s ⟨.done, .reserve s.regions.reserveView⟩ := by
  obtain ⟨v, hv⟩ := Option.isSome_iff_exists.1 h
  rw [proceed_now, finish_reserve (setAfter_service _ hv) rfl]
  exact respond_setAfter s .reserve _

theorem Serves.exec_reserveClose {s u : State} {b : RequestBlock} {d : Bool} (h : Serves s b .reserveClose true (some 0) u d) :
    exec .reserveClose s =
      .next (answerAfter { u with regions := { u.regions with reserveView := false } } d ⟨.done, .none⟩) := by
  simp only [exec, execReserveClose, h.starts]
  rw [h.ownerRequest rfl]
  exact congrArg _ (carried_eq _ d .none h.service)

/-! ## PBW.SET (R100) -/

theorem toYesNo_of_le {n : Nat} (h : n ≤ 1) : toYesNo n = some (decide (n = 1)) := by
  rcases Nat.le_one_iff_eq_zero_or_eq_one.1 h with rfl | rfl <;> rfl

theorem toYesNo_of_lt {n : Nat} (h : 1 < n) : toYesNo n = none := by
  match n, h with
  | _ + 2, _ => rfl

/-- The parameters of PBW.SET are lawful (R100). -/
def LawfulPbw (len enable write : Nat) : Prop := len ≤ 32768 ∧ len % 8 = 0 ∧ enable ≤ 1 ∧ write ≤ 1

theorem servePbw_illegal (s : State) (d : Bool) {len enable write : Nat} (h : ¬ LawfulPbw len enable write) :
    servePbw s d len enable write = refuse s d .badRequest := by
  unfold servePbw
  rcases Nat.lt_or_ge 1 enable with he | he
  · rw [toYesNo_of_lt he]
  · rcases Nat.lt_or_ge 1 write with hw | hw
    · rw [toYesNo_of_lt hw]
      cases toYesNo enable <;> rfl
    · rw [toYesNo_of_le he, toYesNo_of_le hw]
      refine if_pos ?_
      simp only [Bool.or_eq_true, decide_eq_true_eq]
      unfold LawfulPbw at h
      omega

theorem servePbw_lawful (s : State) (d : Bool) {len enable write : Nat} (h : LawfulPbw len enable write) :
    servePbw s d len enable write = stored s d [.device { pbw := some (len, decide (enable = 1)) }]
      (.pbw len (decide (enable = 1)) (decide (write = 1))) := by
  obtain ⟨hlen, hmod, he, hw⟩ := h
  rw [← proceed_stored s d _ _ (.inr (List.cons_ne_nil _ _))]
  unfold servePbw
  rw [toYesNo_of_le he, toYesNo_of_le hw]
  refine if_neg ?_
  simp only [Bool.or_eq_true, decide_eq_true_eq]
  omega

theorem Serves.exec_pbwSet {s u : State} {b : RequestBlock} {d : Bool} {len enable write : Nat}
    (h : Serves s b (.pbwSet len enable write) true (some 0) u d) (hf : u.control.frozen = false) :
    exec .pbwSet s = .next (servePbw u d len enable write) := by
  simp only [exec, execPbwSet, h.starts]
  rw [h.ownerRequest (by simp [hf])]

/-- Settles O55: each request by its parameters, and what each does at the completion of its write. -/
theorem regionRequestsMoveTheirBounds : Obligations.RegionRequestsMoveTheirBounds := by
  intro s b c u d
  refine ⟨fun n mode h hf => ?_, fun h => ?_, fun h => h.exec_reserveClose, fun len enable write h hf => ?_,
    fun v t => ⟨fun h => ?_, fun n h => ?_, fun n h => ?_, fun len enable write h => ?_⟩⟩
  · intro e
    rw [h.exec_ceilingSet hf]
    refine ⟨fun hbad => ?_, fun h1 hn => ⟨?_, ?_, ?_, ?_⟩⟩
    · rw [serveCeiling_illegal u d hbad, refuse_eq _ _ _ h.service]
    · rintro rfl hd
      rw [serveCeiling_temporary u d h1 hn, hd, proceed_stored _ _ _ _ (.inl rfl)]
    · rintro rfl hd
      obtain ⟨v, hv, hb⟩ := h.block
      rw [serveCeiling_temporary u d h1 hn, hd, proceed_ceiling n hv, hb]
    · rintro rfl hw
      rw [serveCeiling_persistent u d h1 hn, if_pos hw, refuse_eq _ _ _ h.service]
    · rintro rfl hw
      rw [serveCeiling_persistent u d h1 hn, if_neg (by simp [hw]), proceed_stored _ _ _ _ (.inr (List.cons_ne_nil _ _))]
  · intro may
    rw [h.exec_reserveOpen]
    refine ⟨fun hmay => ?_, fun hmay hd => ?_, fun hmay hd => ?_⟩
    · rw [serveReserveOpen_refused d hmay, refuse_eq _ _ _ h.service]
    · rw [serveReserveOpen_opens d hmay, hd, proceed_stored _ _ _ _ (.inl rfl)]
      rfl
    · rw [serveReserveOpen_opens d hmay, hd, proceed_reserve (s := reserveOpened u) h.service]
      rfl
  · intro lawful
    rw [h.exec_pbwSet hf]
    refine ⟨fun hbad => ?_, fun hlaw => ?_⟩
    · rw [servePbw_illegal u d hbad, refuse_eq _ _ _ h.service]
    · rw [servePbw_lawful u d hlaw]
  · obtain ⟨hv, ha⟩ := h.inService
    exact h.finish (finish_reserve hv ha) (by rw [respond_startUp]; exact h.startUp)
  · exact h.settles (finish_ceiling_temporary h.inService.1 h.inService.2) h.startUp
  · exact h.settles (finish_ceiling_persistent h.inService.1 h.inService.2) h.startUp
  · exact h.settles (finish_pbw h.inService.1 h.inService.2) h.startUp

end Sys2Proof.Machine
end

section
/-! The pre-boot window (chapter 5, R97). -/

namespace Sys2Proof.Machine

/-- LOCKED and READ_ONLY are the lock states beside OPEN (R34). -/
theorem LockState.ne_opened_iff (l : LockState) : l ≠ .opened ↔ l = .locked ∨ l = .readOnly := by
  cases l <;> decide

/-- The three conditions of R97, each as a proposition. -/
theorem windowOpen_iff (s : State) : windowOpen s = true ↔
    s.dev.pbwEnabled = true ∧ s.dev.pbwLen ≠ 0 ∧ s.ranges[(0 : RangeIx)].lock ≠ .opened := by
  simp only [windowOpen, Bool.and_eq_true, decide_eq_true_eq, and_assoc]

/-- Settles O17: the three conditions of R97 by the lock states beside OPEN, and each condition reads one of the three
fields. -/
theorem prebootWindowIsOpenExactlyWhen : Obligations.PrebootWindowIsOpenExactlyWhen := by
  refine ⟨fun s => ?_, fun s t henabled hlen hlock => ?_⟩
  · rw [windowOpen_iff, LockState.ne_opened_iff]
  · rw [Bool.eq_iff_iff, windowOpen_iff, windowOpen_iff, henabled, hlen, hlock]

end Sys2Proof.Machine
end

section
/-! The finish of a drain: the writes it begins with, and what the completion of the last of them leaves (R110, R111). -/

namespace Sys2Proof.Machine

/-! ## The start of the finish (R110, steps 1 to 4 of R111) -/

/-- The purge that is to follow a drain of an intent entry: the earliest PURGE job's, or the entry's own (step 2 of R111). -/
def drainPurge (s : State) (r : RangeIx) (e : Intent) : Option PurgeOpt := earliestPurge s r <|> e.purge

/-- The damaged list without the range's entries is stored where it holds any. -/
def drainDamage (s : State) (r : RangeIx) : List (StoreOp × Done) :=
  if ∃ x ∈ s.damaged, x.range = r then [(.damagedRange r, .nothing)] else []

/-- The write that the finish of a drain begins with, and those that follow it. -/
def drainWrite (s : State) (r : RangeIx) (e : Intent) : Write :=
  ⟨.rangeDrained r (e.gen + 1) (Config.newKey s.fresh) (drainPurge s r e), .nothing,
    drainDamage s r ++ [(.intents [r] [] [], .drained r (e.gen + 1) (drainPurge s r e).isSome)]⟩

theorem drainDue_of_stored {s : State} {r : RangeIx} {e : Intent} (ha : s.ranges[r].active = true)
    (hc : s.ranges[r].cond = .draining) (hf : s.ranges[r].finishing = false) (ho : ownsSlot s r = false)
    (hk : chunkOn s r = false) (hi : intentOf s r = some e) (he : e.stored = true) : drainDue s r = true := by
  unfold drainDue
  rw [ha, hc, hf, ho, hk, hi]
  exact he

theorem startDrainFinish_eq {s : State} {r : RangeIx} {e : Intent} (hi : intentOf s r = some e) : startDrainFinish s r =
    { s with writes := s.writes ++ [drainWrite s r e], fresh := s.fresh + 1
             ranges := s.ranges.set r { s.ranges[r] with finishing := true } } := by
  have hd : (if s.damaged.any (fun d => d.range = r) then [(.damagedRange r, .nothing)] else []) = drainDamage s r :=
    if_congr (by simp only [List.any_eq_true, decide_eq_true_eq]) rfl rfl
  unfold startDrainFinish
  rw [hi, drainWrite, ← hd]
  rfl

theorem exec_drainFinish_due {s : State} {r : RangeIx} (h : drainDue s r = true) :
    exec (.drainFinish r) s = .next (startDrainFinish s r) := if_pos h

theorem exec_drainFinish_not_due {s : State} {r : RangeIx} (h : drainDue s r = false) :
    exec (.drainFinish r) s = .next s := if_neg (by rw [h]; decide)

/-! ## The new key and the lock (step 6 of R111) -/

/-- The media slot that takes the new key: the lowest EMPTY one, where the range is unguarded and the part not in SLEEP. -/
def drainSlot (s : State) (r : RangeIx) : Option SlotIx :=
  if guarded s r || s.power.state = .sleep then none else (emptyMediaSlots s).head?

/-- A range that names its new key in slot `i` and is OPEN. -/
def drainOpened (s : State) (r : RangeIx) (i : SlotIx) : State :=
  { s with slots := s.slots.set i ⟨.loaded, s.store.ranges[r].key, some (r, s.ranges[r].gen), some .current, false, 1⟩
           ranges := s.ranges.set r { s.ranges[r] with slot := some i, lock := .opened } }

theorem drainSlot_eq_none_iff {s : State} {r : RangeIx} : drainSlot s r = none ↔
    (guarded s r || s.power.state = .sleep) = true ∨ emptyMediaSlots s = [] := by
  unfold drainSlot
  split <;> simp [*, List.head?_eq_none_iff]

theorem drainSlot_eq_some_iff {s : State} {r : RangeIx} {i : SlotIx} : drainSlot s r = some i ↔
    (guarded s r || s.power.state = .sleep) = false ∧ (emptyMediaSlots s).head? = some i := by
  unfold drainSlot
  split <;> simp [*]

/-- A range that is not MIGRATING loads its current key alone. -/
theorem loadNamed_current {s : State} {r : RangeIx} (hc : s.ranges[r].cond ≠ .migrating) :
    loadNamed s r = loadRole r s .current := by
  rw [loadNamed_eq, neededRoles, if_neg hc]
  rfl

/-- With no slot for its new key the range keeps its lock. -/
theorem drainLock_none {s : State} {r : RangeIx} (hs : s.ranges[r].slot = none) (hc : s.ranges[r].cond ≠ .migrating)
    (h : drainSlot s r = none) : drainLock s r = s := by
  unfold drainLock
  rcases drainSlot_eq_none_iff.1 h with hshut | hfull
  · rw [Bool.or_assoc, Bool.or_comm (decide _), hshut, Bool.or_true]
    rfl
  · rw [loadNamed_current hc, loadRole_none hfull]
    simp [hs, -Fin.getElem_fin]

theorem drainLock_some {s : State} {r : RangeIx} {i : SlotIx} (hu : s.startUp = none)
    (hc : s.ranges[r].cond ≠ .migrating) (h : drainSlot s r = some i) : drainLock s r = drainOpened s r i := by
  obtain ⟨hopen, hhead⟩ := drainSlot_eq_some_iff.1 h
  obtain ⟨rest, hempty⟩ := List.head?_eq_some_iff.1 hhead
  have hload : (loadRole r s .current).ranges[r].slot = some i := by
    rw [loadRole_some hempty, nameSlot_eq, modRange_ranges, if_pos rfl]
    rfl
  unfold drainLock
  rw [Bool.or_assoc, Bool.or_comm (decide _), hopen, hu, loadNamed_current hc]
  dsimp only
  rw [hload, loadRole_some hempty]
  simp [nameSlot, modRange, modSlot, drainOpened, storedKey, Vector.set_set]

/-! ## The end of the finish (steps 5 to 7 of R111) -/

/-- The entry of a range whose drain has ended, before it loads its new key. -/
def drainedEntry (s : State) (r : RangeIx) (gen : Gen) (purging : Bool) : RangeEntry :=
  { s.ranges[r] with
    gen := gen, cond := if purging = true ∧ purgeFollows s r = true then .purging else .steady, mig := none
    finishing := false }

/-- The state with the drain of a range at its end: its damaged entries and its intent entry are gone. -/
def drainEnded (s : State) (r : RangeIx) (gen : Gen) (purging : Bool) : State :=
  { s with ranges := s.ranges.set r (drainedEntry s r gen purging)
           damaged := s.damaged.filter (fun d => d.range ≠ r)
           intents := s.intents.filter (fun e => e.range ≠ r) }

theorem drainedEntry_not_migrating (s : State) (r : RangeIx) (gen : Gen) (purging : Bool) :
    (drainedEntry s r gen purging).cond ≠ .migrating := by
  unfold drainedEntry
  dsimp only
  split <;> decide

theorem drainEnded_ranges (s : State) (r q : RangeIx) (gen : Gen) (purging : Bool) :
    (drainEnded s r gen purging).ranges[q] = if q = r then drainedEntry s r gen purging else s.ranges[q] :=
  modRange_ranges s r q (fun _ => drainedEntry s r gen purging)

theorem drainOpened_ranges (s : State) (r q : RangeIx) (i : SlotIx) : (drainOpened s r i).ranges[q] =
    if q = r then { s.ranges[r] with slot := some i, lock := .opened } else s.ranges[q] :=
  modRange_ranges s r q (fun x => { x with slot := some i, lock := .opened })

theorem drained_left {s : State} {r : RangeIx} (gen : Gen) (purging : Bool)
    (h : s.ranges[r].active = false ∨ s.ranges[r].finishing = false) : drained s r gen purging = s := by
  unfold drained
  refine if_neg ?_
  rcases h with h | h <;> simp [h, -Fin.getElem_fin]

theorem drained_eq {s : State} {r : RangeIx} (gen : Gen) (purging : Bool) (ha : s.ranges[r].active = true)
    (hf : s.ranges[r].finishing = true) : drained s r gen purging =
      raise (drainLock (drainEnded s r gen purging) r) { kind := .wipeDone, range := some r, detail := .gen gen } := by
  have hcond : (if (purging && purgeFollows s r) = true then Condition.purging else .steady) =
      if purging = true ∧ purgeFollows s r = true then .purging else .steady := if_congr (by simp) rfl rfl
  unfold drained
  rw [if_pos (by rw [ha, hf]; rfl), drainEnded, drainedEntry, ← hcond]
  rfl

/-- What the lock of a range whose drain has ended leaves: `s` before the end, `u` after it. -/
structure DrainOver (s u : State) (r : RangeIx) (gen : Gen) (purging : Bool) : Prop where
  frame  : u = { drainEnded s r gen purging with ranges := u.ranges, slots := u.slots }
  entry  : u.ranges[r] = { drainedEntry s r gen purging with
    slot := drainSlot s r, lock := if drainSlot s r = none then s.ranges[r].lock else .opened }
  others : ∀ q, q ≠ r → u.ranges[q] = s.ranges[q]
  shut   : drainSlot s r = none → u.slots = s.slots
  opens  : ∀ i, drainSlot s r = some i →
    u.slots = s.slots.set i ⟨.loaded, s.store.ranges[r].key, some (r, gen), some .current, false, 1⟩

theorem drainLock_over {s : State} {r : RangeIx} (gen : Gen) (purging : Bool) (hu : s.startUp = none)
    (hs : s.ranges[r].slot = none) : DrainOver s (drainLock (drainEnded s r gen purging) r) r gen purging := by
  have hentry : (drainEnded s r gen purging).ranges[r] = drainedEntry s r gen purging := by
    rw [drainEnded_ranges, if_pos rfl]
  have hslot : drainSlot (drainEnded s r gen purging) r = drainSlot s r := rfl
  have hmig : (drainEnded s r gen purging).ranges[r].cond ≠ .migrating := by
    rw [hentry]
    exact drainedEntry_not_migrating s r gen purging
  cases h : drainSlot s r with
  | none =>
    rw [drainLock_none (by rw [hentry]; exact hs) hmig (hslot.trans h)]
    refine ⟨rfl, ?_, fun q hq => by rw [drainEnded_ranges, if_neg hq], fun _ => rfl, fun i hi => nomatch h.symm.trans hi⟩
    rw [hentry, h, if_pos rfl, ← hs]
    rfl
  | some i =>
    rw [drainLock_some (show (drainEnded s r gen purging).startUp = none from hu) hmig (hslot.trans h)]
    refine ⟨rfl, ?_, fun q hq => ?_, fun hn => (nomatch h.symm.trans hn), fun k hk => ?_⟩
    · rw [drainOpened_ranges, if_pos rfl, hentry, h]
      rfl
    · rw [drainOpened_ranges, if_neg hq, drainEnded_ranges, if_neg hq]
    · cases h.symm.trans hk
      unfold drainOpened
      rw [hentry]
      rfl

/-! ## The completion of the last write -/

/-- A stored intent list without one range's entry. -/
theorem applyOp_intents_remove (s : State) (r : RangeIx) : applyOp s (.intents [r] [] []) =
    { s.store with intents := s.store.intents.filter (fun e => e.range ≠ r) } := by
  simp [applyOp, editIntents]

theorem exec_drained {s : State} {r : RangeIx} {gen : Gen} {purging : Bool} {rest : List Write}
    (hw : s.writes = ⟨.intents [r] [] [], .drained r gen purging, []⟩ :: rest) {t : State}
    (ht : t = { s with
      store := { s.store with intents := s.store.intents.filter (fun e => e.range ≠ r) }, writes := rest })
    {u : State} (hd : drained t r gen purging = u) (hu : u.startUp = none) :
    exec .storeWriteCompletion s = .next (engine u) := by
  have hdone : writeDone s (.intents [r] [] []) [] rest = t := by
    rw [ht, writeDone, applyOp_intents_remove, follows, List.append_nil]
  refine exec_oldest_settled hw ?_ (engine_startUp hu)
  rw [hdone]
  exact congrArg engine hd

/-- Settles O28: the start of the finish, its refusal, and the completion of its last write, where `DrainOver` says what the
end leaves by the slot that the new key takes. -/
theorem drainFinishDestroysTheOldKey : Obligations.DrainFinishDestroysTheOldKey := by
  intro s r
  refine ⟨fun e ha hc hf ho hk hi he => ?_, exec_drainFinish_not_due, fun gen purging rest hu hw => ?_⟩
  · rw [exec_drainFinish_due (drainDue_of_stored ha hc hf ho hk hi he)]
    exact ⟨_, drainWrite s r e, drainDamage s r, rfl, startDrainFinish_eq hi, rfl, rfl, rfl, rfl⟩
  · intro t shut
    refine ⟨fun hleft => exec_drained hw rfl (drained_left gen purging hleft) hu, fun ha hf hs => ?_⟩
    obtain ⟨hframe, hentry, hothers, hshut, hopens⟩ := drainLock_over (s := t) gen purging hu hs
    have hnone : (shut = true ∨ emptyMediaSlots s = []) ↔ drainSlot t r = none := drainSlot_eq_none_iff.symm
    refine ⟨_, exec_drained hw rfl (drained_eq (s := t) gen purging ha hf) (raise_startUp _ _ ?_), hframe, ?_, hothers,
      fun h => hshut (hnone.1 h), fun h i hi => hopens i (drainSlot_eq_some_iff.2 ⟨h, hi⟩)⟩
    · rw [hframe]
      exact hu
    · rw [hentry, if_congr hnone rfl rfl]
      rfl

end Sys2Proof.Machine
end

section
/-! The RUNNING job, the most urgent of the QUEUED jobs, and the jobs that start to run and are preempted (R16, R122 to
R125). -/

namespace Sys2Proof.Machine

variable {s : State} {j : JobNo} {b : Job}

/-! ## The job table -/

theorem jobAt_eq_some {j : JobNo} {b : Job} : jobAt s j = some b ↔ s.sweep.jobs[j] = .job b := by
  unfold jobAt
  split <;> simp [*, -Fin.getElem_fin]

theorem runningJob_some {j : JobNo} (h : runningJob s = some j) : ∃ b, jobAt s j = some b ∧ b.state = .running := by
  have hj := List.find?_some h
  split at hj
  · next b hb => exact ⟨b, hb, of_decide_eq_true hj⟩
  · cases hj

theorem runningJob_none (h : runningJob s = none) {j : JobNo} {b : Job} (hb : jobAt s j = some b) : b.state ≠ .running := by
  have hj := List.find?_eq_none.1 h j (mem_allJobs j)
  rw [hb] at hj
  simpa using hj

/-! ## The most urgent job (R123) -/

theorem moreUrgent_iff (a b : Job) :
    moreUrgent a b = true ↔ a.level < b.level ∨ (a.level = b.level ∧ a.stamp < b.stamp) := by
  simp [moreUrgent]

theorem eligible_iff (b : Job) : eligible s b = true ↔ b.state = .queued ∧ waitsOnDrain s b = false := by
  simp [eligible]

/-- The more urgent of the best so far and one job more. -/
def urgentOf (s : State) (best : Option (JobNo × Job)) (j : JobNo) : Option (JobNo × Job) :=
  match jobAt s j with
  | some b =>
    if eligible s b then
      match best with
      | some (_, a) => if moreUrgent b a then some (j, b) else best
      | none => some (j, b)
    else best
  | none => best

/-- The most urgent job is found job by job, in job number order. -/
theorem mostUrgent_eq (s : State) : mostUrgent s = allJobs.foldl (urgentOf s) none := rfl

/-- The eligible job of an entry. -/
def EligibleAt (s : State) (j : JobNo) (b : Job) : Prop := jobAt s j = some b ∧ eligible s b = true

/-- The most urgent of the eligible jobs of some entries. -/
structure IsMostUrgent (s : State) (l : List JobNo) (best : Option (JobNo × Job)) : Prop where
  none : best = none → ∀ j ∈ l, ∀ b, ¬ EligibleAt s j b
  some : ∀ x, best = some x → EligibleAt s x.1 x.2 ∧ ∀ j ∈ l, ∀ b, EligibleAt s j b → moreUrgent b x.2 = false

/-- An entry with no eligible job changes nothing. -/
theorem IsMostUrgent.skip {l : List JobNo} {best : Option (JobNo × Job)} (h : IsMostUrgent s l best) {j : JobNo}
    (hj : ∀ b, ¬ EligibleAt s j b) : IsMostUrgent s (l ++ [j]) best where
  none e i hi b hb := by
    rcases List.mem_append.1 hi with hi | hi
    · exact h.none e i hi b hb
    · exact hj b (List.mem_singleton.1 hi ▸ hb)
  some x e := ⟨(h.some x e).1, fun i hi b hb => by
    rcases List.mem_append.1 hi with hi | hi
    · exact (h.some x e).2 i hi b hb
    · exact absurd (List.mem_singleton.1 hi ▸ hb) (hj b)⟩

/-- The best so far stays, where one job more is not more urgent. -/
theorem IsMostUrgent.keep {l : List JobNo} {x : JobNo × Job} (h : IsMostUrgent s l (.some x)) {j : JobNo} {b : Job}
    (hb : jobAt s j = .some b) (hx : moreUrgent b x.2 = false) : IsMostUrgent s (l ++ [j]) (.some x) where
  none e := nomatch e
  some y e := by
    cases e
    refine ⟨(h.some x rfl).1, fun i hi c hc => ?_⟩
    rcases List.mem_append.1 hi with hi | hi
    · exact (h.some x rfl).2 i hi c hc
    · rw [List.mem_singleton.1 hi] at hc
      rw [Option.some.inj (hc.1.symm.trans hb)]
      exact hx

/-- One job more is the best, where it is more urgent than the best so far: urgency is a strict weak order. -/
theorem IsMostUrgent.take {l : List JobNo} {best : Option (JobNo × Job)} (h : IsMostUrgent s l best) {j : JobNo} {b : Job}
    (hb : EligibleAt s j b) (hx : ∀ x, best = .some x → moreUrgent b x.2 = true) :
    IsMostUrgent s (l ++ [j]) (.some (j, b)) where
  none e := nomatch e
  some y e := by
    cases e
    refine ⟨hb, fun i hi c hc => ?_⟩
    rcases List.mem_append.1 hi with hi | hi
    · cases hbest : best with
      | none => exact absurd hc (h.none hbest i hi c)
      | some x =>
        have hcx := (h.some x hbest).2 i hi c hc
        have hbx := (moreUrgent_iff _ _).1 (hx x hbest)
        rw [← Bool.not_eq_true, moreUrgent_iff] at hcx ⊢
        dsimp only
        omega
    · rw [List.mem_singleton.1 hi] at hc
      rw [Option.some.inj (hc.1.symm.trans hb.1), ← Bool.not_eq_true, moreUrgent_iff]
      dsimp only
      omega

theorem IsMostUrgent.urgentOf {l : List JobNo} {best : Option (JobNo × Job)} (h : IsMostUrgent s l best) (j : JobNo) :
    IsMostUrgent s (l ++ [j]) (urgentOf s best j) := by
  unfold Machine.urgentOf
  split
  · next b hb =>
    split
    · next hok =>
      split
      · next a =>
        split
        · next hmore => exact h.take ⟨hb, hok⟩ fun x e => by cases e; exact hmore
        · next hless => exact h.keep hb (Bool.not_eq_true _ ▸ hless)
      · exact h.take ⟨hb, hok⟩ fun x e => by cases e
    · next hno => exact h.skip fun c hc => hno (Option.some.inj (hc.1.symm.trans hb) ▸ hc.2)
  · next hb => exact h.skip fun c hc => nomatch hb.symm.trans hc.1

theorem isMostUrgent_foldl (s : State) (m l : List JobNo) {best : Option (JobNo × Job)} (h : IsMostUrgent s m best) :
    IsMostUrgent s (m ++ l) (l.foldl (urgentOf s) best) := by
  induction l generalizing m best with
  | nil => rwa [List.append_nil]
  | cons j l ih =>
    rw [List.foldl_cons, List.append_cons]
    exact ih (m ++ [j]) (h.urgentOf j)

theorem isMostUrgent_all (s : State) : IsMostUrgent s allJobs (mostUrgent s) :=
  mostUrgent_eq s ▸ isMostUrgent_foldl s [] allJobs ⟨fun _ _ h => absurd h List.not_mem_nil, fun x e => by cases e⟩

/-- The most urgent job is eligible, and no eligible job is more urgent. -/
theorem mostUrgent_some {x : JobNo × Job} (h : mostUrgent s = some x) :
    EligibleAt s x.1 x.2 ∧ ∀ i y, EligibleAt s i y → moreUrgent y x.2 = false :=
  ⟨((isMostUrgent_all s).some x h).1, fun i y => ((isMostUrgent_all s).some x h).2 i (mem_allJobs i) y⟩

/-- There is no most urgent job exactly when no job is eligible. -/
theorem mostUrgent_none : mostUrgent s = none ↔ ∀ i y, ¬ EligibleAt s i y := by
  refine ⟨fun h i y => (isMostUrgent_all s).none h i (mem_allJobs i) y, fun h => ?_⟩
  cases hx : mostUrgent s with
  | none => rfl
  | some x => exact absurd (mostUrgent_some hx).1 (h _ _)

/-! ## Jobs that start to run and are preempted (R16, R124) -/

/-- The lane that a HOLD job has dedicated depends on the lanes alone. -/
theorem dedicate_withSweep (s : State) (x : Sweep) :
    dedicate { s with sweep := x } = { s with sweep := x, arb := (dedicate s).arb } := by
  unfold dedicate
  rw [show freeLane { s with sweep := x } = freeLane s from rfl]
  split <;> rfl

theorem becomeRunning_eq (hb : jobAt s j = some b) : becomeRunning s j = { s with
    sweep := { s.sweep with
      jobs := s.sweep.jobs.set j (.job { b with state := .running })
      stack := j :: s.sweep.stack.filter (· ≠ j) }
    arb := if b.policy = .holding then (dedicate s).arb else s.arb } := by
  unfold becomeRunning
  rw [hb]
  dsimp only
  split
  · exact dedicate_withSweep s _
  · rfl

theorem preempt_eq (hb : jobAt s j = some b) : preempt s j = { s with
    sweep := { s.sweep with jobs := s.sweep.jobs.set j (.job { b with state := .preempted, pending := .noAction }) }
    arb := if b.policy = .holding then undedicated s.arb else s.arb } := by
  unfold preempt
  rw [hb]
  dsimp only
  split
  · exact undedicate_eq _
  · rfl

end Sys2Proof.Machine
end

section
/-! The law of the in-service stack (O6): what of the state it speaks of, and how it stands when one entry of the job table
changes (R122, R125). -/

namespace Sys2Proof.Machine

variable {s t : State} {j : JobNo} {b : Job}

/-! ## What the law speaks of -/

/-- The entry of the job table that a request in service holds for its job (R140). -/
def heldEntry : After → Option JobNo
  | .rangeRekey _ j _ _ _ => some j
  | _ => none

/-- The entry that the request in service holds. -/
def heldIn (c : Control) : Option JobNo := c.service.bind (fun v => heldEntry v.after)

/-- What the law of the stack speaks of. -/
structure Roster where
  jobs  : Vector JobEntry 6
  stack : List JobNo
  held  : Option JobNo

/-- The roster of a state. -/
def roster (s : State) : Roster := ⟨s.sweep.jobs, s.sweep.stack, heldIn s.control⟩

theorem heldEntry_eq_some {a : After} : heldEntry a = some j ↔ ∃ r l p k, a = .rangeRekey r j l p k := by
  cases a <;> simp [heldEntry, eq_comm]

theorem heldIn_eq_some {c : Control} :
    heldIn c = some j ↔ ∃ v r l p k, c.service = some v ∧ v.after = .rangeRekey r j l p k := by
  simp only [heldIn, Option.bind_eq_some_iff, heldEntry_eq_some]
  refine ⟨fun ⟨v, hv, r, l, p, k, ha⟩ => ⟨v, r, l, p, k, hv, ha⟩, fun ⟨v, r, l, p, k, hv, ha⟩ => ⟨v, hv, r, l, p, k, ha⟩⟩

/-- The entry that the request in service holds is reserved. -/
theorem StackOrdered.reserved (h : StackOrdered s) (hj : heldIn s.control = some j) : s.sweep.jobs[j] = .reserved := by
  obtain ⟨v, r, l, p, k, hv, ha⟩ := heldIn_eq_some.1 hj
  exact h.entryHeld v r j l p k hv ha

/-- An entry that is not reserved is not held for the request in service. -/
theorem StackOrdered.held_ne (h : StackOrdered s) (hj : s.sweep.jobs[j] ≠ .reserved) : heldIn s.control ≠ some j :=
  fun hh => hj (h.reserved hh)

/-- The request in service holds another entry, which is reserved. -/
theorem StackOrdered.holding (h : StackOrdered s) (hjobs : t.sweep.jobs = s.sweep.jobs) (hstack : t.sweep.stack = s.sweep.stack)
    (hheld : ∀ j, heldIn t.control = some j → s.sweep.jobs[j] = .reserved) : StackOrdered t := by
  have hjob : jobAt t = jobAt s := funext (jobAt_congr hjobs)
  constructor
  · rw [hstack]; exact h.once
  · rw [hstack, hjob]; exact h.ordered
  · rw [hstack, hjob]; exact h.running
  · rw [hstack, hjob]; exact h.preempted
  · rw [hstack, hjob]; exact h.onStack
  · intro v r j l p k hv ha
    rw [hjobs]
    exact hheld j (heldIn_eq_some.2 ⟨v, r, l, p, k, hv, ha⟩)

/-- The law is one of the roster alone. -/
theorem StackOrdered.congr (h : StackOrdered s) (e : roster t = roster s) : StackOrdered t := by
  obtain ⟨hjobs, hstack, hheld⟩ := Roster.mk.inj e
  exact h.holding hjobs hstack fun j hj => h.reserved (hheld.symm.trans hj)

theorem roster_foldl {α : Type} {f : State → α → State} (hf : ∀ s x, roster (f s x) = roster s) (l : List α) (s : State) :
    roster (l.foldl f s) = roster s := by
  induction l generalizing s with
  | nil => rfl
  | cons a l ih => exact (ih _).trans (hf s a)

theorem roster_foldlFst {α β : Type} {f : State × β → α → State × β} (hf : ∀ x a, roster (f x a).1 = roster x.1)
    (l : List α) (x : State × β) : roster (l.foldl f x).1 = roster x.1 := by
  induction l generalizing x with
  | nil => rfl
  | cons a l ih => exact (ih _).trans (hf x a)

/-- A fold of operations that keep the law keeps it. -/
theorem StackOrdered.foldl {α : Type} {f : State → α → State} (hf : ∀ s x, StackOrdered s → StackOrdered (f s x))
    (l : List α) (h : StackOrdered s) : StackOrdered (l.foldl f s) := by
  induction l generalizing s with
  | nil => exact h
  | cons a l ih => exact ih (hf s a h)

theorem StackOrdered.foldlFst {α β : Type} {f : State × β → α → State × β}
    (hf : ∀ x a, StackOrdered x.1 → StackOrdered (f x a).1) (l : List α) {x : State × β} (h : StackOrdered x.1) :
    StackOrdered (l.foldl f x).1 := by
  induction l generalizing x with
  | nil => exact h
  | cons a l ih => exact ih (hf x a h)

/-! ## One entry of the job table -/

/-- An entry that is off the stack: it holds no RUNNING and no PREEMPTED job. -/
def AtRest : JobEntry → Prop
  | .job b => b.state ≠ .running ∧ b.state ≠ .preempted
  | .free => True
  | .reserved => True

theorem atRest_of_takesNew {e : JobEntry} (h : takesNew e = true) : AtRest e := by
  cases e with
  | free => trivial
  | reserved => trivial
  | job b => constructor <;> intro k <;> simp [takesNew, finished, k] at h

theorem ne_reserved_of_takesNew {e : JobEntry} (h : takesNew e = true) : e ≠ .reserved := by
  rintro rfl
  cases h

theorem ne_reserved_of_jobAt (h : jobAt s j = some b) : s.sweep.jobs[j] ≠ .reserved := by
  rw [jobAt_eq_some.1 h]
  nofun

/-- No entry at rest is on the stack. -/
theorem StackOrdered.not_mem (h : StackOrdered s) (hj : AtRest s.sweep.jobs[j]) : j ∉ s.sweep.stack := by
  intro hm
  obtain ⟨b, hb, hst⟩ := h.onStack j hm
  rw [jobAt_eq_some.1 hb] at hj
  exact hst.elim hj.1 hj.2

/-- The job that an entry holds. -/
def jobOf : JobEntry → Option Job
  | .job b => some b
  | .free => none
  | .reserved => none

@[simp] theorem jobOf_job (b : Job) : jobOf (.job b) = some b := rfl

theorem jobAt_eq_jobOf (s : State) (i : JobNo) : jobAt s i = jobOf s.sweep.jobs[i] := rfl

theorem getElem_put {e : JobEntry} (hjobs : t.sweep.jobs = s.sweep.jobs.set j e) (i : JobNo) :
    t.sweep.jobs[i] = if i = j then e else s.sweep.jobs[i] := by
  rw [hjobs]
  exact setJob_jobs s j i e

/-- The job of an entry after one entry has been put in place. -/
theorem jobAt_put {e : JobEntry} (hjobs : t.sweep.jobs = s.sweep.jobs.set j e) (i : JobNo) :
    jobAt t i = if i = j then jobOf e else jobAt s i := by
  rw [jobAt_eq_jobOf, getElem_put hjobs]
  split <;> rfl

/-- A reserved entry is another entry than one that holds a job or takes a new one. -/
theorem ne_of_reserved {i : JobNo} (hi : s.sweep.jobs[i] = .reserved) (hr : s.sweep.jobs[j] ≠ .reserved) : i ≠ j := by
  rintro rfl
  exact hr hi

/-- A RUNNING or PREEMPTED job is one that the change of an entry at rest leaves. -/
theorem jobAt_of_put_atRest {e : JobEntry} (hjobs : t.sweep.jobs = s.sweep.jobs.set j e) (he : AtRest e) {i : JobNo}
    (hb : jobAt t i = some b) (hst : b.state = .running ∨ b.state = .preempted) : i ≠ j ∧ jobAt s i = some b := by
  rw [jobAt_put hjobs] at hb
  split at hb
  · cases e with
    | free => cases hb
    | reserved => cases hb
    | job c =>
      cases hb
      exact absurd hst (not_or.2 he)
  · next hi => exact ⟨hi, hb⟩

/-- An entry leaves the stack. -/
theorem StackOrdered.leave (h : StackOrdered s) {e : JobEntry} (hjobs : t.sweep.jobs = s.sweep.jobs.set j e)
    (hstack : t.sweep.stack = s.sweep.stack.filter (· ≠ j)) (hheld : heldIn t.control = heldIn s.control) (he : AtRest e)
    (hr : heldIn s.control ≠ some j) : StackOrdered t := by
  have hmem : ∀ i, i ∈ t.sweep.stack ↔ i ∈ s.sweep.stack ∧ i ≠ j := fun i => by simp [hstack]
  have hother : ∀ i, i ≠ j → jobAt t i = jobAt s i := fun i hi => by rw [jobAt_put hjobs, if_neg hi]
  constructor
  · rw [hstack]
    exact h.once.filter _
  · rw [hstack]
    refine (h.ordered.filter _).imp_of_mem fun {i k} hi hk hik => ?_
    rw [hother i (by simpa using (List.mem_filter.1 hi).2), hother k (by simpa using (List.mem_filter.1 hk).2)]
    exact hik
  · intro i b hb hst
    obtain ⟨hi, hb⟩ := jobAt_of_put_atRest hjobs he hb (.inl hst)
    obtain ⟨rest, hs⟩ := List.head?_eq_some_iff.1 (h.running i b hb hst)
    simp [hstack, hs, hi]
  · intro i b hb hst
    obtain ⟨hi, hb⟩ := jobAt_of_put_atRest hjobs he hb (.inr hst)
    exact (hmem i).2 ⟨h.preempted i b hb hst, hi⟩
  · intro i hi
    obtain ⟨hi, hne⟩ := (hmem i).1 hi
    rw [hother i hne]
    exact h.onStack i hi
  · intro v r i l p k hv ha
    have hi := hheld.symm.trans (heldIn_eq_some.2 ⟨v, r, l, p, k, hv, ha⟩)
    rw [getElem_put hjobs, if_neg fun e : i = j => hr (e ▸ hi)]
    exact h.reserved hi

/-- An entry at rest is changed into another. -/
theorem StackOrdered.setJob (h : StackOrdered s) {e : JobEntry} (hj : AtRest s.sweep.jobs[j])
    (hr : heldIn s.control ≠ some j) (he : AtRest e) : StackOrdered (setJob s j e) :=
  have hne : ∀ i ∈ s.sweep.stack, decide (i ≠ j) = true := fun _ hi =>
    decide_eq_true (ne_of_mem_of_not_mem hi (h.not_mem hj))
  h.leave rfl (List.filter_eq_self.2 hne).symm rfl he hr

/-- A job changes, but for its state and its level. -/
theorem StackOrdered.sameRank (h : StackOrdered s) (hb : jobAt s j = some b) {c : Job} (hst : c.state = b.state)
    (hl : c.level = b.level) : StackOrdered (Machine.setJob s j (.job c)) := by
  have hjob : ∀ i d, jobAt (Machine.setJob s j (.job c)) i = some d →
      ∃ a, jobAt s i = some a ∧ d.state = a.state ∧ d.level = a.level := fun i d hd => by
    rw [jobAt_put (s := s) rfl] at hd
    split at hd
    · next hi =>
      cases hd
      exact ⟨b, hi ▸ hb, hst, hl⟩
    · exact ⟨d, hd, rfl, rfl⟩
  constructor
  · exact h.once
  · refine h.ordered.imp fun {i k} hik a d ha hd => ?_
    obtain ⟨a', ha', -, hla⟩ := hjob i a ha
    obtain ⟨d', hd', -, hld⟩ := hjob k d hd
    rw [hla, hld]
    exact hik a' d' ha' hd'
  · intro i d hd hrun
    obtain ⟨a, ha, hs, -⟩ := hjob i d hd
    exact h.running i a ha (hs.symm.trans hrun)
  · intro i d hd hpre
    obtain ⟨a, ha, hs, -⟩ := hjob i d hd
    exact h.preempted i a ha (hs.symm.trans hpre)
  · intro i hi
    obtain ⟨a, ha, hs⟩ := h.onStack i hi
    rw [jobAt_put (s := s) rfl]
    split
    · next hij =>
      subst hij
      rw [hb] at ha
      cases ha
      exact ⟨c, rfl, by rwa [hst]⟩
    · exact ⟨a, ha, hs⟩
  · intro v r i l p k hv ha
    have hi := h.entryHeld v r i l p k hv ha
    rw [setJob_jobs, if_neg (ne_of_reserved hi (ne_reserved_of_jobAt hb))]
    exact hi

/-- The RUNNING job is preempted: it stays on the stack. -/
theorem StackOrdered.preempted_stays (h : StackOrdered s) (hb : jobAt s j = some b) (hrun : b.state = .running) {c : Job}
    (hst : c.state = .preempted) (hl : c.level = b.level) : StackOrdered (Machine.setJob s j (.job c)) := by
  have hhead := h.running j b hb hrun
  have hmem : j ∈ s.sweep.stack := List.mem_of_mem_head? hhead
  have hother : ∀ i, i ≠ j → jobAt (Machine.setJob s j (.job c)) i = jobAt s i := fun i hi => by
    rw [jobAt_put (s := s) rfl, if_neg hi]
  have hself : jobAt (Machine.setJob s j (.job c)) j = some c := by rw [jobAt_put (s := s) rfl, if_pos rfl, jobOf_job]
  constructor
  · exact h.once
  · refine h.ordered.imp fun {i k} hik a d ha hd => ?_
    have level : ∀ {i : JobNo} {a : Job}, jobAt (Machine.setJob s j (.job c)) i = some a →
        ∃ a', jobAt s i = some a' ∧ a.level = a'.level := fun {i a} ha => by
      by_cases hi : i = j
      · subst hi
        rw [hself] at ha
        cases ha
        exact ⟨b, hb, hl⟩
      · exact ⟨a, (hother i hi).symm.trans ha, rfl⟩
    obtain ⟨a', ha', hla⟩ := level ha
    obtain ⟨d', hd', hld⟩ := level hd
    rw [hla, hld]
    exact hik a' d' ha' hd'
  · intro i d hd hrun
    by_cases hi : i = j
    · subst hi
      rw [hself] at hd
      cases hd
      rw [hst] at hrun
      cases hrun
    · rw [hother i hi] at hd
      exact h.running i d hd hrun
  · intro i d hd hpre
    by_cases hi : i = j
    · rw [hi]
      exact hmem
    · rw [hother i hi] at hd
      exact h.preempted i d hd hpre
  · intro i hi
    by_cases hij : i = j
    · subst hij
      exact ⟨c, hself, .inr hst⟩
    · rw [hother i hij]
      exact h.onStack i hi
  · intro v r i l p k hv ha
    have hi := h.entryHeld v r i l p k hv ha
    rw [setJob_jobs, if_neg (ne_of_reserved hi (ne_reserved_of_jobAt hb))]
    exact hi

/-- With no job RUNNING, a job more urgent than all the others of the stack goes on top of it. -/
theorem StackOrdered.top (h : StackOrdered s) (hb : jobAt s j = some b) (hnone : runningJob s = none)
    (habove : ∀ i ∈ s.sweep.stack, i ≠ j → ∀ a, jobAt s i = some a → b.level < a.level) {c : Job}
    (hst : c.state = .running) (hl : c.level = b.level) (hjobs : t.sweep.jobs = s.sweep.jobs.set j (.job c))
    (hstack : t.sweep.stack = j :: s.sweep.stack.filter (· ≠ j)) (hheld : heldIn t.control = heldIn s.control) :
    StackOrdered t := by
  have hother : ∀ i, i ≠ j → jobAt t i = jobAt s i := fun i hi => by rw [jobAt_put hjobs, if_neg hi]
  have hself : jobAt t j = some c := by rw [jobAt_put hjobs, if_pos rfl, jobOf_job]
  have hne : ∀ i ∈ s.sweep.stack.filter (· ≠ j), i ≠ j := fun i hi => by simpa using (List.mem_filter.1 hi).2
  constructor
  · rw [hstack]
    exact List.nodup_cons.2 ⟨fun hm => hne j hm rfl, h.once.filter _⟩
  · rw [hstack]
    refine List.pairwise_cons.2 ⟨fun i hi a d ha hd => ?_, (h.ordered.filter _).imp_of_mem fun {i k} hi hk hik => ?_⟩
    · rw [hself] at ha
      cases ha
      rw [hother i (hne i hi)] at hd
      rw [hl]
      exact habove i (List.mem_of_mem_filter hi) (hne i hi) d hd
    · rw [hother i (hne i hi), hother k (hne k hk)]
      exact hik
  · intro i d hd hrun
    by_cases hi : i = j
    · rw [hstack, hi]
      rfl
    · rw [hother i hi] at hd
      exact absurd hrun (runningJob_none hnone hd)
  · intro i d hd hpre
    rw [hstack]
    by_cases hi : i = j
    · rw [hi]
      exact List.mem_cons_self ..
    · rw [hother i hi] at hd
      exact List.mem_cons_of_mem _ (List.mem_filter.2 ⟨h.preempted i d hd hpre, by simpa using hi⟩)
  · intro i hi
    rw [hstack] at hi
    by_cases hij : i = j
    · subst hij
      exact ⟨c, hself, .inl hst⟩
    · rcases List.mem_cons.1 hi with hi | hi
      · exact absurd hi hij
      · rw [hother i hij]
        exact h.onStack i (List.mem_of_mem_filter hi)
  · intro v r i l p k hv ha
    have hi := h.reserved (hheld.symm.trans (heldIn_eq_some.2 ⟨v, r, l, p, k, hv, ha⟩))
    rw [getElem_put hjobs, if_neg (ne_of_reserved hi (ne_reserved_of_jobAt hb))]
    exact hi

/-! ## What follows from the law (R120, R122, R125) -/

/-- Two RUNNING jobs are one: both are the top of the stack. -/
theorem StackOrdered.running_unique (h : StackOrdered s) {i j : JobNo} {a b : Job} (ha : jobAt s i = some a)
    (hb : jobAt s j = some b) (hra : a.state = .running) (hrb : b.state = .running) : i = j :=
  Option.some.inj ((h.running i a ha hra).symm.trans (h.running j b hb hrb))

/-- A list of numbers that strictly rise is no longer than the numbers that are left to it. -/
theorem length_le_of_rising (n : Nat) (l : List Nat) (h : l.Pairwise (· < ·)) (hn : ∀ x ∈ l, x < n) : l.length ≤ n := by
  have hsub : l.toFinset ⊆ Finset.range n := fun x hx => Finset.mem_range.2 (hn x (List.mem_toFinset.1 hx))
  have hcard := Finset.card_le_card hsub
  rwa [List.toFinset_card_of_nodup (h.imp Nat.ne_of_lt), Finset.card_range] at hcard

/-- The level of the job of an entry. -/
def levelAt (s : State) (j : JobNo) : Nat := ((jobAt s j).map (·.level)).getD 0

/-- The levels on the stack strictly rise, so there are at most as many jobs on it as levels. -/
theorem StackOrdered.length_le (h : StackOrdered s) (hl : ∀ (j : JobNo) (b : Job), jobAt s j = some b → b.level ≤ 3) :
    s.sweep.stack.length ≤ 4 := by
  have hlevel : ∀ {j b}, jobAt s j = some b → levelAt s j = b.level := fun hb => by rw [levelAt, hb]; rfl
  have hrise : (s.sweep.stack.map (levelAt s)).Pairwise (· < ·) := by
    refine List.pairwise_map.2 (h.ordered.imp_of_mem fun {i k} hi hk hik => ?_)
    obtain ⟨a, ha, -⟩ := h.onStack i hi
    obtain ⟨b, hb, -⟩ := h.onStack k hk
    rw [hlevel ha, hlevel hb]
    exact hik a b ha hb
  have hlen := length_le_of_rising 4 _ hrise fun x hx => by
    obtain ⟨j, hj, rfl⟩ := List.mem_map.1 hx
    obtain ⟨b, hb, -⟩ := h.onStack j hj
    rw [hlevel hb]
    exact Nat.lt_succ_of_le (hl j b hb)
  rwa [List.length_map] at hlen

end Sys2Proof.Machine
end

section
/-! The operations that the law of the in-service stack does not see (O6): they leave the job table, the stack and the entry
held for the request in service as they are. -/

namespace Sys2Proof.Machine

variable (s : State)

/-! ## Table updates, the journal and the store's queue -/

@[simp] theorem roster_modRange (r : RangeIx) (f : RangeEntry → RangeEntry) : roster (modRange s r f) = roster s := rfl

@[simp] theorem roster_modSlot (i : SlotIx) (f : Slot → Slot) : roster (modSlot s i f) = roster s := rfl

@[simp] theorem roster_modCred (c : CredIx) (f : Cred → Cred) : roster (modCred s c f) = roster s := rfl

@[simp] theorem roster_modDev (f : Device → Device) : roster (modDev s f) = roster s := rfl

@[simp] theorem roster_setTxn (t : FrontTag) (x : Option Txn) : roster (setTxn s t x) = roster s := rfl

@[simp] theorem roster_setStage (t : FrontTag) (st : Stage) : roster (setStage s t st) = roster s := by
  unfold setStage
  split <;> rfl

@[simp] theorem roster_setLane (l : LaneIx) (x : Lane) : roster (setLane s l x) = roster s := rfl

@[simp] theorem roster_setTag (t : MediaTag) (x : TagState) : roster (setTag s t x) = roster s := rfl

@[simp] theorem roster_askTag (q : MediaReq) : roster (askTag s q) = roster s := rfl

@[simp] theorem roster_setSegs (l : List Segment) : roster (setSegs s l) = roster s := rfl

@[simp] theorem roster_modSeg (id : Nat) (f : Segment → Segment) : roster (modSeg s id f) = roster s := rfl

@[simp] theorem roster_setChunk (c : Option Chunk) : roster (setChunk s c) = roster s := rfl

@[simp] theorem roster_raise (e : Event) : roster (raise s e) = roster s := by
  unfold raise
  split <;> rfl

@[simp] theorem roster_raiseAll (l : List Event) : roster (raiseAll s l) = roster s := roster_foldl roster_raise l s

@[simp] theorem roster_send (t : FrontTag) (st : Status) (data : List Block) (resp : Option Response) :
    roster (send s t st data resp) = roster s := rfl

@[simp] theorem roster_complete (t : FrontTag) (st : Status) (data : List Block) (resp : Option Response) :
    roster (complete s t st data resp) = roster s := rfl

@[simp] theorem roster_issue (l : List (StoreOp × Done)) : roster (issue s l) = roster s := by
  cases l <;> rfl

@[simp] theorem roster_issueEach (l : List StoreOp) : roster (issueEach s l) = roster s :=
  roster_foldl (fun s op => roster_issue s [(op, .nothing)]) l s

@[simp] theorem roster_issueChain (l : List StoreOp) (last : Done) : roster (issueChain s l last) = roster s := by
  unfold issueChain
  split <;> simp

@[simp] theorem roster_issueAll (l : List StoreOp) (last : Done) : roster (issueAll s l last) = roster s := by
  unfold issueAll
  split <;> simp

@[simp] theorem roster_takeKey : roster (takeKey s).2 = roster s := rfl

/-! ## Key slots -/

@[simp] theorem roster_bindSlot (i : SlotIx) : roster (bindSlot s i) = roster s := rfl

@[simp] theorem roster_dropOpt (i : Option SlotIx) : roster (dropOpt s i) = roster s := by
  cases i <;> rfl

@[simp] theorem roster_releaseOpt (i : Option SlotIx) : roster (releaseOpt s i) = roster s := by
  cases i <;> rfl

@[simp] theorem roster_releaseNames (r : RangeIx) : roster (releaseNames s r) = roster s := by
  simp [releaseNames]

@[simp] theorem roster_placeKey (r : RangeIx) (gen : Gen) (role : Role) (key : Option Key) (held : Bool) :
    roster (placeKey s r gen role key held).2 = roster s := by
  unfold placeKey
  split <;> rfl

@[simp] theorem roster_holdKeys (set : List RangeIx) : roster (holdKeys s set) = roster s :=
  roster_foldl (fun s r => roster_foldl (fun s role => roster_placeKey s r _ role _ true) _ s) _ s

@[simp] theorem roster_nameSlot (r : RangeIx) (role : Role) (i : SlotIx) : roster (nameSlot s r role i) = roster s := by
  cases role <;> rfl

@[simp] theorem roster_takeUpSlot (want : RangeIx → Bool) (i : SlotIx) : roster (takeUpSlot want s i) = roster s := by
  unfold takeUpSlot
  dsimp only
  split
  · split
    · split <;> simp
    · rfl
  · rfl

@[simp] theorem roster_takeUp (want : RangeIx → Bool) : roster (takeUp s want) = roster s :=
  roster_foldl (fun s i => roster_takeUpSlot s want i) _ s

@[simp] theorem roster_loadNamed (r : RangeIx) : roster (loadNamed s r) = roster s := by
  unfold loadNamed
  refine roster_foldl (fun s role => ?_) _ s
  have hplace := roster_placeKey s r s.ranges[r].gen role (storedKey s r role) false
  split <;> rename_i h <;> rw [h] at hplace
  · rw [roster_nameSlot, hplace]
  · exact hplace

/-! ## The front port and the control unit -/

/-- No entry is held for no request. -/
theorem heldIn_of_idle {c : Control} (h : c.service = none) : heldIn c = none := by
  rw [heldIn, h]
  rfl

theorem heldIn_of_service {c : Control} {v : Service} (h : c.service = some v) : heldIn c = heldEntry v.after := by
  rw [heldIn, h]
  rfl

/-- A control unit with the same entry held. -/
theorem roster_control {c : Control} (h : heldIn c = heldIn s.control) : roster { s with control := c } = roster s :=
  congrArg (Roster.mk s.sweep.jobs s.sweep.stack) h

/-- A request whose checks have not begun holds no entry. -/
theorem roster_serve {c : Control} {t : Option FrontTag} {b : RequestBlock} (hs : s.control.service = none)
    (hc : c.service = some ⟨t, b, .start⟩) : roster { s with control := c } = roster s :=
  roster_control s ((heldIn_of_service hc).trans (heldIn_of_idle hs).symm)

@[simp] theorem roster_takeNext : roster (takeNext s) = roster s := by
  unfold takeNext
  split
  · next h =>
    split
    · rfl
    · exact roster_serve s (by simpa using (Bool.and_eq_true_iff.1 h).1) rfl
  · rfl

@[simp] theorem roster_offerControl (t : FrontTag) (b : RequestBlock) : roster (offerControl s t b) = roster s := by
  unfold offerControl
  split
  · next h =>
    have hs : s.control.service = none := by simp_all
    rw [← roster_setStage s t .control]
    exact roster_serve _ ((setStage_control s t .control).symm ▸ hs) rfl
  · split
    · rw [← roster_setStage s t .control]
      exact roster_control _ (by rw [setStage_control]; rfl)
    · rfl

@[simp] theorem roster_completeIfDone (t : FrontTag) : roster (completeIfDone s t) = roster s := by
  unfold completeIfDone
  dsimp only
  split
  · split <;> rfl
  · rfl

@[simp] theorem roster_issueFlush (t : FrontTag) : roster (issueFlush s t) = roster s := roster_setStage s t .flushOut

@[simp] theorem roster_leaveWaitSet (id : Nat) (t : FrontTag) : roster (leaveWaitSet id s t) = roster s := by
  unfold leaveWaitSet
  split
  · split
    · split
      · dsimp only
        split <;> simp
      · rfl
    all_goals rfl
  · rfl

@[simp] theorem roster_clearDamage (g : Segment) (st : Status) : roster (clearDamage s g st) = roster s := by
  unfold clearDamage
  split
  · dsimp only
    split <;> rfl
  · rfl

/-- A segment that has retired leaves its slot, its damaged entries and the wait sets. -/
theorem roster_retired (g : Segment) (id : Nat) (st : Status) (data : List Block) :
    roster (allTags.foldl (leaveWaitSet id) (clearDamage
      (dropOpt (modSeg s id (fun g => { g with state := .retired, status := st, data := data })) g.slot) g st)) = roster s := by
  rw [roster_foldl (fun s t => roster_leaveWaitSet s id t)]
  simp

@[simp] theorem roster_retire (id : Nat) (st : Status) (data : List Block) : roster (retire s id st data) = roster s := by
  unfold retire
  split
  · next g _ =>
    dsimp only
    split
    · exact (roster_completeIfDone _ _).trans (roster_retired s g id st data)
    · exact (roster_setSegs _ _).trans (roster_retired s g id st data)
  · rfl

@[simp] theorem roster_addSeg (g : Segment) : roster (addSeg s g) = roster s := rfl

@[simp] theorem roster_admitSeg (t : FrontTag) (cls : FrontClass) (p : Piece × Decision) :
    roster (admitSeg t cls s p) = roster s := by
  unfold admitSeg
  dsimp only
  split
  · rfl
  · rfl
  · next slot _ => cases slot <;> cases cls <;> rfl
  · rfl
  · rfl

@[simp] theorem roster_holdTxn (t : FrontTag) : roster (holdTxn s t) = roster s := by
  unfold holdTxn
  split
  · exact roster_setStage s t .held
  · rfl

@[simp] theorem roster_admitData (t : FrontTag) (cls : FrontClass) (lo hi : Nat) :
    roster (admitData s t cls lo hi) = roster s := by
  unfold admitData
  split
  · rfl
  · dsimp only
    split
    · rfl
    · split
      · exact roster_holdTxn s t
      · rw [roster_completeIfDone, roster_foldl (fun s p => roster_admitSeg s t cls p), roster_setStage]

@[simp] theorem roster_admitFlush (t : FrontTag) : roster (admitFlush s t) = roster s := by
  unfold admitFlush
  dsimp only
  split <;> simp

@[simp] theorem roster_admitTxn (t : FrontTag) : roster (admitTxn s t) = roster s := by
  unfold admitTxn
  split
  · split <;> simp
  · rfl

@[simp] theorem roster_releaseHeld : roster (releaseHeld s) = roster s :=
  roster_foldl roster_admitTxn _ { s with front := { s.front with held := [] } }

@[simp] theorem roster_admitWaiting : roster (admitWaiting s) = roster s :=
  roster_foldl roster_admitTxn _ { s with front := { s.front with waiting := [] } }

@[simp] theorem roster_retryWaiting : roster (retryWaiting s) = roster s :=
  roster_foldl (fun s t => roster_complete s t .retry [] none) _ { s with front := { s.front with waiting := [] } }

@[simp] theorem roster_abortAll (keep : Option FrontTag) : roster (abortAll s keep) = roster s := by
  unfold abortAll
  refine (roster_foldl (fun s t => ?_) allTags _).trans rfl
  split <;> rfl

@[simp] theorem roster_enterPower (p : PowerState) : roster (enterPower s p) = roster s := by
  unfold enterPower
  dsimp only
  split
  · exact roster_raise _ _
  · rfl

@[simp] theorem roster_endPrepared : roster (endPrepared s) = roster s := rfl

@[simp] theorem roster_configChanged (r : Option RangeIx) (c : Option CredIx) (code : BitVec 16) :
    roster (configChanged s r c code) = roster s := roster_raise _ _

@[simp] theorem roster_countMatch (c : CredIx) : roster (countMatch s c) = roster s := rfl

@[simp] theorem roster_countMismatch (b : RequestBlock) (c : CredIx) : roster (countMismatch s b c) = roster s := by
  unfold countMismatch
  dsimp only
  split <;> simp

@[simp] theorem roster_recordPrepared (c : CredIx) (set : List RangeIx) (p : Option PurgeOpt) :
    roster (recordPrepared s c set p) = roster s := rfl

@[simp] theorem roster_setTheft (p : TheftPolicy) (a b c : Bool) : roster (setTheft s p a b c) = roster s := by
  unfold setTheft
  dsimp only
  split <;> rfl

/-! ## Chunks and drains -/

@[simp] theorem roster_releaseRange (x : State × Release) (r : RangeIx) : roster (releaseRange x r).1 = roster x.1 := by
  unfold releaseRange
  dsimp only
  split
  · rfl
  · split
    · rfl
    · split <;> rfl

@[simp] theorem roster_reportAfter (l : List StoreOp) (e : Event) : roster (reportAfter s l e) = roster s := by
  unfold reportAfter
  split <;> simp

@[simp] theorem roster_askLanes (p : LanePolicy) : roster (askLanes s p) = roster s := by
  unfold askLanes
  split
  · rfl
  · split
    · split <;> rfl
    · rfl

@[simp] theorem roster_storePurge (j : JobNo) (b : Job) (c : Chunk) : roster (storePurge s j b c) = roster s := by
  simp [storePurge]

@[simp] theorem roster_takePurge (j : JobNo) (b : Job) (r : RangeIx) : roster (takePurge s j b r) = roster s := by
  unfold takePurge
  dsimp only
  split <;> simp

@[simp] theorem roster_endRange (r : RangeIx) (op : StoreOp) (d : Done) : roster (endRange s r op d) = roster s := by
  unfold endRange
  split <;> rfl

@[simp] theorem roster_goOn : roster (goOn s) = roster s := by
  unfold goOn
  split
  · split
    · split
      · split
        · simp
        · split <;> simp
      · split <;> simp
      · rfl
    · rfl
  · rfl

@[simp] theorem roster_issueTheft (chain : List (StoreOp × Done)) : roster (issueTheft s chain) = roster s := by
  unfold issueTheft
  split
  · rfl
  · exact roster_issue s chain

@[simp] theorem roster_theftStored (set : List RangeIx) : roster (theftStored s set) = roster s := by
  unfold theftStored
  refine (roster_foldl (fun s r => ?_) set _).trans rfl
  split <;> simp

@[simp] theorem roster_startDrainFinish (r : RangeIx) : roster (startDrainFinish s r) = roster s := by
  unfold startDrainFinish
  split <;> simp

@[simp] theorem roster_drainLock (r : RangeIx) : roster (drainLock s r) = roster s := by
  unfold drainLock
  split
  · rfl
  · dsimp only
    split <;> simp

@[simp] theorem roster_drained (r : RangeIx) (gen : Gen) (purging : Bool) : roster (drained s r gen purging) = roster s := by
  unfold drained
  split
  · dsimp only
    rw [roster_raise, roster_drainLock]
    rfl
  · rfl

@[simp] theorem roster_askSweep (op : MediaOp) (addr count : Nat) (data : List Block) (q : SweepReq) :
    roster (askSweep s op addr count data q) = roster s := rfl

@[simp] theorem roster_writeRun (c : Chunk) (addr : Run → Nat) (q : Run → SweepReq) (x : Run) :
    roster (writeRun c addr q s x) = roster s := rfl

@[simp] theorem roster_completeMigration (r : RangeIx) : roster (completeMigration s r) = roster s := by
  unfold completeMigration
  dsimp only
  rw [roster_foldl (f := heldAfterMigration r _) fun s i => roster_modSlot s i _, roster_releaseOpt]
  split <;> rfl

@[simp] theorem roster_storeCheckpoint (c : Chunk) : roster (storeCheckpoint s c) = roster s := by
  simp [storeCheckpoint]

@[simp] theorem roster_storeStaged (c : Chunk) : roster (storeStaged s c) = roster s := by
  simp [storeStaged]

@[simp] theorem roster_homeWrites (c : Chunk) : roster (homeWrites s c) = roster s :=
  roster_foldl (fun s x => roster_writeRun s _ _ _ x) _ _

@[simp] theorem roster_storeUndo (c : Chunk) : roster (storeUndo s c) = roster s := by
  simp [storeUndo]

@[simp] theorem roster_homeDone (c : Chunk) : roster (homeDone s c) = roster s := by
  unfold homeDone
  split
  · exact roster_storeCheckpoint s c
  · dsimp only
    split
    · exact roster_storeUndo s c
    · exact roster_foldl (fun s x => roster_askSweep s .write x.start x.len _ (.undo x)) _ _

@[simp] theorem roster_releasePass : roster (releasePass s) = roster s := by
  unfold releasePass
  refine (roster_foldl (fun s l => ?_) allLanes _).trans rfl
  split <;> rfl

@[simp] theorem roster_rekeyPassEnd (c : Chunk) : roster (rekeyPassEnd s c) = roster s :=
  roster_foldl (fun s x => roster_writeRun s _ _ _ x) _ _

@[simp] theorem roster_purgePassEnd (c : Chunk) (p : Pattern) : roster (purgePassEnd s c p) = roster s :=
  roster_foldl (fun s x => roster_writeRun s _ _ _ x) _ _

@[simp] theorem roster_offCompleting (r : RangeIx) : roster (offCompleting s r) = roster s := rfl

@[simp] theorem roster_setFence (j : JobNo) (b : Job) (r : RangeIx) : roster (setFence s j b r) = roster s := by
  unfold setFence
  dsimp only
  split
  · rw [roster_storeCheckpoint]
    split <;> split <;> rfl
  · rw [roster_foldl (fun s x => roster_askSweep s .read x.start x.len [] (.read x)), roster_setChunk]
    split <;> split <;> rfl

/-! ## Start-up -/

@[simp] theorem roster_setPhase (p : Phase) : roster (setPhase s p) = roster s := rfl

@[simp] theorem roster_setRecovery (v : Option Recovery) : roster (setRecovery s v) = roster s := rfl

@[simp] theorem roster_loadTables : roster (loadTables s) = roster s := rfl

@[simp] theorem roster_loadPhase (p : StartInputs) : roster (loadPhase s p) = roster s := by
  unfold loadPhase
  dsimp only
  split <;> rfl

@[simp] theorem roster_passIntent (x : State × List (StoreOp × Done)) (e : Intent) :
    roster (passIntent x e).1 = roster x.1 := by
  unfold passIntent
  dsimp only
  split <;> rfl

@[simp] theorem roster_intentPass : roster (intentPass s) = roster s := by
  unfold intentPass
  rw [roster_issue, roster_foldlFst roster_passIntent]

@[simp] theorem roster_startRecovery (r : RangeIx) (g : Staged) : roster (startRecovery s r g) = roster s :=
  roster_foldl (f := askStaged g.start) (fun _ _ => rfl) _ _

@[simp] theorem roster_storeRecovery (v : Recovery) : roster (storeRecovery s v) = roster s := by
  simp [storeRecovery]

@[simp] theorem roster_endRecovery (v : Recovery) : roster (endRecovery s v) = roster s := by
  simp [endRecovery]

@[simp] theorem roster_recoveryAnswer (v : Recovery) (x : Run) (write again : Bool) (sent : List Block) (a : Answer) :
    roster (recoveryAnswer s v x write again sent a) = roster s := by
  unfold recoveryAnswer
  dsimp only
  split
  · rfl
  · rfl
  · split <;> rfl
  · split <;> rfl
  · rfl

@[simp] theorem roster_lockedStartCheck : roster (lockedStartCheck s).2 = roster s := by
  unfold lockedStartCheck
  split <;> rfl

@[simp] theorem roster_openUnguarded (r : RangeIx) : roster (openUnguarded s r) = roster s := by
  unfold openUnguarded
  split
  · dsimp only
    split <;> simp
  · rfl

@[simp] theorem roster_keyPhase : roster (keyPhase s) = roster s := roster_foldl roster_openUnguarded _ _

@[simp] theorem roster_journalPhase (u : StartUp) : roster (journalPhase s u) = roster s := roster_raiseAll _ _

/-! ## The front port's and the media port's commands -/

@[simp] theorem roster_joinWaiting (t : FrontTag) : roster (joinWaiting s t) = roster s := rfl

@[simp] theorem roster_resetTimers : roster (resetTimers s) = roster s := rfl

@[simp] theorem roster_orphanSeg (g : Segment) : roster (orphanSeg s g) = roster s := by
  unfold orphanSeg
  split
  · exact roster_retire _ _ _ _
  · exact roster_retire _ _ _ _
  all_goals rfl

@[simp] theorem roster_markIssued (q : MediaReq) : roster (markIssued s q) = roster s := by
  unfold markIssued
  split <;> rfl

@[simp] theorem roster_laneClaim (l : LaneIx) : roster (laneClaim s l) = roster s := by
  unfold laneClaim
  dsimp only
  split
  · rfl
  · split
    · rfl
    · split
      · rfl
      · split
        · rfl
        · split <;> rfl

@[simp] theorem roster_passEnd (g : Segment) (data : List Block) : roster (passEnd s g data) = roster s := by
  unfold passEnd
  split
  · rfl
  · exact roster_retire _ _ _ _
  · exact roster_retire _ _ _ _

@[simp] theorem roster_tick : roster (tick s) = roster s := by
  unfold tick
  split <;> rfl

end Sys2Proof.Machine
end

section
/-! The sweep engine keeps the law of the in-service stack (O6): jobs that leave RUNNING and PREEMPTED leave the stack, a new
job takes an entry off it, and the engine puts on top of it only a job more urgent, level by level, than all of it (R124,
R125). -/

namespace Sys2Proof.Machine

variable {s : State} {j : JobNo} {b : Job}

theorem raise_ordered {e : Event} (h : StackOrdered s) : StackOrdered (raise s e) := h.congr (roster_raise s e)

theorem raiseAll_ordered {l : List Event} (h : StackOrdered s) : StackOrdered (raiseAll s l) := h.congr (roster_raiseAll s l)

theorem issueEach_ordered {l : List StoreOp} (h : StackOrdered s) : StackOrdered (issueEach s l) :=
  h.congr (roster_issueEach s l)

theorem reportAfter_ordered {l : List StoreOp} {e : Event} (h : StackOrdered s) : StackOrdered (reportAfter s l e) :=
  h.congr (roster_reportAfter s l e)

/-! ## Jobs that leave the stack (R16, R125) -/

/-- A job state that is off the stack. -/
def OffStack (st : JobState) : Prop := st ≠ .running ∧ st ≠ .preempted

theorem endTurn_ordered {f : Job → Job} (h : StackOrdered s) (hf : ∀ b, OffStack (f b).state) :
    StackOrdered (endTurn s j f) := by
  cases hb : jobAt s j with
  | none => rwa [endTurn, hb]
  | some b =>
    rw [endTurn_eq hb]
    exact h.leave rfl rfl rfl (hf b) (h.held_ne (ne_reserved_of_jobAt hb))

theorem pauseJob_ordered {c : PauseCause} (h : StackOrdered s) : StackOrdered (pauseJob s j c) :=
  endTurn_ordered h fun _ => ⟨nofun, nofun⟩

theorem finishJob_ordered {st : JobState} {l : List RangeIx} (h : StackOrdered s) (hst : OffStack st) :
    StackOrdered (finishJob s j st l).1 := by
  unfold finishJob
  split
  · have hend := endTurn_ordered (j := j) h
      (f := fun b => { b with state := st, pause := none, stall := none, pending := .noAction }) fun _ => hst
    dsimp only
    split
    · exact hend.congr (roster_foldlFst roster_releaseRange _ _)
    · exact hend
  · exact h

theorem cancelByWipe_ordered {set : List RangeIx} {r : RangeIx} (h : StackOrdered s) :
    StackOrdered (cancelByWipe s j set r).1 :=
  raise_ordered (finishJob_ordered h ⟨nofun, nofun⟩)

/-! ## Jobs that change where they stand -/

theorem modJob_ordered {f : Job → Job} (h : StackOrdered s) (hf : ∀ b, (f b).state = b.state ∧ (f b).level = b.level) :
    StackOrdered (modJob s j f) := by
  unfold modJob
  split
  · next b hb => exact h.sameRank hb (hf b).1 (hf b).2
  · exact h

/-- A job that is off the stack changes to another state that is. -/
theorem setJob_ordered (h : StackOrdered s) (hb : jobAt s j = some b) (hst : OffStack b.state) {c : Job}
    (hc : OffStack c.state) : StackOrdered (setJob s j (.job c)) :=
  h.setJob (by rw [jobAt_eq_some.1 hb]; exact hst) (h.held_ne (ne_reserved_of_jobAt hb)) hc

/-- An entry that can take a new job changes to an entry off the stack. -/
theorem setFree_ordered (h : StackOrdered s) (hj : freeEntry s = some j) {e : JobEntry} (he : AtRest e) :
    StackOrdered (setJob s j e) :=
  h.setJob (atRest_of_takesNew (freeEntry_takesNew hj)) (h.held_ne (ne_reserved_of_takesNew (freeEntry_takesNew hj))) he

theorem queueJob_ordered (h : StackOrdered s) (hj : freeEntry s = some j) (hb : OffStack b.state) :
    StackOrdered (queueJob s j b) :=
  (setFree_ordered (e := .job { b with stamp := s.sweep.nextStamp }) h hj hb).congr rfl

theorem returnJob_ordered (h : StackOrdered s) (hst : ∀ b, jobAt s j = some b → OffStack b.state) :
    StackOrdered (returnJob s j) := by
  unfold returnJob
  split
  · next b hb =>
    dsimp only
    split
    · exact setJob_ordered h hb (hst b hb) ⟨nofun, nofun⟩
    · split <;> exact setJob_ordered h hb (hst b hb) ⟨nofun, nofun⟩
  · exact h

theorem returnIf_ordered {c : PauseCause} (h : StackOrdered s) : StackOrdered (returnIf c s j) := by
  unfold returnIf
  split
  · next b hb =>
    split
    · next hp =>
      have hpaused : b.state = .paused := by simpa using (Bool.and_eq_true_iff.1 hp).1
      refine returnJob_ordered h fun c hc => ?_
      rw [← Option.some.inj (hb.symm.trans hc), hpaused]
      exact ⟨nofun, nofun⟩
    · exact h
  · exact h

theorem returnPower_ordered (h : StackOrdered s) : StackOrdered (returnPower s) :=
  h.foldl (fun _ _ k => returnIf_ordered k) _

theorem returnUnlocked_ordered {r : RangeIx} (h : StackOrdered s) : StackOrdered (returnUnlocked s r) := by
  unfold returnUnlocked
  split
  · exact returnIf_ordered h
  · exact h

theorem lockJob_ordered {r : RangeIx} (h : StackOrdered s) : StackOrdered (lockJob s r) := by
  unfold lockJob
  split
  · split
    · split
      · exact pauseJob_ordered h
      · exact h
    · exact h
  · exact h

theorem wipeJob_ordered {set : List RangeIx} {r : RangeIx} {x : State × Release} (h : StackOrdered x.1) :
    StackOrdered (wipeJob set r x j).1 := by
  unfold wipeJob
  dsimp only
  split
  · split
    · split
      · exact modJob_ordered h fun _ => ⟨rfl, rfl⟩
      · exact cancelByWipe_ordered h
    · exact h
  · exact h

theorem wipeJobs_ordered {set : List RangeIx} {r : RangeIx} {x : State × Release} (h : StackOrdered x.1) :
    StackOrdered (wipeJobs set r x).1 :=
  h.foldlFst (fun _ _ k => wipeJob_ordered k) _

/-! ## The end of a turn, and new jobs (R124, R137) -/

theorem settleTurn_ordered {e : ChunkEnd} (h : StackOrdered s) : StackOrdered (settleTurn s j e) := by
  unfold settleTurn
  split
  · split
    · exact raise_ordered (finishJob_ordered h ⟨nofun, nofun⟩)
    · exact issueEach_ordered (cancelByWipe_ordered h)
    · split
      · exact issueEach_ordered (raiseAll_ordered (finishJob_ordered h ⟨nofun, nofun⟩))
      · split
        · exact reportAfter_ordered (finishJob_ordered h ⟨nofun, nofun⟩)
        · exact raise_ordered (endTurn_ordered h fun _ => ⟨nofun, nofun⟩)
        · split
          · exact pauseJob_ordered h
          · split
            · exact endTurn_ordered h fun _ => ⟨nofun, nofun⟩
            · exact h
  · exact h

theorem settleRunning_ordered (h : StackOrdered s) : StackOrdered (settleRunning s) := by
  unfold settleRunning
  split
  · exact settleTurn_ordered h
  · exact h

/-- The job that RANGE.REKEY or start-up makes is PAUSED or QUEUED. -/
theorem rekeyJob_offStack (s : State) (r : RangeIx) (level : Nat) (p : LanePolicy) (chunkSize w : Nat) :
    OffStack (rekeyJob s r level p chunkSize w).state := by
  unfold rekeyJob OffStack
  dsimp only
  split <;> exact ⟨nofun, nofun⟩

theorem purgeJob_offStack (o : PurgeOpt) (l : List RangeIx) (lba : Nat) (again : Bool) :
    OffStack (purgeJob o l lba again).state := ⟨nofun, nofun⟩

theorem createRekey_ordered {r : RangeIx} (h : StackOrdered s) : StackOrdered (createRekey s r) := by
  unfold createRekey
  split
  · split
    · next hj _ => exact (queueJob_ordered h hj (rekeyJob_offStack ..)).congr (roster_modRange _ _ _)
    · exact h
  · exact h

theorem createPurge_ordered (h : StackOrdered s) : StackOrdered (createPurge s) := by
  unfold createPurge
  split
  · next hj => exact queueJob_ordered h hj (purgeJob_offStack ..)
  · exact h

theorem createUnscheduled_ordered (h : StackOrdered s) : StackOrdered (createUnscheduled s) :=
  (h.foldl (fun _ _ k => createRekey_ordered k) _).foldl (fun _ _ k => createPurge_ordered k) _

/-! ## The choice (R125) -/

/-- The top of the stack is more urgent than the others of it. -/
theorem StackOrdered.head_lt (h : StackOrdered s) {p i : JobNo} {a : Job} (hp : s.sweep.stack.head? = some p)
    (hb : jobAt s p = some b) (hi : i ∈ s.sweep.stack) (hne : i ≠ p) (ha : jobAt s i = some a) : b.level < a.level := by
  obtain ⟨rest, hs⟩ := List.head?_eq_some_iff.1 hp
  have hord := h.ordered
  rw [hs] at hord hi
  exact (List.pairwise_cons.1 hord).1 i ((List.mem_cons.1 hi).resolve_left hne) b a hb ha

theorem StackOrdered.head_le (h : StackOrdered s) {p i : JobNo} {a : Job} (hp : s.sweep.stack.head? = some p)
    (hb : jobAt s p = some b) (hi : i ∈ s.sweep.stack) (ha : jobAt s i = some a) : b.level ≤ a.level := by
  by_cases hne : i = p
  · subst hne
    exact Nat.le_of_eq (congrArg Job.level (Option.some.inj (hb.symm.trans ha)))
  · exact Nat.le_of_lt (h.head_lt hp hb hi hne ha)

/-- With no job RUNNING, a job becomes RUNNING that is more urgent than the others of the stack. -/
theorem becomeRunning_ordered (h : StackOrdered s) (hnone : runningJob s = none)
    (habove : ∀ b, jobAt s j = some b → ∀ i ∈ s.sweep.stack, i ≠ j → ∀ a, jobAt s i = some a → b.level < a.level) :
    StackOrdered (becomeRunning s j) := by
  cases hb : jobAt s j with
  | none => rwa [becomeRunning, hb]
  | some b =>
    rw [becomeRunning_eq hb]
    exact h.top (c := { b with state := .running }) hb hnone (habove b hb) rfl rfl rfl rfl rfl

theorem chooseIdle_ordered (h : StackOrdered s) (hnone : runningJob s = none) : StackOrdered (chooseIdle s) := by
  have hhead : ∀ p, s.sweep.stack.head? = some p → StackOrdered (becomeRunning s p) := fun p hp =>
    becomeRunning_ordered h hnone fun b hb i hi hne a ha => h.head_lt hp hb hi hne ha
  unfold chooseIdle
  split
  · exact h
  · next hs _ =>
    refine becomeRunning_ordered h hnone fun b _ i hi => ?_
    rw [List.head?_eq_none_iff.1 hs] at hi
    cases hi
  · next hp _ => exact hhead _ hp
  · next p q hp hq =>
    obtain ⟨⟨hqj, -⟩, -⟩ := mostUrgent_some hq
    split
    · next b hb =>
      split
      · next hlt =>
        refine becomeRunning_ordered h hnone fun c hc i hi _ a ha => ?_
        rw [← Option.some.inj (hqj.symm.trans hc)]
        exact Nat.lt_of_lt_of_le hlt (h.head_le hp hb hi ha)
      · exact hhead p hp
    · next hb =>
      obtain ⟨b, hb', -⟩ := h.onStack p (List.mem_of_mem_head? hp)
      exact nomatch hb.symm.trans hb'

/-- The preempted job. -/
def preemptedJob (b : Job) : Job := { b with state := .preempted, pending := .noAction }

/-- A job preempts the RUNNING one. -/
theorem preempting_ordered (h : StackOrdered s) (hb : jobAt s j = some b) (hrun : b.state = .running) {q : JobNo × Job}
    (hq : mostUrgent s = some q) (hlt : q.2.level < b.level) : StackOrdered (becomeRunning (preempt s j) q.1) := by
  obtain ⟨⟨hqj, hok⟩, -⟩ := mostUrgent_some hq
  obtain ⟨hqueued, -⟩ := (eligible_iff _).1 hok
  have hroster : roster (preempt s j) = roster (setJob s j (.job (preemptedJob b))) := by rw [preempt_eq hb]; rfl
  obtain ⟨hjobs, hstack, -⟩ := Roster.mk.inj hroster
  have hkept : StackOrdered (preempt s j) := (h.preempted_stays (c := preemptedJob b) hb hrun rfl rfl).congr hroster
  have hqne : q.1 ≠ j := by
    intro e
    rw [e, hb] at hqj
    rw [← Option.some.inj hqj, hrun] at hqueued
    cases hqueued
  have hother : ∀ i, i ≠ j → jobAt (preempt s j) i = jobAt s i := fun i hi => by rw [jobAt_put hjobs, if_neg hi]
  have hself : jobAt (preempt s j) j = some (preemptedJob b) := by rw [jobAt_put hjobs, if_pos rfl, jobOf_job]
  have hnone : runningJob (preempt s j) = none := by
    cases hr : runningJob (preempt s j) with
    | none => rfl
    | some i =>
      obtain ⟨a, ha, har⟩ := runningJob_some hr
      by_cases hi : i = j
      · rw [hi, hself] at ha
        cases ha
        cases har
      · rw [hother i hi] at ha
        exact absurd (h.running_unique ha hb har hrun) hi
  refine becomeRunning_ordered hkept hnone fun c hc i hi _ a ha => ?_
  rw [hother q.1 hqne, hqj] at hc
  cases hc
  replace hi : i ∈ s.sweep.stack := hstack ▸ hi
  by_cases hij : i = j
  · rw [hij, hself] at ha
    cases ha
    exact hlt
  · rw [hother i hij] at ha
    exact Nat.lt_trans hlt (h.head_lt (h.running j b hb hrun) hb hi hij ha)

theorem choose_ordered (h : StackOrdered s) : StackOrdered (choose s) := by
  unfold choose
  split
  · next j hj =>
    obtain ⟨a, ha, hrun⟩ := runningJob_some hj
    split
    · next b q hb hq =>
      split
      · next hlt => exact preempting_ordered h hb (Option.some.inj (ha.symm.trans hb) ▸ hrun) hq hlt
      · exact h
    · exact h
  · next hnone => exact chooseIdle_ordered h hnone

/-! ## The engine (R123) -/

theorem pastRange_rank (s : State) (b : Job) : (pastRange s b).state = b.state ∧ (pastRange s b).level = b.level := ⟨rfl, rfl⟩

theorem onward_ordered {again : State → State} (hagain : ∀ t, StackOrdered t → StackOrdered (again t)) (h : StackOrdered s) :
    StackOrdered (onward again s) := by
  unfold onward
  split
  · exact hagain s h
  · split
    · exact hagain _ (modJob_ordered h (pastRange_rank s))
    · exact h.congr (roster_goOn s)

theorem engineTurn_ordered (n : Nat) (h : StackOrdered s) : StackOrdered (engineTurn n s) := by
  induction n generalizing s with
  | zero => exact h
  | succ n ih => exact onward_ordered (fun _ => ih) (choose_ordered (createUnscheduled_ordered (settleRunning_ordered h)))

theorem engine_ordered (h : StackOrdered s) : StackOrdered (engine s) := by
  unfold engine
  split
  · exact h
  · split
    · exact engineTurn_ordered 29 h
    · exact createUnscheduled_ordered h

end Sys2Proof.Machine
end

section
/-! Locks, wipes, chunks and start-up keep the law of the in-service stack (O6). -/

namespace Sys2Proof.Machine

variable {s : State} {j : JobNo} {r : RangeIx}

theorem modRange_ordered {f : RangeEntry → RangeEntry} (h : StackOrdered s) : StackOrdered (modRange s r f) := h.congr rfl

theorem issue_ordered {l : List (StoreOp × Done)} (h : StackOrdered s) : StackOrdered (issue s l) := h.congr (roster_issue s l)

theorem setChunk_ordered {c : Option Chunk} (h : StackOrdered s) : StackOrdered (setChunk s c) := h.congr rfl

theorem releaseNames_ordered (h : StackOrdered s) : StackOrdered (releaseNames s r) := h.congr (roster_releaseNames s r)

theorem withTheft_ordered {x : Theft} (h : StackOrdered s) : StackOrdered { s with theft := x } := h.congr rfl

/-! ## Locks and wipes (R74, R107, R112 to R114) -/

theorem lockRange_ordered {c : LockCause} (h : StackOrdered s) : StackOrdered (lockRange c s r) := by
  unfold lockRange
  split
  · refine raise_ordered ?_
    split
    · exact lockJob_ordered (modRange_ordered (releaseNames_ordered h))
    · exact modRange_ordered (releaseNames_ordered h)
  · exact h

theorem lockProcedure_ordered {set : List RangeIx} {c : LockCause} (h : StackOrdered s) :
    StackOrdered (lockProcedure s set c) :=
  h.foldl (fun _ _ k => lockRange_ordered k) _

theorem makeDraining_ordered {set : List RangeIx} {x : State × Release} (h : StackOrdered x.1) :
    StackOrdered (makeDraining set x r).1 := by
  refine wipeJobs_ordered ?_
  dsimp only
  exact modRange_ordered (releaseNames_ordered h)

theorem placeGroups_ordered {o : PurgeOpt} {l : List (List RangeIx)} (h : StackOrdered s) :
    StackOrdered (placeGroups o s l).1 := by
  induction l generalizing s with
  | nil => exact h
  | cons g gs ih =>
    unfold placeGroups
    split
    · next hj => exact ih (queueJob_ordered h hj (purgeJob_offStack ..))
    · exact h

theorem displace_ordered {need n : Nat} {x : State × Release} (h : StackOrdered x.1) :
    StackOrdered (displace need n x).1 := by
  induction n generalizing x with
  | zero => exact h
  | succ n ih =>
    unfold displace
    split
    · split
      · exact ih (raise_ordered (finishJob_ordered h ⟨nofun, nofun⟩))
      · exact h
    · exact h

theorem theftPurge_ordered {c : TheftCause} {set : List RangeIx} (h : StackOrdered s) :
    StackOrdered (theftPurge s c set).1 := by
  unfold theftPurge
  split
  · exact raiseAll_ordered (placeGroups_ordered (displace_ordered h))
  · exact h

/-- The event of a theft wipe, but for the intent entries that it adds, which the law does not see. -/
theorem theftTrigger_ordered {c : TheftCause} (h : StackOrdered s) : StackOrdered (theftTrigger s c).1 := by
  unfold theftTrigger
  refine issueEach_ordered (.congr (theftPurge_ordered (StackOrdered.foldlFst (fun _ _ k => makeDraining_ordered k) _ ?_)) rfl)
  exact raise_ordered (h.congr rfl)

theorem issueTheft_ordered {l : List (StoreOp × Done)} (h : StackOrdered s) : StackOrdered (issueTheft s l) :=
  h.congr (roster_issueTheft s l)

theorem theftTamper_ordered (h : StackOrdered s) : StackOrdered (theftTamper s) := issueTheft_ordered (theftTrigger_ordered h)

theorem theftLockedStarts_ordered (h : StackOrdered s) : StackOrdered (theftLockedStarts s) :=
  issueTheft_ordered (theftTrigger_ordered h)

/-! ## The chunk in motion -/

variable {c : Chunk}

theorem endRekey_ordered {e : ChunkEnd} (h : StackOrdered s) : StackOrdered (endRekey s c e) := by
  refine engine_ordered (settleTurn_ordered (h.congr ?_))
  rw [roster_dropOpt, roster_dropOpt, roster_releaseHeld, roster_setChunk, roster_modRange]

theorem failRekey_ordered (h : StackOrdered s) : StackOrdered (failRekey s c) := endRekey_ordered h

theorem migrationStored_ordered {w : Nat} (h : StackOrdered s) : StackOrdered (migrationStored s r w j) := by
  unfold migrationStored
  split
  · exact modJob_ordered (h.congr (roster_completeMigration s r)) fun _ => ⟨rfl, rfl⟩
  · exact modJob_ordered (modRange_ordered h) fun _ => ⟨rfl, rfl⟩

theorem checkpointStored_ordered (h : StackOrdered s) : StackOrdered (checkpointStored s c) := by
  unfold checkpointStored
  refine endRekey_ordered ?_
  split
  · exact migrationStored_ordered h
  · exact modJob_ordered (modRange_ordered h) fun _ => ⟨rfl, rfl⟩

theorem purgeAdvanced_rank (s : State) (c : Chunk) (b : Job) :
    (purgeAdvanced s c b).state = b.state ∧ (purgeAdvanced s c b).level = b.level := by
  unfold purgeAdvanced
  dsimp only
  split
  · exact ⟨rfl, rfl⟩
  · split <;> exact ⟨rfl, rfl⟩

theorem purgeStored_ordered {final : Bool} (h : StackOrdered s) : StackOrdered (purgeStored s c final) := by
  unfold purgeStored
  split
  · exact issue_ordered (setChunk_ordered h)
  · refine engine_ordered (settleTurn_ordered (setChunk_ordered (modJob_ordered ?_ (purgeAdvanced_rank _ c))))
    split
    · exact modRange_ordered h
    · exact h

theorem failPurge_ordered (h : StackOrdered s) : StackOrdered (failPurge s c) :=
  engine_ordered (settleTurn_ordered (setChunk_ordered h))

theorem readsDone_ordered {p : LanePolicy} (h : StackOrdered s) : StackOrdered (readsDone s c p) := by
  unfold readsDone
  split
  · exact failRekey_ordered h
  · dsimp only
    split
    · exact failRekey_ordered h
    · exact h.congr (roster_askLanes _ p)

theorem stagingDone_ordered (h : StackOrdered s) : StackOrdered (stagingDone s c) := by
  unfold stagingDone
  split
  · exact failRekey_ordered h
  · split
    · exact h.congr (roster_storeStaged s c)
    · exact issue_ordered (h.congr rfl)

theorem fillDone_ordered {b : Job} (h : StackOrdered s) : StackOrdered (fillDone s c b) := by
  unfold fillDone
  split
  · exact failPurge_ordered h
  · exact h.congr (roster_storePurge _ _ _ _)

theorem chunkGoOn_ordered (h : StackOrdered s) : StackOrdered (chunkGoOn s c) := by
  unfold chunkGoOn
  split
  · exact setChunk_ordered h
  · split
    · split
      · exact readsDone_ordered h
      · exact stagingDone_ordered h
      · exact h.congr (roster_homeDone s c)
      · exact h.congr (roster_storeUndo s c)
      · exact fillDone_ordered h
      all_goals exact setChunk_ordered h
    · exact setChunk_ordered h

theorem chunkAnswer_ordered {q : SweepReq} {a : Answer} (h : StackOrdered s) : StackOrdered (chunkAnswer s c q a) := by
  unfold chunkAnswer
  split
  case h_2 => exact (setChunk_ordered h).foldl (fun s _ k => k.congr (roster_askSweep s _ _ _ _ _)) _
  case h_11 => exact h.congr rfl
  case h_16 => exact h.congr rfl
  all_goals exact chunkGoOn_ordered h

theorem chunkStored_ordered (h : StackOrdered s) : StackOrdered (chunkStored s) := by
  unfold chunkStored
  split
  · split
    · refine .congr ?_ (roster_storeStaged _ _)
      exact raiseAll_ordered h
    · exact h.congr (roster_homeWrites s _)
    · exact checkpointStored_ordered h
    · exact failRekey_ordered h
    · exact purgeStored_ordered h
    all_goals exact h
  · exact h

theorem completingStored_ordered {w : Nat} (h : StackOrdered s) : StackOrdered (completingStored s r w) := by
  unfold completingStored
  dsimp only
  split
  · exact engine_ordered (settleTurn_ordered (migrationStored_ordered (h.congr rfl)))
  · exact h.congr rfl

theorem purgedStored_ordered (h : StackOrdered s) : StackOrdered (purgedStored s r j) := by
  have hsteady : StackOrdered (modRange (offCompleting s r) r (fun x => { x with cond := .steady })) := h.congr rfl
  unfold purgedStored
  dsimp only
  split
  · split
    · split
      · refine engine_ordered ?_
        split
        · exact settleTurn_ordered (modJob_ordered hsteady (pastRange_rank _))
        · exact modJob_ordered hsteady (pastRange_rank _)
      · exact engine_ordered hsteady
    · exact engine_ordered hsteady
  · exact h.congr rfl

/-! ## Start-up and the power controller -/

theorem pauseRunning_ordered (h : StackOrdered s) : StackOrdered (pauseRunning s) := by
  unfold pauseRunning
  split
  · split
    · exact h
    · exact pauseJob_ordered h
  · exact h

theorem beginSleepEntry_ordered (h : StackOrdered s) : StackOrdered (beginSleepEntry s) := pauseRunning_ordered (h.congr rfl)

theorem admitPhase_ordered {u : StartUp} (h : StackOrdered s) : StackOrdered (admitPhase s u) := by
  have hkeys : StackOrdered (createUnscheduled (keyPhase s)) := createUnscheduled_ordered (h.congr (roster_keyPhase s))
  have hjournal : StackOrdered (journalPhase (createUnscheduled (keyPhase s)) u) := hkeys.congr (roster_journalPhase _ u)
  unfold admitPhase
  dsimp only
  refine .congr (s := engine _) (engine_ordered ?_) ((roster_takeNext _).trans (roster_admitWaiting _))
  split
  · exact beginSleepEntry_ordered (withTheft_ordered hjournal)
  · exact withTheft_ordered hjournal

theorem setPhase_ordered {p : Phase} (h : StackOrdered s) : StackOrdered (setPhase s p) := h.congr rfl

theorem runPhase_ordered {u : StartUp} (h : StackOrdered s) : StackOrdered (runPhase s u) := by
  have hload : StackOrdered (loadTables s) := h.congr (roster_loadTables s)
  unfold runPhase
  split
  · exact setPhase_ordered h
  · exact setPhase_ordered (h.congr (roster_loadPhase s u.inputs))
  · exact setPhase_ordered (h.congr (roster_intentPass s))
  · dsimp only
    split
    · exact setPhase_ordered hload
    · split
      · next x _ => exact setPhase_ordered (hload.congr (roster_startRecovery _ x.1 x.2))
      · exact setPhase_ordered hload
  · split
    · next v _ => exact setPhase_ordered (h.congr (roster_storeRecovery s v))
    · exact setPhase_ordered h
  · split
    · next v _ => exact setPhase_ordered (h.congr (roster_endRecovery s v))
    · exact setPhase_ordered h
  · exact setPhase_ordered (h.congr (roster_lockedStartCheck s))
  · split
    · exact setPhase_ordered (theftLockedStarts_ordered h)
    · exact setPhase_ordered h
  · dsimp only
    split
    · exact setPhase_ordered h
    · exact h.foldl (fun s r k => k.congr (roster_startDrainFinish s r)) _
  · exact admitPhase_ordered h

theorem advance_ordered (n : Nat) (h : StackOrdered s) : StackOrdered (advance n s) := by
  induction n generalizing s with
  | zero => exact h
  | succ n ih =>
    unfold advance
    split
    · split
      · exact h
      · exact ih (runPhase_ordered h)
    · exact h

theorem startUpGoesOn_ordered (h : StackOrdered s) : StackOrdered (startUpGoesOn s) := advance_ordered 64 h

/-- With an empty job table and stack and no request in service the law holds. -/
theorem stackOrdered_of_empty (hsweep : s.sweep = emptySweep) (hserv : s.control.service = none) : StackOrdered s := by
  have hfree : ∀ i : JobNo, jobAt s i = none := fun i => by
    rw [jobAt_eq_jobOf, hsweep]
    simp [emptySweep, jobOf]
  have hstack : s.sweep.stack = [] := by rw [hsweep]; rfl
  constructor
  · rw [hstack]; exact .nil
  · rw [hstack]; exact .nil
  · intro i b hb
    exact nomatch (hfree i).symm.trans hb
  · intro i b hb
    exact nomatch (hfree i).symm.trans hb
  · intro i hi
    rw [hstack] at hi
    cases hi
  · intro v r i l p k hv
    exact nomatch hserv.symm.trans hv

theorem clearVolatile_ordered (s : State) (written : Bool) : StackOrdered (clearVolatile s written) :=
  stackOrdered_of_empty rfl rfl

theorem beginStartUp_ordered {cause : StartCause} {p : StartInputs} {ph : Phase} (h : StackOrdered s) :
    StackOrdered (beginStartUp s cause p ph) := startUpGoesOn_ordered (h.congr rfl)

theorem restartPart_ordered (s : State) (p : StartInputs) : StackOrdered (restartPart s p) :=
  beginStartUp_ordered (clearVolatile_ordered _ _)

theorem pauseForDoze_ordered (h : StackOrdered s) : StackOrdered (pauseForDoze s j) := by
  unfold pauseForDoze
  split
  · split
    · exact pauseJob_ordered h
    · exact h
  · exact h

theorem enterPower_ordered {p : PowerState} (h : StackOrdered s) : StackOrdered (enterPower s p) :=
  h.congr (roster_enterPower s p)

theorem backToActive_ordered (h : StackOrdered s) : StackOrdered (backToActive s) :=
  engine_ordered (returnPower_ordered (enterPower_ordered h))

theorem becomeReady_ordered (h : StackOrdered s) : StackOrdered (becomeReady s) :=
  (enterPower_ordered (lockProcedure_ordered h)).congr rfl

theorem takeAction_ordered {line : TamperLine} {edge : Edge} {a : Action} (h : StackOrdered s) :
    StackOrdered (takeAction s line edge a) := by
  unfold takeAction
  dsimp only
  split
  · exact raise_ordered h
  · exact raise_ordered h
  · exact engine_ordered (lockProcedure_ordered (raise_ordered h))
  · exact engine_ordered (theftTamper_ordered (raise_ordered h))

theorem acceptEdge_ordered {line : TamperLine} {l : Level} (h : StackOrdered s) : StackOrdered (acceptEdge s line l) := by
  have hput : StackOrdered { s with theft := setFilter s.theft line ⟨l, 0, 0, samplePeriod s⟩ } := withTheft_ordered h
  unfold acceptEdge judgeEdge
  dsimp only
  split
  · exact hput
  · split
    · split
      · exact raise_ordered hput
      · exact takeAction_ordered hput
    · exact takeAction_ordered hput

end Sys2Proof.Machine
end

section
/-! The request in service keeps the law of the in-service stack (O6). While its last write completes, the entry that
RANGE.REKEY holds is let go: the law is then read with the request out of service. -/

namespace Sys2Proof.Machine

variable {s t : State} {r : RangeIx} {j : JobNo} {d : Bool}

theorem modCred_ordered {c : CredIx} {f : Cred → Cred} (h : StackOrdered s) : StackOrdered (modCred s c f) := h.congr rfl

theorem modDev_ordered {f : Device → Device} (h : StackOrdered s) : StackOrdered (modDev s f) := h.congr rfl

theorem takeUp_ordered {want : RangeIx → Bool} (h : StackOrdered s) : StackOrdered (takeUp s want) :=
  h.congr (roster_takeUp s want)

theorem takeUp_jobs (s : State) (want : RangeIx → Bool) : (takeUp s want).sweep.jobs = s.sweep.jobs :=
  (Roster.mk.inj (roster_takeUp s want)).1

theorem configChanged_ordered {x : Option RangeIx} {c : Option CredIx} {code : BitVec 16} (h : StackOrdered s) :
    StackOrdered (configChanged s x c code) := h.congr (roster_configChanged s x c code)

theorem endPrepared_ordered (h : StackOrdered s) : StackOrdered (endPrepared s) := h.congr rfl

theorem withRegions_ordered {x : Regions} (h : StackOrdered s) : StackOrdered { s with regions := x } := h.congr rfl

/-! ## The entry held for the request in service -/

/-- The request in service holds no entry any more. -/
theorem StackOrdered.letGo (h : StackOrdered s) (hjobs : t.sweep.jobs = s.sweep.jobs) (hstack : t.sweep.stack = s.sweep.stack)
    (hheld : heldIn t.control = none) : StackOrdered t :=
  h.holding hjobs hstack fun _ hj => nomatch hheld.symm.trans hj

/-- The state with the request out of service. -/
def unserved (s : State) : State := withControl s { s.control with service := none }

theorem roster_unserved (e : roster t = roster s) : roster (unserved t) = roster (unserved s) := by
  obtain ⟨hjobs, hstack, -⟩ := Roster.mk.inj e
  exact congrArg₂ (Roster.mk · · none) hjobs hstack

theorem unserved_ordered (h : StackOrdered s) : StackOrdered (unserved s) := h.letGo rfl rfl rfl

theorem heldIn_setAfter {a : After} (h : heldIn (setAfter s a).control = some j) : heldEntry a = some j := by
  obtain ⟨w, hw, hj⟩ := Option.bind_eq_some_iff.1 h
  obtain ⟨v, -, rfl⟩ := Option.map_eq_some_iff.1 hw
  exact hj

/-- The request in service waits for something else, and holds no entry or a reserved one. -/
theorem setAfter_holding {a : After} (h : StackOrdered s) (ha : ∀ j, heldEntry a = some j → s.sweep.jobs[j] = .reserved) :
    StackOrdered (setAfter s a) :=
  h.holding rfl rfl fun j hj => ha j (heldIn_setAfter hj)

theorem setAfter_ordered {a : After} (h : StackOrdered s) (ha : heldEntry a = none) : StackOrdered (setAfter s a) :=
  setAfter_holding h fun _ hj => nomatch ha.symm.trans hj

/-! ## The answer -/

/-- The answer of the request in service takes it out of service. -/
theorem respond_unserved {x : Response} (h : StackOrdered (unserved s)) : StackOrdered (respond s x) := by
  unfold respond
  split
  · refine .congr (s := unserved s) h ?_
    dsimp only
    rw [roster_takeNext]
    split <;> rfl
  · next hserv => exact h.congr (roster_control (unserved s) (heldIn_of_idle hserv))

theorem respond_ordered {x : Response} (h : StackOrdered s) : StackOrdered (respond s x) :=
  respond_unserved (unserved_ordered h)

theorem respondAfter_ordered {l : List StoreOp} {x : Response} (h : StackOrdered s) : StackOrdered (respondAfter s l x) := by
  unfold respondAfter
  split
  · exact respond_ordered h
  · exact (setAfter_ordered h rfl).congr (roster_issueAll _ _ _)

/-! ## What the last write of a request makes -/

theorem openIfUnguarded_ordered (h : StackOrdered s) : StackOrdered (openIfUnguarded s r) := by
  unfold openIfUnguarded
  dsimp only
  split
  · exact returnUnlocked_ordered (modRange_ordered h)
  · exact h

theorem credChanged_ordered {c : CredIx} {f : Cred → Cred} {l : List RangeIx} (h : StackOrdered s) :
    StackOrdered (credChanged s c f l) := by
  unfold credChanged
  split
  · exact modCred_ordered h
  · exact engine_ordered ((takeUp_ordered (modCred_ordered h)).foldl (fun _ _ k => openIfUnguarded_ordered k) l)

theorem unlockRange_ordered {c : Option CredIx} {access : RangeIx → Access} (h : StackOrdered s) :
    StackOrdered (unlockRange c access s r) := by
  unfold unlockRange
  dsimp only
  split
  · exact raise_ordered (returnUnlocked_ordered (modRange_ordered h))
  · exact h

theorem unlockAll_ordered {c : Option CredIx} {set : List RangeIx} {access : RangeIx → Access} (h : StackOrdered s) :
    StackOrdered (unlockAll s c set access) :=
  engine_ordered ((takeUp_ordered h).foldl (fun _ _ k => unlockRange_ordered k) set)

theorem commitRange_ordered {set : List RangeIx} {x : State × Release} (h : StackOrdered x.1) :
    StackOrdered (commitRange set x r).1 := by
  have hdrain : StackOrdered (if x.1.ranges[r].cond = .draining then x else makeDraining set x r).1 := by
    split
    · exact h
    · exact makeDraining_ordered h
  unfold commitRange
  dsimp only
  split
  · exact raise_ordered hdrain
  · exact hdrain

theorem commitStored_ordered {set : List RangeIx} {purge : Option PurgeOpt} (h : StackOrdered s) :
    StackOrdered (commitStored s set purge).1 := by
  have hranges : ∀ t : State, StackOrdered t → StackOrdered (set.foldl (commitRange set) (t, ⟨[], []⟩)).1 :=
    fun t k => StackOrdered.foldlFst (fun _ _ k => commitRange_ordered k) set k
  unfold commitStored
  dsimp only
  split
  · refine placeGroups_ordered (hranges _ ?_)
    exact h.congr rfl
  · refine hranges _ ?_
    exact h.congr rfl

theorem forgetRange_ordered (h : StackOrdered s) : StackOrdered (forgetRange r s j) := by
  unfold forgetRange
  split
  · next b hb =>
    split
    · have hforgot : StackOrdered (setJob s j (.job (withoutRange s r b))) := h.sameRank hb rfl rfl
      dsimp only
      split
      · exact raise_ordered (finishJob_ordered hforgot ⟨nofun, nofun⟩)
      · exact hforgot
    · exact h
  · exact h

theorem deleteRange_ordered (h : StackOrdered s) : StackOrdered (deleteRange s r) := by
  have hfreed : StackOrdered (modRange (releaseNames s r) r freedEntry) := modRange_ordered (releaseNames_ordered h)
  unfold deleteRange
  dsimp only
  refine StackOrdered.foldl (fun _ _ k => forgetRange_ordered k) allJobs ?_
  exact hfreed.congr rfl

/-! ## RANGE.REKEY (R140, R141) -/

/-- The engine, with the request out of service. -/
theorem engine_unserved (s : State) : unserved (engine s) = engine (unserved s) := by
  have hcontrol := (engine_spared (s := s) (t := s) .refl).control
  rw [unserved, hcontrol, ← engine_withControl]
  rfl

/-- The entry that the request held becomes free, or takes the job. -/
theorem setHeld_unserved {e : JobEntry} (h : StackOrdered (unserved s)) (hj : AtRest s.sweep.jobs[j]) (he : AtRest e) :
    StackOrdered (unserved (setJob s j e)) :=
  StackOrdered.setJob (s := unserved s) h hj (nofun) he

theorem queueHeld_unserved {b : Job} (h : StackOrdered (unserved s)) (hj : AtRest s.sweep.jobs[j]) (hb : OffStack b.state) :
    StackOrdered (unserved (queueJob s j b)) :=
  (setHeld_unserved (e := .job { b with stamp := s.sweep.nextStamp }) h hj hb).congr rfl

theorem startRekey_unserved {level chunkSize : Nat} {p : LanePolicy} (h : StackOrdered s) (hj : AtRest s.sweep.jobs[j]) :
    StackOrdered (unserved (startRekey s r j level p chunkSize)) := by
  unfold startRekey
  dsimp only
  rw [engine_unserved]
  refine engine_ordered (queueHeld_unserved ?_ ?_ (rekeyJob_offStack ..))
  · exact unserved_ordered (takeUp_ordered (modRange_ordered h))
  · rw [takeUp_jobs]
    exact hj

/-- RANGE.REKEY of a range that drains gives its entry back (R141). -/
theorem dropRekey_unserved {want : RangeIx → Bool} (h : StackOrdered s) (hj : AtRest s.sweep.jobs[j]) :
    StackOrdered (unserved (engine (setJob (takeUp s want) j .free))) := by
  rw [engine_unserved]
  refine engine_ordered (setHeld_unserved (unserved_ordered (takeUp_ordered h)) ?_ trivial)
  rw [takeUp_jobs]
  exact hj

/-! ## The completion of the last write (R174) -/

theorem finishService_ordered (h : StackOrdered s) : StackOrdered (finishService s) := by
  unfold finishService
  split
  · exact h
  · next v hv =>
    dsimp only
    split
    · exact h
    · exact respond_ordered h
    · exact respond_ordered (endPrepared_ordered h)
    · exact respond_ordered h
    · split
      · exact h
      · exact restartPart_ordered _ _
    · exact respond_ordered (unlockAll_ordered (modDev_ordered h))
    · exact respond_ordered (configChanged_ordered (credChanged_ordered h))
    · exact respond_ordered (configChanged_ordered (credChanged_ordered h))
    · exact respond_ordered (configChanged_ordered (credChanged_ordered h))
    · exact respond_ordered (configChanged_ordered (credChanged_ordered h))
    · exact respond_ordered (configChanged_ordered (credChanged_ordered h))
    · exact respond_ordered (configChanged_ordered (credChanged_ordered h))
    · exact respond_ordered (configChanged_ordered (credChanged_ordered h))
    · exact respond_ordered (configChanged_ordered (takeUp_ordered (modRange_ordered h)))
    · exact respondAfter_ordered (configChanged_ordered (engine_ordered (deleteRange_ordered h)))
    · refine respond_ordered (configChanged_ordered ?_)
      split
      · exact credChanged_ordered (modRange_ordered h)
      · exact modRange_ordered h
    · next r j level p chunkSize ha =>
      have hj : AtRest s.sweep.jobs[j] := by
        rw [h.entryHeld v r j level p chunkSize hv ha]
        trivial
      split
      · exact respond_unserved (dropRekey_unserved h hj)
      · have hstart : StackOrdered (unserved (startRekey s r j level p chunkSize)) := startRekey_unserved h hj
        exact respond_unserved (hstart.congr (roster_unserved (roster_configChanged _ _ _ _)))
    · refine respond_ordered (configChanged_ordered ?_)
      split
      · exact withRegions_ordered (modDev_ordered h)
      · exact withRegions_ordered h
    · exact respond_ordered (configChanged_ordered (withRegions_ordered (modDev_ordered h)))
    · split
      · exact respond_ordered h
      · split
        · exact respond_ordered h
        · refine issue_ordered (h.letGo rfl rfl rfl)
    · exact respondAfter_ordered (engine_ordered (commitStored_ordered h))
    · exact respond_ordered (configChanged_ordered (h.congr (roster_setTheft s _ _ _ _)))
    · refine respond_ordered (configChanged_ordered (engine_ordered ?_))
      exact h.congr rfl

theorem afterTheft_ordered (h : StackOrdered s) : StackOrdered (afterTheft s) := by
  unfold afterTheft
  split
  · split
    · exact finishService_ordered h
    · exact h
  · exact h.congr (roster_takeNext s)

/-! ## Checks, and what follows them (R65 to R68) -/

/-- The request makes its writes, holding no entry, or goes on. -/
theorem proceed_ordered {l : List StoreOp} {a : After} (h : StackOrdered s) (ha : heldEntry a = none) :
    StackOrdered (proceed s d l a) := by
  unfold proceed
  dsimp only
  split
  · exact finishService_ordered (setAfter_ordered h ha)
  · exact (setAfter_ordered h ha).congr (roster_issueChain _ _ _)

theorem refuse_ordered {st : RespStatus} (h : StackOrdered s) : StackOrdered (refuse s d st) := proceed_ordered h rfl

theorem carried_ordered {x : Results} (h : StackOrdered s) : StackOrdered (carried s d x) := proceed_ordered h rfl

theorem mismatch_ordered {b : RequestBlock} {c : CredIx} (h : StackOrdered s) : StackOrdered (mismatch s b c) := by
  have hcount : StackOrdered (setAfter (countMismatch s b c) (.respond (refusal .denied))) :=
    setAfter_ordered (h.congr (roster_countMismatch s b c)) rfl
  unfold mismatch
  dsimp only
  split
  · exact engine_ordered (issueTheft_ordered (theftTrigger_ordered (modDev_ordered hcount)))
  · exact issue_ordered hcount

theorem withProof_ordered {b : RequestBlock} {owner : Bool} {go : State → Option CredIx → Bool → State} (h : StackOrdered s)
    (hgo : ∀ u c d, StackOrdered u → StackOrdered (go u c d)) : StackOrdered (withProof s b owner go) := by
  unfold withProof
  split
  · exact refuse_ordered h
  · exact mismatch_ordered h
  · exact hgo _ _ _ (h.congr (roster_countMatch s _))
  · exact hgo _ _ _ h

theorem ownerRequest_ordered {b : RequestBlock} {config : Bool} {go : State → Bool → State} (h : StackOrdered s)
    (hgo : ∀ u d, StackOrdered u → StackOrdered (go u d)) : StackOrdered (ownerRequest s b config go) :=
  withProof_ordered h fun u c d k => by
    split
    · exact refuse_ordered k
    · split
      · exact refuse_ordered k
      · exact hgo u d k

end Sys2Proof.Machine
end

section
/-! The requests keep the law of the in-service stack (O6). -/

namespace Sys2Proof.Machine

variable {s : State} {d : Bool} {l : List Nat}

/-! ## What an outcome is ordered by -/

/-- Where an outcome is a next state, the law of the stack holds of it. -/
def Orders (o : Host.Outcome State Fault Refusal) : Prop := ∀ t, o = .next t → StackOrdered t

theorem Orders.next {t : State} (h : StackOrdered t) : Orders (.next t) := fun _ e => by cases e; exact h

theorem Orders.fault {f : Fault} : Orders (.fault f) := fun _ e => by cases e

theorem Orders.ite {p : Prop} [Decidable p] {a b : Host.Outcome State Fault Refusal} (ha : Orders a) (hb : Orders b) :
    Orders (if p then a else b) := by
  split
  · exact ha
  · exact hb

theorem StackOrdered.ite {p : Prop} [Decidable p] {t : State} (hs : StackOrdered s) (ht : StackOrdered t) :
    StackOrdered (if p then s else t) := by
  split
  · exact hs
  · exact ht

/-- A request of an owner is ordered where its service is. -/
theorem Orders.owner {b : RequestBlock} {config : Bool} {go : State → Bool → State} (h : StackOrdered s)
    (hgo : ∀ u d, StackOrdered u → StackOrdered (go u d)) : Orders (.next (ownerRequest (endPrepared s) b config go)) :=
  .next (ownerRequest_ordered (endPrepared_ordered h) hgo)

/-- A request with a proof is ordered where its service is. -/
theorem Orders.proof {b : RequestBlock} {owner : Bool} {go : State → Option CredIx → Bool → State} (h : StackOrdered s)
    (hgo : ∀ u c d, StackOrdered u → StackOrdered (go u c d)) : Orders (.next (withProof (endPrepared s) b owner go)) :=
  .next (withProof_ordered (endPrepared_ordered h) hgo)

/-! ## Queries, and the part (R84, R176 to R181) -/

theorem execQuery_ordered (h : StackOrdered s) : Orders (execQuery s) := by
  unfold execQuery
  split
  · split
    · exact .next (withProof_ordered h fun _ _ _ k => proceed_ordered k rfl)
    · exact .proof h fun _ _ _ k => k
    · exact .proof h fun _ _ _ k => k
  · exact .next h

theorem execRestart_ordered (p : StartInputs) (h : StackOrdered s) : Orders (execRestart p s) := by
  unfold execRestart
  split
  · exact .owner h fun _ _ k => proceed_ordered k rfl
  · exact .next h

theorem execFreeze_ordered (h : StackOrdered s) : Orders (execFreeze s) := by
  unfold execFreeze
  split
  · exact .proof h fun _ _ _ k => carried_ordered (k.congr rfl)
  · exact .next h

theorem execJournalRead_ordered (h : StackOrdered s) : Orders (execJournalRead s) := by
  unfold execJournalRead
  split
  · exact .proof h fun _ _ _ k => carried_ordered (k.congr rfl)
  · exact .next h

theorem execJournalMask_ordered (h : StackOrdered s) : Orders (execJournalMask s) := by
  unfold execJournalMask
  split
  · exact .proof h fun _ _ _ k => carried_ordered (k.congr rfl)
  · exact .next h

theorem execUnknownRequest_ordered (h : StackOrdered s) : Orders (execUnknownRequest s) := by
  unfold execUnknownRequest
  split
  · split
    · exact .next (respond_ordered (endPrepared_ordered h))
    · exact .next h
  · exact .next h

/-! ## Locks and credentials (chapter 4) -/

theorem holdKeys_ordered {set : List RangeIx} (h : StackOrdered s) : StackOrdered (holdKeys s set) :=
  h.congr (roster_holdKeys s set)

theorem serveUnlock_ordered {c : CredIx} (h : StackOrdered s) : StackOrdered (serveUnlock s c d l) := by
  unfold serveUnlock
  split
  · exact refuse_ordered h
  · exact .ite (refuse_ordered h) (.ite (refuse_ordered h) (.ite (refuse_ordered h) (proceed_ordered (holdKeys_ordered h) rfl)))

theorem execUnlock_ordered (h : StackOrdered s) : Orders (execUnlock s) := by
  unfold execUnlock
  split
  · refine .ite (.proof h fun u c d k => ?_) (.next h)
    cases c with
    | none => exact k
    | some c => exact serveUnlock_ordered k
  · exact .next h

theorem serveUnlockAbsent_ordered (h : StackOrdered s) : StackOrdered (serveUnlockAbsent s l) := by
  unfold serveUnlockAbsent
  split
  · exact refuse_ordered h
  · exact .ite (refuse_ordered h) (.ite (refuse_ordered h)
      (.ite (refuse_ordered h) (carried_ordered (unlockAll_ordered (holdKeys_ordered h)))))

theorem execUnlockAbsent_ordered (h : StackOrdered s) : Orders (execUnlockAbsent s) := by
  unfold execUnlockAbsent
  split
  · exact .ite (.next (serveUnlockAbsent_ordered (endPrepared_ordered h))) (.next h)
  · exact .next h

theorem serveLock_ordered (h : StackOrdered s) : StackOrdered (serveLock s d l) := by
  unfold serveLock
  split
  · exact refuse_ordered h
  · exact .ite (refuse_ordered h) (carried_ordered (engine_ordered (lockProcedure_ordered h)))

theorem execLock_ordered (h : StackOrdered s) : Orders (execLock s) := by
  unfold execLock
  split
  · exact .proof h fun _ _ _ k => serveLock_ordered k
  · exact .next h

theorem serveCredSet_ordered {c : Option CredIx} {n v : Nat} (h : StackOrdered s) : StackOrdered (serveCredSet s c d n v) := by
  unfold serveCredSet
  refine .ite (refuse_ordered h) (.ite (refuse_ordered h) ?_)
  split
  · exact refuse_ordered h
  · exact proceed_ordered h rfl

theorem execCredSet_ordered (h : StackOrdered s) : Orders (execCredSet s) := by
  unfold execCredSet
  split
  · exact .proof h fun _ _ _ k => serveCredSet_ordered k
  · exact .next h

theorem serveCredClear_ordered {n : Nat} (h : StackOrdered s) : StackOrdered (serveCredClear s d n) := by
  unfold serveCredClear
  split
  · exact refuse_ordered h
  · exact .ite (refuse_ordered h) (proceed_ordered (holdKeys_ordered h) rfl)

theorem execCredClear_ordered (h : StackOrdered s) : Orders (execCredClear s) := by
  unfold execCredClear
  split
  · exact .owner h fun _ _ k => serveCredClear_ordered k
  · exact .next h

theorem execCredDisable_ordered (h : StackOrdered s) : Orders (execCredDisable s) := by
  unfold execCredDisable
  split
  · refine .owner h fun _ _ k => ?_
    split
    · exact refuse_ordered k
    · exact proceed_ordered k rfl
  · exact .next h

theorem execCredEnable_ordered (h : StackOrdered s) : Orders (execCredEnable s) := by
  unfold execCredEnable
  split
  · refine .owner h fun _ _ k => ?_
    split
    · exact refuse_ordered k
    · exact proceed_ordered k rfl
  · exact .next h

theorem serveCredGrant_ordered {n r a : Nat} (h : StackOrdered s) : StackOrdered (serveCredGrant s d n r a) := by
  unfold serveCredGrant
  split
  · exact .ite (refuse_ordered h) (.ite (refuse_ordered h) (proceed_ordered h rfl))
  · exact refuse_ordered h

theorem execCredGrant_ordered (h : StackOrdered s) : Orders (execCredGrant s) := by
  unfold execCredGrant
  split
  · exact .owner h fun _ _ k => serveCredGrant_ordered k
  · exact .next h

theorem serveCredRevoke_ordered {n r : Nat} (h : StackOrdered s) : StackOrdered (serveCredRevoke s d n r) := by
  unfold serveCredRevoke
  split
  · exact .ite (refuse_ordered h) (.ite (refuse_ordered h) (proceed_ordered (holdKeys_ordered h) rfl))
  · exact refuse_ordered h

theorem execCredRevoke_ordered (h : StackOrdered s) : Orders (execCredRevoke s) := by
  unfold execCredRevoke
  split
  · exact .owner h fun _ _ k => serveCredRevoke_ordered k
  · exact .next h

theorem serveCredBudget_ordered {n m : Nat} (h : StackOrdered s) : StackOrdered (serveCredBudget s d n m) := by
  unfold serveCredBudget
  split
  · exact .ite (proceed_ordered h rfl) (refuse_ordered h)
  · exact refuse_ordered h

theorem execCredBudget_ordered (h : StackOrdered s) : Orders (execCredBudget s) := by
  unfold execCredBudget
  split
  · exact .owner h fun _ _ k => serveCredBudget_ordered k
  · exact .next h

/-! ## Ranges and regions (chapters 2 and 5) -/

theorem serveRangeDefine_ordered {r start len flags : Nat} (h : StackOrdered s) :
    StackOrdered (serveRangeDefine s d r start len flags) := by
  unfold serveRangeDefine
  split
  · exact refuse_ordered h
  · exact .ite (refuse_ordered h) (.ite (refuse_ordered h) (.ite (refuse_ordered h)
      (proceed_ordered (h.congr (roster_placeKey (takeKey s).2 _ _ _ _ _)) rfl)))

theorem execRangeDefine_ordered (h : StackOrdered s) : Orders (execRangeDefine s) := by
  unfold execRangeDefine
  split
  · exact .owner h fun _ _ k => serveRangeDefine_ordered k
  · exact .next h

theorem serveRangeDelete_ordered {r : Nat} (h : StackOrdered s) : StackOrdered (serveRangeDelete s d r) := by
  unfold serveRangeDelete
  split
  · exact refuse_ordered h
  · exact .ite (refuse_ordered h) (.ite (refuse_ordered h) (proceed_ordered h rfl))

theorem execRangeDelete_ordered (h : StackOrdered s) : Orders (execRangeDelete s) := by
  unfold execRangeDelete
  split
  · exact .owner h fun _ _ k => serveRangeDelete_ordered k
  · exact .next h

theorem serveRangeFlags_ordered {r flags : Nat} (h : StackOrdered s) : StackOrdered (serveRangeFlags s d r flags) := by
  unfold serveRangeFlags
  split
  · exact refuse_ordered h
  · exact .ite (refuse_ordered h) (.ite (refuse_ordered h) (proceed_ordered (holdKeys_ordered h) rfl))

theorem execRangeFlags_ordered (h : StackOrdered s) : Orders (execRangeFlags s) := by
  unfold execRangeFlags
  split
  · exact .owner h fun _ _ k => serveRangeFlags_ordered k
  · exact .next h

/-- RANGE.REKEY holds an entry that can take a new job: it is reserved until the last write completes. -/
theorem takeRekey_ordered {r : RangeIx} {level chunkSize : Nat} {p : LanePolicy} (h : StackOrdered s) :
    StackOrdered (takeRekey s d r level p chunkSize) := by
  unfold takeRekey
  split
  · exact refuse_ordered h
  · next j hj =>
    have hreserved : StackOrdered (setJob s j .reserved) := setFree_ordered h hj trivial
    have hentry : (setJob s j .reserved).sweep.jobs[j] = .reserved := by rw [setJob_jobs, if_pos rfl]
    dsimp only
    split
    · refine refuse_ordered (engine_ordered (hreserved.setJob ?_ ?_ trivial))
      · rw [hentry]
        trivial
      · exact h.held_ne (ne_reserved_of_takesNew (freeEntry_takesNew hj))
    · have hplace := roster_placeKey (takeKey (setJob s j .reserved)).2 r s.ranges[r].gen .next
        (some (takeKey (setJob s j .reserved)).1) true
      have hjobs := (Roster.mk.inj hplace).1
      unfold proceed
      dsimp only
      split
      · next hempty => simp at hempty
      · refine .congr (setAfter_holding (hreserved.congr hplace) fun i hi => ?_) (roster_issueChain _ _ _)
        cases hi
        exact (congrArg (·[j]) hjobs).trans hentry

theorem serveRangeRekey_ordered {c : Option CredIx} {r level p chunkSize : Nat} (h : StackOrdered s) :
    StackOrdered (serveRangeRekey s c d r level p chunkSize) := by
  unfold serveRangeRekey
  refine .ite (refuse_ordered h) (.ite (refuse_ordered h) ?_)
  split
  · exact .ite (refuse_ordered h) (.ite (refuse_ordered h) (takeRekey_ordered h))
  · exact refuse_ordered h

theorem execRangeRekey_ordered (h : StackOrdered s) : Orders (execRangeRekey s) := by
  unfold execRangeRekey
  split
  · exact .proof h fun _ _ _ k => serveRangeRekey_ordered k
  · exact .next h

theorem serveCeiling_ordered {v m : Nat} (h : StackOrdered s) : StackOrdered (serveCeiling s d v m) := by
  unfold serveCeiling
  refine .ite (refuse_ordered h) ?_
  split
  · exact proceed_ordered h rfl
  · exact .ite (refuse_ordered h) (proceed_ordered h rfl)
  · exact refuse_ordered h

theorem execCeilingSet_ordered (h : StackOrdered s) : Orders (execCeilingSet s) := by
  unfold execCeilingSet
  split
  · exact .owner h fun _ _ k => serveCeiling_ordered k
  · exact .next h

theorem serveReserveOpen_ordered {c : Option CredIx} (h : StackOrdered s) : StackOrdered (serveReserveOpen s c d) := by
  unfold serveReserveOpen
  split
  · exact refuse_ordered h
  · exact proceed_ordered (withRegions_ordered h) rfl

theorem execReserveOpen_ordered (h : StackOrdered s) : Orders (execReserveOpen s) := by
  unfold execReserveOpen
  split
  · exact .proof h fun _ _ _ k => serveReserveOpen_ordered k
  · exact .next h

theorem execReserveClose_ordered (h : StackOrdered s) : Orders (execReserveClose s) := by
  unfold execReserveClose
  split
  · exact .owner h fun _ _ k => carried_ordered (withRegions_ordered k)
  · exact .next h

theorem servePbw_ordered {n e w : Nat} (h : StackOrdered s) : StackOrdered (servePbw s d n e w) := by
  unfold servePbw
  split
  · exact .ite (refuse_ordered h) (proceed_ordered h rfl)
  · exact refuse_ordered h

theorem execPbwSet_ordered (h : StackOrdered s) : Orders (execPbwSet s) := by
  unfold execPbwSet
  split
  · exact .owner h fun _ _ k => servePbw_ordered k
  · exact .next h

/-! ## Wipes, sweeps, and the theft and power policies (chapters 6, 7, 9 and 10) -/

theorem servePrepare_ordered {c : Option CredIx} {level p : Nat} {set : Option (List Nat)} (h : StackOrdered s) :
    StackOrdered (servePrepare s c d level p set) := by
  unfold servePrepare
  refine .ite (refuse_ordered h) (.ite (refuse_ordered h) ?_)
  split
  · exact .ite (refuse_ordered h) (carried_ordered (h.congr rfl))
  · exact refuse_ordered h

theorem execWipePrepare_ordered (h : StackOrdered s) : Orders (execWipePrepare s) := by
  unfold execWipePrepare
  split
  · exact .proof h fun _ _ _ k => servePrepare_ordered k
  · exact .next h

theorem serveCommit_ordered {p : Option Prepared} {c : Option CredIx} {t : Nat} (h : StackOrdered s) :
    StackOrdered (serveCommit p s c d t) := by
  unfold serveCommit
  split
  · exact .ite (refuse_ordered h) (proceed_ordered h rfl)
  · exact refuse_ordered h

theorem execWipeCommit_ordered (h : StackOrdered s) : Orders (execWipeCommit s) := by
  unfold execWipeCommit
  split
  · exact .proof h fun _ _ _ k => serveCommit_ordered k
  · exact .next h

theorem offStack_of_finished {b : Job} (h : finished b = true) : OffStack b.state := by
  constructor <;> intro k <;> simp [finished, k] at h

theorem freeFinished_ordered {j : JobNo} (h : StackOrdered s) : StackOrdered (freeFinished s j) := by
  unfold freeFinished
  split
  · next b hb =>
    split
    · next hfin =>
      refine h.setJob ?_ (h.held_ne (ne_reserved_of_jobAt hb)) trivial
      rw [jobAt_eq_some.1 hb]
      exact offStack_of_finished hfin
    · exact h
  · exact h

theorem freeReported_ordered (h : StackOrdered s) : StackOrdered (freeReported s) := by
  unfold freeReported
  split
  · exact engine_ordered (h.foldl (fun _ _ k => freeFinished_ordered k) _)
  · exact h

theorem execSweepStatus_ordered (h : StackOrdered s) : Orders (execSweepStatus s) := by
  unfold execSweepStatus
  split
  · exact .proof h fun _ _ _ k => carried_ordered (freeReported_ordered k)
  · exact .next h

theorem toLiveJob_jobAt {n : Nat} {x : JobNo × Job} (h : toLiveJob s n = some x) : jobAt s x.1 = some x.2 := by
  unfold toLiveJob at h
  split at h
  · split at h
    · next hb =>
      split at h
      · cases h
      · cases h
        exact hb
    · cases h
  · cases h

theorem pauseByRequest_ordered {j : JobNo} {b : Job} (h : StackOrdered s) (hb : jobAt s j = some b) :
    StackOrdered (pauseByRequest s j b) := by
  unfold pauseByRequest
  split
  · split
    · exact h.sameRank hb rfl rfl
    · exact engine_ordered (pauseJob_ordered h)
  · exact engine_ordered (pauseJob_ordered h)
  · exact engine_ordered (pauseJob_ordered h)
  · exact h.sameRank hb rfl rfl
  all_goals exact h

theorem execSweepPause_ordered (h : StackOrdered s) : Orders (execSweepPause s) := by
  unfold execSweepPause
  split
  · refine .owner h fun u d k => ?_
    split
    · exact refuse_ordered k
    · next x hx =>
      split
      · exact refuse_ordered k
      · exact carried_ordered (pauseByRequest_ordered k (toLiveJob_jobAt hx))
  · exact .next h

theorem resumeByRequest_ordered {j : JobNo} {b : Job} (h : StackOrdered s) (hb : jobAt s j = some b) :
    StackOrdered (resumeByRequest s j b) := by
  have hreturn : OffStack b.state → StackOrdered (returnJob s j) := fun hst =>
    returnJob_ordered h fun c hc => Option.some.inj (hb.symm.trans hc) ▸ hst
  unfold resumeByRequest
  split
  · next hst =>
    split
    · exact engine_ordered (hreturn (by rw [hst]; exact ⟨nofun, nofun⟩))
    · exact h
  · next hst => exact engine_ordered (hreturn (by rw [hst]; exact ⟨nofun, nofun⟩))
  · split
    · exact h.sameRank hb rfl rfl
    · exact h
  all_goals exact h

theorem execSweepResume_ordered (h : StackOrdered s) : Orders (execSweepResume s) := by
  unfold execSweepResume
  split
  · refine .owner h fun u d k => ?_
    split
    · exact refuse_ordered k
    · next x hx =>
      split
      · exact refuse_ordered k
      · exact carried_ordered (resumeByRequest_ordered k (toLiveJob_jobAt hx))
  · exact .next h

theorem cancelByRequest_ordered {j : JobNo} {b : Job} (h : StackOrdered s) (hb : jobAt s j = some b) :
    StackOrdered (cancelByRequest s j b).1 := by
  unfold cancelByRequest
  split
  · exact h.sameRank hb rfl rfl
  · exact engine_ordered (raiseAll_ordered (finishJob_ordered h ⟨nofun, nofun⟩))

theorem execSweepCancel_ordered (h : StackOrdered s) : Orders (execSweepCancel s) := by
  unfold execSweepCancel
  split
  · refine .owner h fun u d k => ?_
    split
    · exact refuse_ordered k
    · next x hx =>
      split
      · exact refuse_ordered k
      · split
        · exact refuse_ordered k
        · exact respondAfter_ordered (cancelByRequest_ordered k (toLiveJob_jobAt hx))
  · exact .next h

theorem serveTheft_ordered {limit threshold purge minutes ack : Nat} {lines : List Nat} (h : StackOrdered s) :
    StackOrdered (serveTheft s d limit threshold purge lines minutes ack) := by
  unfold serveTheft
  split
  · exact proceed_ordered h rfl
  · exact refuse_ordered h

theorem execTheftSet_ordered (h : StackOrdered s) : Orders (execTheftSet s) := by
  unfold execTheftSet
  split
  · exact .owner h fun _ _ k => serveTheft_ordered k
  · exact .next h

theorem servePower_ordered {idle doze : Nat} (h : StackOrdered s) : StackOrdered (servePower s d idle doze) := by
  unfold servePower
  split
  · exact proceed_ordered h rfl
  · exact refuse_ordered h

theorem execPowerSet_ordered (h : StackOrdered s) : Orders (execPowerSet s) := by
  unfold execPowerSet
  split
  · exact .owner h fun _ _ k => servePower_ordered k
  · exact .next h

end Sys2Proof.Machine
end

section
/-! Every command keeps the law of the in-service stack, and so does every step (O6). -/

namespace Sys2Proof.Machine

variable {s : State}

/-! ## Transactions and the media (chapter 1) -/

theorem passOn_ordered {t : FrontTag} (h : StackOrdered s) : StackOrdered (passOn s t) := by
  unfold passOn
  refine .ite (h.congr rfl) (.ite (h.congr rfl) ?_)
  split
  · exact h.congr (roster_admitTxn s t)
  · exact (engine_ordered (enterPower_ordered h)).congr (roster_admitTxn _ t)
  all_goals exact h.congr rfl

theorem execFrontTransaction_ordered (d : Descriptor) (h : StackOrdered s) : Orders (execFrontTransaction d s) := by
  unfold execFrontTransaction
  refine .ite (.next h) ?_
  split
  · exact .next (h.congr rfl)
  · exact .next (passOn_ordered (h.congr rfl))

/-- A request that stays in service over a link reset holds what it held. -/
theorem after_resetService {v w : Service} (h : resetService v = some w) : w.after = v.after := by
  unfold resetService at h
  split at h
  · cases h
  · cases h
    rfl

/-- The answer of the request in service is dropped, or the request is (R24, R94). -/
theorem heldIn_reset {c : Control} {p : Option Prepared} {j : JobNo}
    (h : heldIn { c with service := c.service.bind resetService, prepared := p } = some j) : heldIn c = some j := by
  obtain ⟨w, hw, hj⟩ := Option.bind_eq_some_iff.1 h
  obtain ⟨v, hv, hvw⟩ := Option.bind_eq_some_iff.1 hw
  rwa [heldIn_of_service hv, ← after_resetService hvw]

theorem dropAnswer_ordered {m : MediaPort} {x : Regions} (h : StackOrdered s) :
    StackOrdered { s with
      media := m, regions := x
      control := { s.control with service := s.control.service.bind resetService, prepared := none } } :=
  h.holding rfl rfl fun _ hj => h.reserved (heldIn_reset hj)

theorem linkReset_ordered (h : StackOrdered s) : StackOrdered (linkReset s) := by
  have horphans : ∀ l u : List Segment, StackOrdered (l.foldl orphanSeg (setSegs (abortAll s none) u)) := fun l u =>
    h.congr (by rw [roster_foldl roster_orphanSeg, roster_setSegs, roster_abortAll])
  exact dropAnswer_ordered (horphans _ _)

theorem execLinkReset_ordered (h : StackOrdered s) : Orders (execLinkReset s) := .ite (.next (linkReset_ordered h)) (.next h)

theorem actFor_ordered {q : MediaReq} {a : Answer} (h : StackOrdered s) : StackOrdered (actFor s q a) := by
  unfold actFor
  split
  · split
    · exact .ite (h.congr rfl) (h.congr (roster_retire _ _ _ _))
    · exact h.congr (roster_retire _ _ _ _)
    · exact h.congr (roster_retire _ _ _ _)
    · exact h
  · split <;> exact h.congr rfl
  · split
    · exact chunkAnswer_ordered h
    · exact h
  · split
    · exact startUpGoesOn_ordered (h.congr (roster_recoveryAnswer _ _ _ _ _ _ _))
    · exact h
  · exact h

theorem setTag_ordered {t : MediaTag} {x : TagState} (h : StackOrdered s) : StackOrdered (setTag s t x) := h.congr rfl

theorem execMediaCompletion_ordered (t : MediaTag) (res : MediaResult) (h : StackOrdered s) :
    Orders (execMediaCompletion t res s) := by
  unfold execMediaCompletion
  split
  · exact .fault
  · exact .next (setTag_ordered h)
  · exact .next (actFor_ordered (setTag_ordered h))

theorem execLateCompletion_ordered (t : MediaTag) (h : StackOrdered s) : Orders (execLateCompletion t s) := by
  unfold execLateCompletion
  split
  · exact .fault
  · exact .next (setTag_ordered h)
  · exact .next h

theorem execMediaTimeout_ordered (t : MediaTag) (h : StackOrdered s) : Orders (execMediaTimeout t s) := by
  unfold execMediaTimeout
  split
  · exact .ite (.next (actFor_ordered (raise_ordered (setTag_ordered h)))) (.next h)
  · exact .next h
  · exact .next h

theorem execMediaTagGrant_ordered (t : MediaTag) (h : StackOrdered s) : Orders (execMediaTagGrant t s) := by
  unfold execMediaTagGrant
  split
  · split
    · exact .next (h.congr (roster_markIssued _ _))
    · exact .next h
  · exact .next h
  · exact .next h

/-! ## Lanes, the store and the drain -/

theorem execLaneGrant_ordered (l : LaneIx) (h : StackOrdered s) : Orders (execLaneGrant l s) :=
  .ite (.next (h.congr (roster_laneClaim s l))) (.next h)

theorem execLanePassEnd_ordered (l : LaneIx) (data : List Block) (h : StackOrdered s) : Orders (execLanePassEnd l data s) := by
  unfold execLanePassEnd
  split
  · dsimp only
    split
    · exact .next (h.congr (roster_passEnd _ _ _))
    · exact .next (h.congr rfl)
  · exact .next h
  · exact .next h
  · exact .next h

theorem execChunkPassEnd_ordered (h : StackOrdered s) : Orders (execChunkPassEnd s) := by
  have hpass : StackOrdered (releasePass s) := h.congr (roster_releasePass s)
  unfold execChunkPassEnd
  split
  · next c _ =>
    refine .ite ?_ (.next h)
    dsimp only
    split
    · exact .next (hpass.congr (roster_rekeyPassEnd _ c))
    · exact .next (hpass.congr (roster_purgePassEnd _ c _))
  · exact .next h

theorem storeDone_ordered {x : Done} (h : StackOrdered s) : StackOrdered (storeDone s x) := by
  unfold storeDone
  split
  · exact h
  · exact finishService_ordered h
  · exact .ite (finishService_ordered (modDev_ordered h)) (modDev_ordered h)
  · exact afterTheft_ordered (h.congr (roster_theftStored s _))
  · exact afterTheft_ordered (modDev_ordered h)
  · exact engine_ordered (h.congr (roster_drained s _ _ _))
  · exact chunkStored_ordered h
  · exact completingStored_ordered h
  · exact purgedStored_ordered h
  · exact raise_ordered h

theorem completeWrite_ordered {w : Write} {l : List Write} (h : StackOrdered s) : StackOrdered (completeWrite s w l) :=
  startUpGoesOn_ordered (storeDone_ordered (h.congr (roster_issue _ _)))

theorem execStoreWriteCompletion_ordered (h : StackOrdered s) : Orders (execStoreWriteCompletion s) := by
  unfold execStoreWriteCompletion
  split
  · exact .next h
  · exact .next (completeWrite_ordered h)

theorem execFenceSet_ordered (h : StackOrdered s) : Orders (execFenceSet s) := by
  unfold execFenceSet
  split
  · exact .next (h.congr (roster_setFence s _ _ _))
  · exact .next h

theorem execDrainFinish_ordered (r : RangeIx) (h : StackOrdered s) : Orders (execDrainFinish r s) :=
  .ite (.next (h.congr (roster_startDrainFinish s r))) (.next h)

/-! ## Power and tamper -/

theorem execIdleRelockExpiry_ordered (h : StackOrdered s) : Orders (execIdleRelockExpiry s) :=
  .ite (.next (engine_ordered (lockProcedure_ordered (withTheft_ordered h)))) (.next h)

theorem execStepToIdle_ordered (h : StackOrdered s) : Orders (execStepToIdle s) :=
  .ite (.next (enterPower_ordered h)) (.next h)

theorem withPower_ordered {x : Power} (h : StackOrdered s) : StackOrdered { s with power := x } := h.congr rfl

theorem execDozeStepDue_ordered (h : StackOrdered s) : Orders (execDozeStepDue s) :=
  .ite (.next (withPower_ordered h)) (.next h)

theorem execStepToDoze_ordered (h : StackOrdered s) : Orders (execStepToDoze s) :=
  .ite (.next (enterPower_ordered (h.foldl (fun _ _ k => pauseForDoze_ordered k) _))) (.next h)

theorem admitWaiting_ordered (h : StackOrdered s) : StackOrdered (admitWaiting s) := h.congr (roster_admitWaiting s)

theorem execWakeFromDozeComplete_ordered (h : StackOrdered s) : Orders (execWakeFromDozeComplete s) :=
  .ite (.next (admitWaiting_ordered (backToActive_ordered h))) (.next h)

theorem execSleepRequestRise_ordered (h : StackOrdered s) : Orders (execSleepRequestRise s) := by
  have hline : StackOrdered { s with sleepLine := true } := h.congr rfl
  have hentry := beginSleepEntry_ordered (hline.congr (roster_retryWaiting _))
  exact .ite (.next h) (.ite (.next hline) (.ite (.next (becomeReady_ordered hentry)) (.next hentry)))

theorem execSleepReady_ordered (h : StackOrdered s) : Orders (execSleepReady s) :=
  .ite (.next (becomeReady_ordered h)) (.next h)

theorem execSleepRequestFall_ordered (h : StackOrdered s) : Orders (execSleepRequestFall s) := by
  have hline : StackOrdered { s with sleepLine := false } := h.congr rfl
  unfold execSleepRequestFall
  refine .ite (.next h) (.ite (.next hline) ?_)
  split
  · exact .next (backToActive_ordered hline)
  · exact .next (h.congr rfl)
  · exact .next hline

theorem execWakeFromSleepComplete_ordered (h : StackOrdered s) : Orders (execWakeFromSleepComplete s) :=
  .ite (.next (admitWaiting_ordered (backToActive_ordered h))) (.next h)

theorem execPowerGoodRise_ordered (p : StartInputs) (h : StackOrdered s) : Orders (execPowerGoodRise p s) :=
  .ite (.next h) (.next (beginStartUp_ordered (h.congr rfl)))

theorem execPowerGoodFall_ordered (h : StackOrdered s) : Orders (execPowerGoodFall s) :=
  .ite (.next ((clearVolatile_ordered s false).congr rfl)) (.next h)

theorem execAcceptedEdge_ordered (line : TamperLine) (h : StackOrdered s) : Orders (execAcceptedEdge line s) :=
  .ite (.next (acceptEdge_ordered h)) (.next h)

theorem execTamperSample_ordered (line : TamperLine) (l : Level) (h : StackOrdered s) : Orders (execTamperSample line l s) :=
  .ite (.ite (.next (withTheft_ordered h)) (.ite (.next (withTheft_ordered h)) (.next (acceptEdge_ordered h)))) (.next h)

/-! ## A step -/

/-- Every command keeps the law of the stack. -/
theorem exec_ordered (i : Instr) (h : StackOrdered s) : Orders (exec i s) :=
  match i with
  | .frontTransaction d => execFrontTransaction_ordered d h
  | .linkReset => execLinkReset_ordered h
  | .mediaCompletion t res => execMediaCompletion_ordered t res h
  | .lateCompletion t => execLateCompletion_ordered t h
  | .mediaTimeout t => execMediaTimeout_ordered t h
  | .mediaTagGrant t => execMediaTagGrant_ordered t h
  | .laneGrant l => execLaneGrant_ordered l h
  | .lanePassEnd l data => execLanePassEnd_ordered l data h
  | .chunkPassEnd => execChunkPassEnd_ordered h
  | .storeWriteCompletion => execStoreWriteCompletion_ordered h
  | .fenceSet => execFenceSet_ordered h
  | .drainFinish r => execDrainFinish_ordered r h
  | .idleRelockExpiry => execIdleRelockExpiry_ordered h
  | .stepToIdle => execStepToIdle_ordered h
  | .dozeStepDue => execDozeStepDue_ordered h
  | .stepToDoze => execStepToDoze_ordered h
  | .wakeFromDozeComplete => execWakeFromDozeComplete_ordered h
  | .sleepRequestRise => execSleepRequestRise_ordered h
  | .sleepReady => execSleepReady_ordered h
  | .sleepRequestFall => execSleepRequestFall_ordered h
  | .wakeFromSleepComplete => execWakeFromSleepComplete_ordered h
  | .powerGoodRise p => execPowerGoodRise_ordered p h
  | .powerGoodFall => execPowerGoodFall_ordered h
  | .acceptedEdge line => execAcceptedEdge_ordered line h
  | .query => execQuery_ordered h
  | .restart p => execRestart_ordered p h
  | .freeze => execFreeze_ordered h
  | .journalRead => execJournalRead_ordered h
  | .journalMask => execJournalMask_ordered h
  | .unlock => execUnlock_ordered h
  | .unlockAbsent => execUnlockAbsent_ordered h
  | .lock => execLock_ordered h
  | .credSet => execCredSet_ordered h
  | .credClear => execCredClear_ordered h
  | .credDisable => execCredDisable_ordered h
  | .credEnable => execCredEnable_ordered h
  | .credGrant => execCredGrant_ordered h
  | .credRevoke => execCredRevoke_ordered h
  | .credBudget => execCredBudget_ordered h
  | .rangeDefine => execRangeDefine_ordered h
  | .rangeDelete => execRangeDelete_ordered h
  | .rangeFlags => execRangeFlags_ordered h
  | .rangeRekey => execRangeRekey_ordered h
  | .ceilingSet => execCeilingSet_ordered h
  | .reserveOpen => execReserveOpen_ordered h
  | .reserveClose => execReserveClose_ordered h
  | .pbwSet => execPbwSet_ordered h
  | .wipePrepare => execWipePrepare_ordered h
  | .wipeCommit => execWipeCommit_ordered h
  | .sweepStatus => execSweepStatus_ordered h
  | .sweepPause => execSweepPause_ordered h
  | .sweepResume => execSweepResume_ordered h
  | .sweepCancel => execSweepCancel_ordered h
  | .theftSet => execTheftSet_ordered h
  | .powerSet => execPowerSet_ordered h
  | .unknownRequest => execUnknownRequest_ordered h
  | .tamperSample line l => execTamperSample_ordered line l h

theorem step_ordered {t : State} (h : StackOrdered s) (hstep : step s = .next t) : StackOrdered t := by
  unfold step at hstep
  split at hstep
  · cases hstep
    exact h.congr (roster_tick s)
  · next q _ =>
    have hqueue : StackOrdered { s with pending := q } := h.congr rfl
    exact exec_ordered _ hqueue t hstep

/-- Settles O6: every operation of every command keeps the law of the stack, a RUNNING job is the top of it, and its levels
strictly rise. -/
theorem everyStepKeepsTheStack : Obligations.EveryStepKeepsTheStack :=
  ⟨fun _ _ h hstep => step_ordered h hstep, fun _ h _ _ _ _ => h.running_unique, fun _ h => h.length_le⟩

end Sys2Proof.Machine
end

section
/-! The most urgent job, and the choice (O58; R123 to R125). -/

namespace Sys2Proof.Machine

variable {s : State} {j : JobNo} {b : Job}

/-! ## The most urgent job (R123) -/

theorem mostUrgent_urgent {x : Job} (h : mostUrgent s = some (j, x)) :
    jobAt s j = some x ∧ x.state = .queued ∧ waitsOnDrain s x = false ∧
      ∀ i y, jobAt s i = some y → y.state = .queued → waitsOnDrain s y = false →
        ¬ (y.level < x.level ∨ (y.level = x.level ∧ y.stamp < x.stamp)) := by
  obtain ⟨⟨hx, hok⟩, hbest⟩ := mostUrgent_some h
  obtain ⟨hqueued, hwaits⟩ := (eligible_iff x).1 hok
  refine ⟨hx, hqueued, hwaits, fun i y hy hq hw hmore => ?_⟩
  have hless := hbest i y ⟨hy, (eligible_iff y).2 ⟨hq, hw⟩⟩
  rw [(moreUrgent_iff y x).2 hmore] at hless
  cases hless

theorem mostUrgent_none_iff :
    mostUrgent s = none ↔ ∀ i y, jobAt s i = some y → y.state = .queued → waitsOnDrain s y = true := by
  refine mostUrgent_none.trans (forall₂_congr fun i y => ?_)
  rw [EligibleAt, eligible_iff]
  simp

/-! ## The choice (R124, R125) -/

theorem choose_preempts {k : JobNo} {x : Job} (hr : runningJob s = some j) (hb : jobAt s j = some b)
    (hq : mostUrgent s = some (k, x)) (hlt : x.level < b.level) : choose s = becomeRunning (preempt s j) k := by
  simp [choose, hr, hb, hq, hlt]

theorem choose_running (hr : runningJob s = some j) (hb : jobAt s j = some b)
    (hle : ∀ k x, mostUrgent s = some (k, x) → b.level ≤ x.level) : choose s = s := by
  cases hq : mostUrgent s with
  | none => simp [choose, hr, hq]
  | some x => simp [choose, hr, hb, hq, Nat.not_lt.2 (hle x.1 x.2 hq)]

theorem choose_idle (hr : runningJob s = none) : choose s = chooseIdle s := by simp [choose, hr]

theorem chooseIdle_urgent {p k : JobNo} {rest : List JobNo} {x : Job} (hs : s.sweep.stack = p :: rest) (hb : jobAt s p = some b)
    (hq : mostUrgent s = some (k, x)) (hlt : x.level < b.level) : chooseIdle s = becomeRunning s k := by
  simp [chooseIdle, hs, hb, hq, hlt]

theorem chooseIdle_top {p : JobNo} {rest : List JobNo} (hs : s.sweep.stack = p :: rest) (hb : jobAt s p = some b)
    (hle : ∀ k x, mostUrgent s = some (k, x) → b.level ≤ x.level) : chooseIdle s = becomeRunning s p := by
  cases hq : mostUrgent s with
  | none => simp [chooseIdle, hs, hq]
  | some x => simp [chooseIdle, hs, hb, hq, Nat.not_lt.2 (hle x.1 x.2 hq)]

theorem chooseIdle_first {k : JobNo} {x : Job} (hs : s.sweep.stack = []) (hq : mostUrgent s = some (k, x)) :
    chooseIdle s = becomeRunning s k := by
  simp [chooseIdle, hs, hq]

theorem chooseIdle_rests (hs : s.sweep.stack = []) (hq : mostUrgent s = none) : chooseIdle s = s := by
  simp [chooseIdle, hs, hq]

end Sys2Proof.Machine
end

section
/-! The end of a turn, case by case (O58; R124). -/

namespace Sys2Proof.Machine

variable {s : State} {j : JobNo} {b : Job} {r : RangeIx} {e : ChunkEnd}

/-- What a job becomes that ends in a finished state. -/
def endedJob (st : JobState) (b : Job) : Job := { b with state := st, pause := none, stall := none, pending := .noAction }

theorem unfinished_of_cursor (h : cursorRange b = none) : unfinished b = [] := List.head?_eq_none_iff.1 h

theorem finishJob_rekey {st : JobState} {l : List RangeIx} (hb : jobAt s j = some b) (hk : b.kind = .rekey) :
    finishJob s j st l = (endTurn s j (endedJob st), ⟨[], []⟩) := by
  simp only [finishJob, hb, hk]
  rfl

theorem finishJob_purge {st : JobState} {l : List RangeIx} (hb : jobAt s j = some b) (hk : b.kind = .purge) :
    finishJob s j st l =
      ((unfinished b).filter (fun r => !l.contains r)).foldl releaseRange (endTurn s j (endedJob st), ⟨[], []⟩) := by
  simp only [finishJob, hb, hk]
  rfl

theorem finishJob_at_end {st : JobState} {l : List RangeIx} (hb : jobAt s j = some b) (hc : cursorRange b = none) :
    finishJob s j st l = (endTurn s j (endedJob st), ⟨[], []⟩) := by
  cases hk : b.kind with
  | rekey => exact finishJob_rekey hb hk
  | purge => rw [finishJob_purge hb hk, unfinished_of_cursor hc]; rfl

/-- The first case: the ranges of the job are done. -/
theorem settleTurn_done (hb : jobAt s j = some b) (hc : cursorRange b = none) :
    settleTurn s j e = raise (endTurn s j (endedJob .done))
      { kind := .sweepDone, job := some j, detail := .sweepDone false
        range := if b.kind = .rekey then b.ranges.head? else none } := by
  simp only [settleTurn, hb, hc, finishJob_at_end hb hc]

/-- The second case: a wipe has reached the job. -/
theorem settleTurn_wiped (hb : jobAt s j = some b) (hc : cursorRange b = some r) {w : RangeIx} (hw : b.wipeSet.head? = some w) :
    settleTurn s j e = issueEach
      (raise (finishJob s j .cancelled (b.wipeSet.filter (wipeSpares s))).1
        { kind := .sweepCancelled, range := some ((b.wipeSet.find? b.ranges.contains).getD w), job := some j
          detail := .cancelled .wipe })
      (finishJob s j .cancelled (b.wipeSet.filter (wipeSpares s))).2.ops := by
  obtain ⟨ws, hws⟩ := List.head?_eq_some_iff.1 hw
  simp only [settleTurn, hb, hc, hws]
  rfl

/-- The entry of a wiped job names the first range of the wipe's set that the job names. -/
theorem settleTurn_wiped_names (hb : jobAt s j = some b) (hc : cursorRange b = some r) {q : RangeIx}
    (hq : b.wipeSet.find? b.ranges.contains = some q) :
    settleTurn s j e = issueEach
      (raise (finishJob s j .cancelled (b.wipeSet.filter (wipeSpares s))).1
        { kind := .sweepCancelled, range := some q, job := some j, detail := .cancelled .wipe })
      (finishJob s j .cancelled (b.wipeSet.filter (wipeSpares s))).2.ops := by
  cases hw : b.wipeSet.head? with
  | none => simp [List.head?_eq_none_iff.1 hw] at hq
  | some w => rw [settleTurn_wiped hb hc hw, hq, Option.getD_some]

/-- A re-key job whose range a wipe has reached ends at once. -/
theorem settleTurn_wiped_rekey (hb : jobAt s j = some b) (hc : cursorRange b = some r) (hk : b.kind = .rekey)
    (hr : b.ranges = [r]) (hw : r ∈ b.wipeSet) :
    settleTurn s j e = raise (endTurn s j (endedJob .cancelled))
      { kind := .sweepCancelled, range := some r, job := some j, detail := .cancelled .wipe } := by
  have hfind : b.wipeSet.find? b.ranges.contains = some r := by
    cases hf : b.wipeSet.find? b.ranges.contains with
    | none => exact absurd (by simp [hr]) (List.find?_eq_none.1 hf r hw)
    | some q =>
      have hq := List.find?_some hf
      rw [hr, List.contains_iff_mem, List.mem_singleton] at hq
      rw [hq]
  rw [settleTurn_wiped_names hb hc hfind, finishJob_rekey hb hk]
  rfl

/-- The third case: the job is to be cancelled. -/
theorem settleTurn_cancel (hb : jobAt s j = some b) (hc : cursorRange b = some r) (hw : b.wipeSet = [])
    (hp : b.pending = .cancel) :
    settleTurn s j e = issueEach (raiseAll (finishJob s j .cancelled []).1 (cancelEvents b j))
      (finishJob s j .cancelled []).2.ops := by
  simp only [settleTurn, hb, hc, hw, if_pos hp]

/-- The fourth case: the chunk has failed. -/
theorem settleTurn_failed (hb : jobAt s j = some b) (hc : cursorRange b = some r) (hw : b.wipeSet = [])
    (hp : b.pending ≠ .cancel) :
    settleTurn s j .failed = reportAfter (finishJob s j .failed []).1 (finishJob s j .failed []).2.ops
      { kind := .sweepDone, range := some r, job := some j, detail := .sweepDone true } := by
  simp only [settleTurn, hb, hc, hw, if_neg hp]

theorem reportAfter_writes (s : State) {l : List StoreOp} (hl : l ≠ []) (e : Event) :
    reportAfter s l e = { s with writes := s.writes ++ together (.report e) l } := by
  rw [reportAfter, if_neg (by simpa using hl), issueAll_eq]

/-- The chunk has stalled. -/
theorem settleTurn_stalled (hb : jobAt s j = some b) (hc : cursorRange b = some r) (hw : b.wipeSet = [])
    (hp : b.pending ≠ .cancel) (k : StallCause) :
    settleTurn s j (.stalled k) =
      raise (endTurn s j (fun b => { b with state := .stalled, stall := some k, pending := .noAction }))
        { kind := .sweepStalled, range := some r, job := some j, detail := .stall k } := by
  simp only [settleTurn, hb, hc, hw, if_neg hp]

/-- The fifth case: a pause holds. -/
theorem settleTurn_pauses (hb : jobAt s j = some b) (hc : cursorRange b = some r) (hw : b.wipeSet = [])
    (hp : b.pending ≠ .cancel) {c : PauseCause} (hh : pauseHolds s b = some c) : settleTurn s j .went = pauseJob s j c := by
  simp only [settleTurn, hb, hc, hw, if_neg hp, hh]

/-- The sixth case: the job waits on a drain, or its turn goes on. -/
theorem settleTurn_went (hb : jobAt s j = some b) (hc : cursorRange b = some r) (hw : b.wipeSet = [])
    (hp : b.pending ≠ .cancel) (hh : pauseHolds s b = none) :
    settleTurn s j .went = if waitsOnDrain s b then endTurn s j (fun b => { b with state := .queued }) else s := by
  simp only [settleTurn, hb, hc, hw, if_neg hp, hh]

theorem rekeyLocked_iff (hc : cursorRange b = some r) :
    rekeyLocked s b = true ↔ b.kind = .rekey ∧ s.ranges[r].lock = .locked := by
  simp [rekeyLocked, hc]

theorem waitsOnDrain_iff (hc : cursorRange b = some r) :
    waitsOnDrain s b = true ↔ b.kind = .purge ∧ s.ranges[r].cond = .draining := by
  simp [waitsOnDrain, hc]

theorem pauseHolds_request (hp : b.pending = .pause) : pauseHolds s b = some .request := if_pos hp

theorem pauseHolds_locked (hp : b.pending ≠ .pause) (hl : rekeyLocked s b = true) : pauseHolds s b = some .locked := by
  rw [pauseHolds, if_neg hp, if_pos hl]

theorem pauseHolds_power (hp : b.pending ≠ .pause) (hl : rekeyLocked s b ≠ true) (hs : s.sleepLine = true) :
    pauseHolds s b = some .power := by
  rw [pauseHolds, if_neg hp, if_neg hl, if_pos hs]

theorem pauseHolds_none (hp : b.pending ≠ .pause) (hl : rekeyLocked s b ≠ true) (hs : s.sleepLine = false) :
    pauseHolds s b = none := by
  rw [pauseHolds, if_neg hp, if_neg hl, if_neg (by simp [hs])]

end Sys2Proof.Machine
end

section
/-! The engine after an event, and how the job that it has chosen goes on (O58; R123 to R128, R137). -/

namespace Sys2Proof.Machine

variable {s : State} {j : JobNo} {b : Job} {r : RangeIx}

/-! ## The engine (R123, R137) -/

theorem engine_starting (h : s.startUp.isSome = true) : engine s = s := if_pos h

theorem engine_free (h : s.startUp = none) (hf : freeToRun s = true) (hc : s.sweep.chunk = none) :
    engine s = engineTurn 29 s := by
  simp [engine, h, hf, hc]

theorem engine_busy (h : s.startUp = none) (hf : freeToRun s = false ∨ s.sweep.chunk.isSome = true) :
    engine s = createUnscheduled s := by
  have hno : (freeToRun s && s.sweep.chunk.isNone) = false := by
    rcases hf with hf | hf
    · rw [hf, Bool.false_and]
    · rw [Option.isNone_eq_false_iff.2 hf, Bool.and_false]
  simp [engine, h, hno]

theorem createRekey_of_scheduled (h : lacksRekey s r = false) : createRekey s r = s := by simp [createRekey, h]

theorem createPurge_of_scheduled (h : ∀ r, lacksPurge s r = none) : createPurge s = s := by
  have hnone : allRanges.filterMap (fun r => (lacksPurge s r).map (fun c => (r, c))) = [] :=
    List.filterMap_eq_nil_iff.2 fun r _ => by rw [h r, Option.map_none]
  simp only [createPurge, hnone]

/-- Where every range has its jobs, none is created. -/
theorem createUnscheduled_of_scheduled (h : ∀ r, lacksRekey s r = false ∧ lacksPurge s r = none) : createUnscheduled s = s := by
  unfold createUnscheduled
  dsimp only
  rw [List.foldl_fixed' (fun r => createRekey_of_scheduled (h r).1),
    List.foldl_fixed' (fun _ => createPurge_of_scheduled fun r => (h r).2)]

/-! ## The boundary (R124, R127) -/

/-- The RUNNING job is a PURGE job at or beyond the clipped end of a range that another live PURGE job names. -/
def Passes (s : State) (j : JobNo) (b : Job) : Prop :=
  runningJob s = some j ∧ jobAt s j = some b ∧ b.kind = .purge ∧
    ∃ r, cursorRange b = some r ∧ clippedEnd s r ≤ b.lba ∧ purgeNames s (some j) r = true

theorem passesRange_iff : passesRange s = some j ↔ ∃ b, Passes s j b := by
  constructor
  · intro h
    unfold passesRange at h
    split at h
    · next i hi =>
      split at h
      · next b hb =>
        split at h
        · next r hc =>
          split at h
          · next hp =>
            cases h
            simp only [Bool.and_eq_true, decide_eq_true_eq] at hp
            exact ⟨b, hi, hb, hp.1.1, r, hc, hp.1.2, hp.2⟩
          · cases h
        · cases h
      · cases h
    · cases h
  · rintro ⟨b, hr, hb, hk, r, hc, hle, hn⟩
    simp [passesRange, hr, hb, hc, hk, hle, hn]

section
variable {t : State} (ht : choose (createUnscheduled (settleRunning s)) = t) (n : Nat)
include ht

theorem engineTurn_succ : engineTurn (n + 1) s = onward (engineTurn n) t := by rw [← ht]; rfl

theorem engineTurn_waits (h : runningWaits t = true) : engineTurn (n + 1) s = engineTurn n t :=
  (engineTurn_succ ht n).trans (onward_of_waits h)

theorem engineTurn_passes (h : runningWaits t = false) (hp : Passes t j b) :
    engineTurn (n + 1) s = engineTurn n (setJob t j (.job (pastRange t b))) := by
  rw [engineTurn_succ ht, onward_of_passes h (passesRange_iff.2 ⟨b, hp⟩), modJob_eq hp.2.1]

theorem engineTurn_goes (h : runningWaits t = false) (hp : ∀ j b, ¬ Passes t j b) : engineTurn (n + 1) s = goOn t := by
  have hnone : passesRange t = none := Option.eq_none_iff_forall_ne_some.2 fun j hj => by
    obtain ⟨b, hb⟩ := passesRange_iff.1 hj
    exact hp j b hb
  rw [engineTurn_succ ht, onward_of_goes h hnone]

end

/-! ## The chosen job goes on (R127, R143, R168) -/

theorem goOn_rests (h : ∀ j b, runningJob s = some j → jobAt s j = some b → cursorRange b = none) : goOn s = s := by
  cases hr : runningJob s with
  | none => simp [goOn, hr]
  | some j =>
    cases hb : jobAt s j with
    | none => simp [goOn, hr, hb]
    | some b => cases hk : b.kind <;> simp [goOn, hr, hb, hk, h j b hr hb]

theorem goOn_purge (hr : runningJob s = some j) (hb : jobAt s j = some b) (hc : cursorRange b = some r) (hk : b.kind = .purge) :
    goOn s =
      if clippedEnd s r ≤ b.lba then endRange s r (.rangeSteady r) (.purged r j)
      else if s.power.dozeDue && b.level ≠ 0 then s
      else takePurge s j b r := by
  simp only [goOn, hr, hb, hc, hk]

theorem goOn_rekey (hr : runningJob s = some j) (hb : jobAt s j = some b) (hc : cursorRange b = some r) (hk : b.kind = .rekey) :
    goOn s = if clippedEnd s r ≤ b.lba then endRange s r (.rangeComplete r b.lba) (.completing r b.lba) else s := by
  simp only [goOn, hr, hb, hc, hk]

theorem goOn_still (hr : runningJob s = some j) (hb : jobAt s j = some b) (hc : cursorRange b = some r)
    (hlt : b.lba < clippedEnd s r) (h : b.kind = .rekey ∨ (s.power.dozeDue = true ∧ b.level ≠ 0)) : goOn s = s := by
  cases hk : b.kind with
  | rekey => rw [goOn_rekey hr hb hc hk, if_neg (Nat.not_le.2 hlt)]
  | purge =>
    obtain ⟨hdue, hlevel⟩ := h.resolve_left (by simp [hk])
    rw [goOn_purge hr hb hc hk, if_neg (Nat.not_le.2 hlt), if_pos (by simp [hdue, hlevel])]

theorem goOn_takes (hr : runningJob s = some j) (hb : jobAt s j = some b) (hc : cursorRange b = some r)
    (hlt : b.lba < clippedEnd s r) (h : ¬ (b.kind = .rekey ∨ (s.power.dozeDue = true ∧ b.level ≠ 0))) :
    goOn s = takePurge s j b r := by
  cases hk : b.kind with
  | rekey => exact absurd (.inl hk) h
  | purge => rw [goOn_purge hr hb hc hk, if_neg (Nat.not_le.2 hlt), if_neg fun hd => h (.inr (by simpa using hd))]

end Sys2Proof.Machine
end

section
/-! The engine's choice, in whole (O58). -/

namespace Sys2Proof.Machine

/-- Settles O58: a fold over the job table finds the most urgent job, and each case of the engine, of the end of a turn and of
the choice is an equation of its own. -/
theorem mostUrgentJobIsChosen : Obligations.MostUrgentJobIsChosen := by
  refine ⟨fun s => ⟨fun _ _ => mostUrgent_urgent, mostUrgent_none_iff⟩, fun s => ⟨?_, ?_, ?_, ?_, ?_⟩,
    fun s j b hb hstart => ?_, fun s => ⟨engine_starting, engine_free, engine_busy, rfl, createUnscheduled_of_scheduled,
      ?_, goOn_rests, fun j b r hr hb hc => ⟨?_, ?_, goOn_still hr hb hc, goOn_takes hr hb hc⟩⟩⟩
  -- the choice
  · exact fun j b k x hr hb hq hlt => choose_preempts hr hb hq hlt
  · exact fun j b hr hb hle => choose_running hr hb hle
  · intro p rest b hr hs hb
    rw [choose_idle hr]
    exact ⟨fun k x hq hlt => chooseIdle_urgent hs hb hq hlt, chooseIdle_top hs hb⟩
  · intro hr hs
    rw [choose_idle hr]
    exact ⟨fun k x hq => chooseIdle_first hs hq, chooseIdle_rests hs⟩
  · intro j b hb
    refine ⟨?_, preempt s j, rfl, ?_, fun hp => ?_, fun hp => ?_⟩
    · rw [becomeRunning_eq hb]
      unfold dedicate
      cases freeLane s <;> rfl
    · rw [preempt_eq hb]
    · rw [preempt_eq hb, if_neg (by simp [hp])]
    · rw [preempt_eq hb, if_pos hp]
      exact ⟨undedicated_dedicated s.arb, rfl⟩
  -- the end of a turn
  · intro ends
    refine ⟨⟨endTurn s j id, rfl, ?_, fun h => ?_, fun hrun hp => ?_⟩, fun hc hk e => ?_, fun hc hk e => ?_,
      fun r hc _ hk hr hw e => settleTurn_wiped_rekey hb hc hk hr hw, fun r hc hw hp => ⟨?_, ?_, ?_, ?_, ?_⟩,
      fun r hc hw hp e => settleTurn_cancel hb hc hw hp, fun r hc hw hp => ⟨fun ho => ?_, fun ho => ?_⟩,
      fun r q hc _ hq e => settleTurn_wiped_names hb hc hq, issueEach_eq s⟩
    · rw [endTurn_eq hb]; rfl
    · have hholds : holdsLane s j = false := by
        rw [← Bool.not_eq_true, holdsLane_iff]
        rintro ⟨c, hc, hcs⟩
        exact h (Option.some.inj (hb.symm.trans hc) ▸ hcs)
      simp [endTurn_eq hb, hholds]
    · simp [endTurn_eq hb, holdsLane_iff.2 ⟨b, hb, hrun, hp⟩]
    · rw [settleTurn_done hb hc, if_pos hk]; rfl
    · rw [settleTurn_done hb hc, if_neg (by simp [hk])]; rfl
    · exact settleTurn_stalled hb hc hw hp
    · exact fun hpause => settleTurn_pauses hb hc hw hp (pauseHolds_request hpause)
    · exact fun hpause hk hl => settleTurn_pauses hb hc hw hp (pauseHolds_locked hpause ((rekeyLocked_iff hc).2 ⟨hk, hl⟩))
    · exact fun hpause hl hs => settleTurn_pauses hb hc hw hp (pauseHolds_power hpause (hl ∘ (rekeyLocked_iff hc).1) hs)
    · intro hpause hl hs
      rw [settleTurn_went hb hc hw hp (pauseHolds_none hpause (hl ∘ (rekeyLocked_iff hc).1) hs)]
      exact if_congr (waitsOnDrain_iff hc) rfl rfl
    · rw [settleTurn_failed hb hc hw hp, ho]; rfl
    · rw [settleTurn_failed hb hc hw hp, reportAfter_writes _ ho]
  -- the boundary
  · intro t passes waits
    have ht : choose (createUnscheduled (settleRunning s)) = t := rfl
    clear_value t
    have hwaits : ¬ waits → runningWaits t = false := fun h => Bool.eq_false_iff.2 (h ∘ runningWaits_iff.1)
    exact ⟨rfl, fun n h => engineTurn_waits ht n (runningWaits_iff.2 h), fun n j b h hp => engineTurn_passes ht n (hwaits h) hp,
      fun n h hp => engineTurn_goes ht n (hwaits h) hp⟩
  -- the chosen job goes on
  · exact fun hle hk => by rw [goOn_purge hr hb hc hk, if_pos hle]; rfl
  · exact fun hle hk => by rw [goOn_rekey hr hb hc hk, if_pos hle]; rfl

end Sys2Proof.Machine
end

section
/-! What a PURGE job that ends leaves to be stored: the ranges that are to be STEADY, and those whose purge option is dropped
(O57; R39). -/

namespace Sys2Proof.Machine

variable {s : State} {r q : RangeIx} {x : State × Release}

theorem purgeNames_iff : purgeNames s none r = true ↔
    ∃ i z, jobAt s i = some z ∧ z.kind = .purge ∧ finished z = false ∧ r ∈ unfinished z := by
  unfold purgeNames
  rw [List.any_eq_true]
  constructor
  · rintro ⟨i, -, hi⟩
    cases hz : jobAt s i with
    | none => simp [hz] at hi
    | some z => exact ⟨i, z, hz, by simpa [hz, and_assoc] using hi⟩
  · rintro ⟨i, z, hz, hk, hf, hr⟩
    exact ⟨i, mem_allJobs i, by simp [hz, hk, hf, hr]⟩

/-- No live PURGE job names the range, which is PURGING, or has PURGING among its drain's finish writes: it is to be STEADY. -/
def OwesSteady (s : State) (r : RangeIx) : Prop :=
  purgeNames s none r = false ∧ (s.ranges[r].cond = .purging ∨ (s.ranges[r].cond = .draining ∧ s.ranges[r].finishing = true))

/-- No live PURGE job names the range, which drains: its purge option is to go. -/
def OwesDrop (s : State) (r : RangeIx) : Prop := purgeNames s none r = false ∧ s.ranges[r].cond = .draining

/-! ## One range -/

theorem releaseRange_purgeNames : purgeNames (releaseRange x q).1 none r = purgeNames x.1 none r := by
  rw [(releaseRange_releases (set := []) x List.not_mem_nil).frame]
  rfl

theorem releaseRange_other (h : r ≠ q) : (releaseRange x q).1.ranges[r] = x.1.ranges[r] :=
  (releaseRange_releases (set := [r]) x (fun hm => h (List.mem_singleton.1 hm).symm)).inside r (List.mem_singleton_self r)

/-- A range that is released leaves PURGING, or stays as it is. -/
theorem releaseRange_same : (releaseRange x q).1.ranges[q] = x.1.ranges[q] ∨
    (x.1.ranges[q].cond = .purging ∧ (releaseRange x q).1.ranges[q] = { x.1.ranges[q] with cond := .steady }) := by
  obtain ⟨n, -, hn⟩ := (releaseRange_releases (set := []) x (List.not_mem_nil (a := q))).released
  rw [hn.outside q List.not_mem_nil]
  split
  · next h => exact .inr ⟨h.1, rfl⟩
  · exact .inl rfl

theorem releaseRange_steady_mem : r ∈ (releaseRange x q).2.steady ↔ r ∈ x.2.steady ∨ (r = q ∧ OwesSteady x.1 q) := by
  unfold releaseRange OwesSteady
  dsimp only
  split
  · next hn => simp [hn, -Fin.getElem_fin]
  · next hn =>
    split
    · next hp => simp [hn, hp, -Fin.getElem_fin]
    · next hp =>
      split
      · next hd => by_cases hf : x.1.ranges[q].finishing = true <;> simp [hn, hd, hf, -Fin.getElem_fin]
      · next hd => simp [hp, hd, -Fin.getElem_fin]

theorem releaseRange_drop_mem : r ∈ (releaseRange x q).2.drop ↔ r ∈ x.2.drop ∨ (r = q ∧ OwesDrop x.1 q) := by
  unfold releaseRange OwesDrop
  dsimp only
  split
  · next hn => simp [hn, -Fin.getElem_fin]
  · next hn =>
    split
    · next hp => simp [hp, -Fin.getElem_fin]
    · split
      · next hd => simp [hn, hd, -Fin.getElem_fin]
      · next hd => simp [hd, -Fin.getElem_fin]

theorem releaseRange_owesDrop : OwesDrop (releaseRange x q).1 r ↔ OwesDrop x.1 r := by
  unfold OwesDrop
  rw [releaseRange_purgeNames]
  by_cases h : r = q
  · subst h
    rcases releaseRange_same (x := x) (q := r) with he | ⟨hp, he⟩ <;> rw [he]
    simp [hp, -Fin.getElem_fin]
  · rw [releaseRange_other h]

theorem releaseRange_owesSteady_of_ne (h : r ≠ q) : OwesSteady (releaseRange x q).1 r ↔ OwesSteady x.1 r := by
  unfold OwesSteady
  rw [releaseRange_purgeNames, releaseRange_other h]

theorem owesSteady_of_releaseRange (h : OwesSteady (releaseRange x q).1 r) : OwesSteady x.1 r := by
  by_cases hr : r = q
  · subst hr
    unfold OwesSteady at h ⊢
    rw [releaseRange_purgeNames] at h
    rcases releaseRange_same (x := x) (q := r) with he | ⟨hp, -⟩
    · rwa [he] at h
    · exact ⟨h.1, .inl hp⟩
  · exact (releaseRange_owesSteady_of_ne hr).1 h

/-! ## All ranges of the job -/

theorem foldl_releaseRange_steady (l : List RangeIx) :
    r ∈ (l.foldl releaseRange x).2.steady ↔ r ∈ x.2.steady ∨ (r ∈ l ∧ OwesSteady x.1 r) := by
  induction l generalizing x with
  | nil => simp
  | cons q l ih =>
    rw [List.foldl_cons, ih, releaseRange_steady_mem, List.mem_cons]
    by_cases hr : r = q
    · subst hr
      have hold := owesSteady_of_releaseRange (x := x) (q := r) (r := r)
      tauto
    · rw [releaseRange_owesSteady_of_ne hr]
      simp [hr]

theorem foldl_releaseRange_drop (l : List RangeIx) :
    r ∈ (l.foldl releaseRange x).2.drop ↔ r ∈ x.2.drop ∨ (r ∈ l ∧ OwesDrop x.1 r) := by
  induction l generalizing x with
  | nil => simp
  | cons q l ih =>
    rw [List.foldl_cons, ih, releaseRange_drop_mem, releaseRange_owesDrop, List.mem_cons]
    by_cases hr : r = q
    · subst hr
      tauto
    · simp [hr]

/-! ## The end of a PURGE job -/

section
variable {t : State} {j : JobNo} {b : Job} {st : JobState} {l : List RangeIx}

/-- A range that a job leaves: it is an unfinished one, outside a list, that no other live PURGE job names. -/
def LeftBy (t : State) (j : JobNo) (b : Job) (l : List RangeIx) (r : RangeIx) : Prop :=
  r ∈ unfinished b ∧ r ∉ l ∧ ¬ ∃ i z, i ≠ j ∧ jobAt t i = some z ∧ z.kind = .purge ∧ finished z = false ∧ r ∈ unfinished z

theorem finished_endedJob (hst : st = .done ∨ st = .cancelled ∨ st = .failed) (b : Job) : finished (endedJob st b) = true := by
  rcases hst with rfl | rfl | rfl <;> rfl

theorem jobAt_endTurn (hb : jobAt t j = some b) (f : Job → Job) (i : JobNo) :
    jobAt (endTurn t j f) i = if i = j then some (f b) else jobAt t i := by
  rw [endTurn_eq hb]
  exact jobAt_set rfl i

/-- A job that has ended names no range: the others are asked. -/
theorem purgeNames_ended (hb : jobAt t j = some b) (hst : st = .done ∨ st = .cancelled ∨ st = .failed) :
    purgeNames (endTurn t j (endedJob st)) none r = false ↔
      ¬ ∃ i z, i ≠ j ∧ jobAt t i = some z ∧ z.kind = .purge ∧ finished z = false ∧ r ∈ unfinished z := by
  rw [← Bool.not_eq_true, purgeNames_iff, not_iff_not]
  constructor
  · rintro ⟨i, z, hz, hk, hf, hr⟩
    rw [jobAt_endTurn hb] at hz
    split at hz
    · cases hz
      rw [finished_endedJob hst] at hf
      cases hf
    · next hi => exact ⟨i, z, hi, hz, hk, hf, hr⟩
  · rintro ⟨i, z, hi, hz, hk, hf, hr⟩
    exact ⟨i, z, by rw [jobAt_endTurn hb, if_neg hi, hz], hk, hf, hr⟩

section
variable (hb : jobAt t j = some b) (hk : b.kind = .purge) (hst : st = .done ∨ st = .cancelled ∨ st = .failed)
include hb hk

/-- The end of a PURGE job changes ranges and intent entries, beside the job's own turn. -/
theorem finishJob_releases : Releases [] (endTurn t j (endedJob st), ⟨[], []⟩) (finishJob t j st l) := by
  rw [finishJob_purge hb hk]
  exact foldl_releaseRange _ (fun _ _ => List.not_mem_nil) _

theorem finishJob_released : Released [] (finishJob t j st l).2 t (finishJob t j st l).1 := by
  obtain ⟨n, hn, hrel⟩ := (finishJob_releases (st := st) (l := l) hb hk).released
  rw [Release.nil_join] at hn
  rw [hn]
  exact hrel.congr (by rw [endTurn_eq hb]; exact ⟨rfl, rfl⟩) ⟨rfl, rfl⟩

include hst

theorem finishJob_steady : r ∈ (finishJob t j st l).2.steady ↔ LeftBy t j b l r ∧
    (t.ranges[r].cond = .purging ∨ (t.ranges[r].cond = .draining ∧ t.ranges[r].finishing = true)) := by
  have hranges : (endTurn t j (endedJob st)).ranges = t.ranges := by rw [endTurn_eq hb]
  rw [finishJob_purge hb hk, foldl_releaseRange_steady, OwesSteady, purgeNames_ended hb hst, hranges, LeftBy]
  simp [and_assoc]

theorem finishJob_drop : r ∈ (finishJob t j st l).2.drop ↔ LeftBy t j b l r ∧ t.ranges[r].cond = .draining := by
  have hranges : (endTurn t j (endedJob st)).ranges = t.ranges := by rw [endTurn_eq hb]
  rw [finishJob_purge hb hk, foldl_releaseRange_drop, OwesDrop, purgeNames_ended hb hst, hranges, LeftBy]
  simp [and_assoc]

theorem finishJob_left (hr : LeftBy t j b l r) (hp : t.ranges[r].cond = .purging) :
    (finishJob t j st l).1.ranges[r] = { t.ranges[r] with cond := .steady } := by
  rw [(finishJob_released hb hk).outside r List.not_mem_nil, if_pos ⟨hp, (finishJob_steady hb hk hst).2 ⟨hr, .inl hp⟩⟩]

theorem finishJob_kept_range (h : ¬ (LeftBy t j b l r ∧ t.ranges[r].cond = .purging)) :
    (finishJob t j st l).1.ranges[r] = t.ranges[r] := by
  rw [(finishJob_released hb hk).outside r List.not_mem_nil, if_neg]
  exact fun hp => h ⟨((finishJob_steady hb hk hst).1 hp.2).1, hp.1⟩

end
end

end Sys2Proof.Machine
end

section
/-! The SWEEP requests: the report of the jobs, and what a request does to the job that it names (O57; R131 to R135). -/

namespace Sys2Proof.Machine

variable {s u t : State} {b : RequestBlock} {d : Bool} {n : Nat} {j : JobNo} {x : Job}

/-! ## Finished entries become FREE (R132) -/

/-- What an entry is after the report: FREE, where its job is finished. -/
def reported : JobEntry → JobEntry
  | .job x => if finished x then .free else .job x
  | .free => .free
  | .reserved => .reserved

theorem reported_reported (e : JobEntry) : reported (reported e) = reported e := by
  cases e with
  | free => rfl
  | reserved => rfl
  | job x => by_cases h : finished x = true <;> simp [reported, h]

theorem reported_of_live {e : JobEntry} (h : ∀ x, e = .job x → finished x = false) : reported e = e := by
  cases e with
  | free => rfl
  | reserved => rfl
  | job x => simp [reported, h x rfl]

theorem setJob_same (s : State) (j : JobNo) : setJob s j s.sweep.jobs[j] = s := by
  unfold setJob
  rw [Fin.getElem_fin, Vector.set_getElem_self]

theorem freeFinished_eq (s : State) (j : JobNo) : freeFinished s j = setJob s j (reported s.sweep.jobs[j]) := by
  unfold freeFinished
  cases hj : jobAt s j with
  | none =>
    have hlive : reported s.sweep.jobs[j] = s.sweep.jobs[j] :=
      reported_of_live fun x hx => nomatch hj.symm.trans (jobAt_eq_some.2 hx)
    rw [hlive, setJob_same]
  | some x =>
    dsimp only
    split
    · next hf => rw [jobAt_eq_some.1 hj, reported, if_pos hf]
    · next hf => rw [jobAt_eq_some.1 hj, reported, if_neg hf, ← jobAt_eq_some.1 hj, setJob_same]

/-- The finished entries of a list have become FREE, and nothing else has changed. -/
theorem foldl_freeFinished (l : List JobNo) (s : State) :
    l.foldl freeFinished s = { s with sweep := { s.sweep with jobs := (l.foldl freeFinished s).sweep.jobs } } ∧
      ∀ i : JobNo, (l.foldl freeFinished s).sweep.jobs[i] = if i ∈ l then reported s.sweep.jobs[i] else s.sweep.jobs[i] := by
  induction l generalizing s with
  | nil => exact ⟨rfl, fun i => (if_neg List.not_mem_nil).symm⟩
  | cons j l ih =>
    rw [List.foldl_cons]
    obtain ⟨hframe, hjobs⟩ := ih (freeFinished s j)
    refine ⟨?_, fun i => ?_⟩
    · rw [hframe, freeFinished_eq]
      rfl
    · rw [hjobs, freeFinished_eq, setJob_jobs]
      by_cases hi : i = j
      · subst hi
        simp [reported_reported, -Fin.getElem_fin]
      · simp [hi, -Fin.getElem_fin]

theorem freeReported_of_live (h : ∀ (j : JobNo) x, jobAt s j = some x → finished x = false) : freeReported s = s := by
  refine if_neg fun hany => ?_
  obtain ⟨j, -, hj⟩ := List.any_eq_true.1 hany
  split at hj
  · next x hx => exact Bool.false_ne_true ((h j x hx).symm.trans hj)
  · cases hj

theorem freeReported_of_finished (h : ∃ (j : JobNo) (x : Job), jobAt s j = some x ∧ finished x = true) :
    freeReported s = engine (allJobs.foldl freeFinished s) := by
  obtain ⟨j, x, hx, hf⟩ := h
  exact if_pos (List.any_eq_true.2 ⟨j, mem_allJobs j, by rw [hx]; exact hf⟩)

theorem Serves.exec_sweepStatus {c : Option CredIx} (h : Serves s b .sweepStatus false c u d) :
    exec .sweepStatus s = .next (carried (freeReported u) d (sweepReport u)) := by
  simp only [exec, execSweepStatus, h.starts]
  rw [h.withProof]

/-! ## The control unit stays as it is -/

theorem engine_control (s : State) : (engine s).control = s.control := (engine_spared .refl).control

theorem endTurn_control (s : State) (j : JobNo) (f : Job → Job) : (endTurn s j f).control = s.control :=
  (endTurn_spared .refl).control

theorem returnJob_control (s : State) (j : JobNo) : (returnJob s j).control = s.control := (returnJob_spared .refl).control

theorem foldl_freeFinished_control (s : State) (l : List JobNo) : (l.foldl freeFinished s).control = s.control := by
  rw [(foldl_freeFinished l s).1]

/-! ## The job that a request names (R131) -/

theorem toLiveJob_none (h : ∀ (j : JobNo) x, n = j.val → jobAt s j = some x → finished x = true) : toLiveJob s n = none := by
  unfold toLiveJob
  by_cases hn : n < 6
  · have hj : toIndex 6 n = some ⟨n, hn⟩ := dif_pos hn
    rw [hj]
    dsimp only
    split
    · next x hx => exact if_pos (h ⟨n, hn⟩ x rfl hx)
    · rfl
  · rw [toIndex_of_le (Nat.not_lt.1 hn)]

theorem toLiveJob_some (hn : n = j.val) (hx : jobAt s j = some x) (hf : finished x = false) : toLiveJob s n = some (j, x) := by
  subst hn
  simp [toLiveJob, toIndex_val, hx, hf]

theorem jobResults_eq (hx : jobAt s j = some x) : jobResults s j = .jobState x.state x.pause x.pending := by
  simp [jobResults, hx]

/-- A request that is carried out is answered with the state, the cause and the pending action of its job. -/
theorem carried_job (ht : t.control = u.control) (hu : u.control.service.isSome = true) :
    carried t d (jobResults t j) = answerAfter t d ⟨.done, jobResults t j⟩ := carried_eq t d _ (ht ▸ hu)

/-! ## SWEEP.PAUSE (R133) -/

theorem Serves.exec_sweepPause_none (h : Serves s b (.sweepPause n) true (some 0) u d) (hn : toLiveJob u n = none) :
    exec .sweepPause s = .next (refusedWith u d .badRequest) := by
  simp only [exec, execSweepPause, h.starts]
  rw [h.ownerRequest rfl, hn]
  exact congrArg _ (refuse_eq u d .badRequest h.service)

theorem Serves.exec_sweepPause_level (h : Serves s b (.sweepPause n) true (some 0) u d) (hn : toLiveJob u n = some (j, x))
    (hl : x.level = 0) : exec .sweepPause s = .next (refusedWith u d .notPermitted) := by
  simp only [exec, execSweepPause, h.starts]
  rw [h.ownerRequest rfl, hn]
  exact congrArg _ ((if_pos hl).trans (refuse_eq u d .notPermitted h.service))

theorem Serves.exec_sweepPause (h : Serves s b (.sweepPause n) true (some 0) u d) (hn : toLiveJob u n = some (j, x))
    (hl : x.level ≠ 0) (hp : pauseByRequest u j x = t) (ht : t.control = u.control) :
    exec .sweepPause s = .next (answerAfter t d ⟨.done, jobResults t j⟩) := by
  subst hp
  simp only [exec, execSweepPause, h.starts]
  rw [h.ownerRequest rfl, hn]
  exact congrArg _ ((if_neg hl).trans (carried_job ht h.service))

theorem pauseByRequest_chunk (hs : x.state = .running) (hc : hasChunk u j = true) :
    pauseByRequest u j x = setJob u j (.job { x with pending := if x.pending = .cancel then .cancel else .pause }) := by
  simp [pauseByRequest, hs, hc]

theorem pauseByRequest_rest (h : x.state = .queued ∨ x.state = .preempted ∨ (x.state = .running ∧ hasChunk u j = false)) :
    pauseByRequest u j x = engine (pauseJob u j .request) := by
  rcases h with hs | hs | ⟨hs, hc⟩
  · simp [pauseByRequest, hs]
  · simp [pauseByRequest, hs]
  · simp [pauseByRequest, hs, hc]

theorem pauseByRequest_paused (hs : x.state = .paused) :
    pauseByRequest u j x = setJob u j (.job { x with pause := some .request }) := by
  simp [pauseByRequest, hs]

theorem pauseByRequest_stalled (hs : x.state = .stalled) : pauseByRequest u j x = u := by
  simp [pauseByRequest, hs]

/-! ## SWEEP.RESUME (R134) -/

theorem Serves.exec_sweepResume_none (h : Serves s b (.sweepResume n) true (some 0) u d) (hn : toLiveJob u n = none) :
    exec .sweepResume s = .next (refusedWith u d .badRequest) := by
  simp only [exec, execSweepResume, h.starts]
  rw [h.ownerRequest rfl, hn]
  exact congrArg _ (refuse_eq u d .badRequest h.service)

theorem Serves.exec_sweepResume_level (h : Serves s b (.sweepResume n) true (some 0) u d) (hn : toLiveJob u n = some (j, x))
    (hl : x.level = 0) (hs : x.state ≠ .stalled) : exec .sweepResume s = .next (refusedWith u d .notPermitted) := by
  simp only [exec, execSweepResume, h.starts]
  rw [h.ownerRequest rfl, hn]
  exact congrArg _ ((if_pos (by simp [hl, hs])).trans (refuse_eq u d .notPermitted h.service))

theorem Serves.exec_sweepResume (h : Serves s b (.sweepResume n) true (some 0) u d) (hn : toLiveJob u n = some (j, x))
    (hl : x.level ≠ 0 ∨ x.state = .stalled) (hp : resumeByRequest u j x = t) (ht : t.control = u.control) :
    exec .sweepResume s = .next (answerAfter t d ⟨.done, jobResults t j⟩) := by
  have hok : ¬ (decide (x.level = 0) && decide (x.state ≠ .stalled)) = true := by
    rcases hl with hl | hl <;> simp [hl]
  subst hp
  simp only [exec, execSweepResume, h.starts]
  rw [h.ownerRequest rfl, hn]
  exact congrArg _ ((if_neg hok).trans (carried_job ht h.service))

theorem resumeByRequest_returns (h : (x.state = .paused ∧ x.pause = some .request) ∨ x.state = .stalled) :
    resumeByRequest u j x = engine (returnJob u j) := by
  rcases h with ⟨hs, hp⟩ | hs
  · simp [resumeByRequest, hs, hp]
  · simp [resumeByRequest, hs]

theorem resumeByRequest_pending (hs : x.state = .running) (hp : x.pending = .pause) :
    resumeByRequest u j x = setJob u j (.job { x with pending := .noAction }) := by
  simp [resumeByRequest, hs, hp]

theorem resumeByRequest_same (h : (x.state = .paused ∧ x.pause ≠ some .request) ∨ x.state = .queued ∨ x.state = .preempted ∨
    (x.state = .running ∧ x.pending ≠ .pause)) : resumeByRequest u j x = u := by
  rcases h with ⟨hs, hp⟩ | hs | hs | ⟨hs, hp⟩
  · simp [resumeByRequest, hs, hp]
  · simp [resumeByRequest, hs]
  · simp [resumeByRequest, hs]
  · simp [resumeByRequest, hs, hp]

/-! ## SWEEP.CANCEL (R135) -/

theorem Serves.exec_sweepCancel_none (h : Serves s b (.sweepCancel n) true (some 0) u d) (hn : toLiveJob u n = none) :
    exec .sweepCancel s = .next (refusedWith u d .badRequest) := by
  simp only [exec, execSweepCancel, h.starts]
  rw [h.ownerRequest rfl, hn]
  exact congrArg _ (refuse_eq u d .badRequest h.service)

theorem Serves.exec_sweepCancel_rekey (h : Serves s b (.sweepCancel n) true (some 0) u d) (hn : toLiveJob u n = some (j, x))
    (hk : x.kind = .rekey) : exec .sweepCancel s = .next (refusedWith u d .notCancellable) := by
  simp only [exec, execSweepCancel, h.starts]
  rw [h.ownerRequest rfl, hn]
  exact congrArg _ ((if_pos hk).trans (refuse_eq u d .notCancellable h.service))

theorem Serves.exec_sweepCancel_level (h : Serves s b (.sweepCancel n) true (some 0) u d) (hn : toLiveJob u n = some (j, x))
    (hk : x.kind = .purge) (hl : x.level = 0) : exec .sweepCancel s = .next (refusedWith u d .notPermitted) := by
  simp only [exec, execSweepCancel, h.starts]
  rw [h.ownerRequest rfl, hn]
  exact congrArg _ ((if_neg (by simp [hk])).trans ((if_pos hl).trans (refuse_eq u d .notPermitted h.service)))

theorem Serves.exec_sweepCancel (h : Serves s b (.sweepCancel n) true (some 0) u d) (hn : toLiveJob u n = some (j, x))
    (hk : x.kind = .purge) (hl : x.level ≠ 0) {y : State × List StoreOp × Results} (hy : cancelByRequest u j x = y) :
    exec .sweepCancel s = .next (answerWith y.1 (dueOps d ++ y.2.1) ⟨.done, y.2.2⟩) := by
  subst hy
  simp only [exec, execSweepCancel, h.starts]
  rw [h.ownerRequest rfl, hn]
  exact congrArg _ ((if_neg (by simp [hk])).trans ((if_neg hl).trans (respondAfter_eq _ _ _)))

theorem answerWith_due (s : State) (d : Bool) (a : Response) : answerWith s (dueOps d ++ []) a = answerAfter s d a := by
  cases d <;> rfl

theorem cancelByRequest_chunk (hc : hasChunk u j = true) : cancelByRequest u j x =
    (setJob u j (.job { x with pending := .cancel }), [], .jobState x.state x.pause .cancel) := if_pos hc

/-- A job with a chunk in motion takes the pending action, and is answered at once. -/
theorem Serves.exec_sweepCancel_pending (h : Serves s b (.sweepCancel n) true (some 0) u d) (hn : toLiveJob u n = some (j, x))
    (hk : x.kind = .purge) (hl : x.level ≠ 0) (hc : hasChunk u j = true) :
    exec .sweepCancel s = .next (answerAfter (setJob u j (.job { x with pending := .cancel })) d
      ⟨.done, jobResults (setJob u j (.job { x with pending := .cancel })) j⟩) := by
  have hjob : jobAt (setJob u j (.job { x with pending := .cancel })) j = some { x with pending := .cancel } := by
    rw [jobAt_set (s := u) rfl, if_pos rfl]
  rw [h.exec_sweepCancel hn hk hl (cancelByRequest_chunk hc), answerWith_due, jobResults_eq hjob]

theorem cancelByRequest_rest (hc : hasChunk u j = false) : cancelByRequest u j x =
    (engine (raiseAll (finishJob u j .cancelled []).1 (cancelEvents x j)), (finishJob u j .cancelled []).2.ops,
      .jobState .cancelled none .noAction) := if_neg (by simp [hc])

/-! ## The return rule (R134) -/

theorem rekeyLocked_iff_exists : rekeyLocked s x = true ↔
    x.kind = .rekey ∧ ∃ r, cursorRange x = some r ∧ s.ranges[r].lock = .locked := by
  unfold rekeyLocked
  cases hc : cursorRange x <;> simp

theorem powerHolds_iff : powerHolds s = true ↔
    s.sleepLine = true ∨ s.power.op ≠ .noOp ∨ s.power.state = .doze ∨ s.power.state = .sleep := by
  simp [powerHolds, or_assoc]

theorem returnJob_locked (hx : jobAt s j = some x) (h : rekeyLocked s x = true) :
    returnJob s j = setJob s j (.job { x with state := .paused, pause := some .locked, stall := none }) := by
  have hl : rekeyLocked s { x with stall := none } = true := h
  simp only [returnJob, hx, hl, if_true]

theorem returnJob_power (hx : jobAt s j = some x) (h : rekeyLocked s x ≠ true) (hp : powerHolds s = true) (hl : x.level ≠ 0) :
    returnJob s j = setJob s j (.job { x with state := .paused, pause := some .power, stall := none }) := by
  have hno : ¬ rekeyLocked s { x with stall := none } = true := h
  simp only [returnJob, hx]
  rw [if_neg hno, if_pos (by simp [hp, hl])]

theorem returnJob_queued (hx : jobAt s j = some x) (h : rekeyLocked s x ≠ true) (hp : ¬ (powerHolds s = true ∧ x.level ≠ 0)) :
    returnJob s j = setJob s j (.job { x with state := .queued, pause := none, stall := none }) := by
  have hno : ¬ rekeyLocked s { x with stall := none } = true := h
  simp only [returnJob, hx]
  rw [if_neg hno, if_neg fun he => hp (by simpa using he)]

/-! ## The requests, in whole -/

/-- Settles O57: each request finds the live job that it names and acts by its state; the report frees the finished entries one
by one; and the ranges of a PURGE job that has ended are released one by one. -/
theorem sweepRequestsActByTheJobsState : Obligations.SweepRequestsActByTheJobsState := by
  refine fun s b u d => ⟨fun c h hlive => ?_, fun c h hfin => ?_, fun n hn => ?_, fun n j x hn hx hf => ?_,
    fun t j x hx => ?_, fun t j x st l hx hst => ?_⟩
  · rw [h.exec_sweepStatus, freeReported_of_live hlive, carried_eq _ _ _ h.service]
    rfl
  · obtain ⟨hframe, hjobs⟩ := foldl_freeFinished allJobs u
    have hserv : (engine (allJobs.foldl freeFinished u)).control.service.isSome = true := by
      rw [engine_control, foldl_freeFinished_control]
      exact h.service
    refine ⟨allJobs.foldl freeFinished u, ?_, hframe, fun j => ?_⟩
    · rw [h.exec_sweepStatus, freeReported_of_finished hfin, carried_eq _ _ _ hserv]
      rfl
    · rw [hjobs, if_pos (mem_allJobs j)]
      cases hj : u.sweep.jobs[j] with
      | free => simp [jobAt_eq_jobOf, hj, jobOf, reported, -Fin.getElem_fin]
      | reserved => simp [jobAt_eq_jobOf, hj, jobOf, reported, -Fin.getElem_fin]
      | job x => simp [jobAt_eq_jobOf, hj, reported, -Fin.getElem_fin]
  · have hnone := toLiveJob_none hn
    exact ⟨fun h => h.exec_sweepPause_none hnone, fun h => h.exec_sweepResume_none hnone,
      fun h => h.exec_sweepCancel_none hnone⟩
  · have hlive := toLiveJob_some hn hx hf
    have hturn : ∀ f, (engine (endTurn u j f)).control = u.control := fun f =>
      (engine_control _).trans (endTurn_control u j f)
    refine ⟨fun h => ⟨h.exec_sweepPause_level hlive, fun hl hs hc => ?_, fun hl hs => ?_, fun hl hs => ?_, fun hl hs => ?_⟩,
      fun h => ⟨h.exec_sweepResume_level hlive, fun hs => ?_, fun hl hs hp => ?_, fun hl hs => ?_⟩,
      fun h => ⟨h.exec_sweepCancel_rekey hlive, h.exec_sweepCancel_level hlive, fun hk hl hc => ?_, fun hk hl hc => ?_⟩⟩
    · exact h.exec_sweepPause hlive hl (pauseByRequest_chunk hs hc) rfl
    · exact h.exec_sweepPause hlive hl (pauseByRequest_rest hs) (hturn _)
    · exact h.exec_sweepPause hlive hl (pauseByRequest_paused hs) rfl
    · exact h.exec_sweepPause hlive hl (pauseByRequest_stalled hs) rfl
    · exact h.exec_sweepResume hlive (hs.imp_left And.left) (resumeByRequest_returns (hs.imp_left And.right))
        ((engine_control _).trans (returnJob_control u j))
    · exact h.exec_sweepResume hlive (.inl hl) (resumeByRequest_pending hs hp) rfl
    · exact h.exec_sweepResume hlive (.inl hl) (resumeByRequest_same hs) rfl
    · exact h.exec_sweepCancel_pending hlive hk hl hc
    · exact h.exec_sweepCancel hlive hk hl (cancelByRequest_rest hc)
  · exact ⟨fun hshut => returnJob_locked hx (rekeyLocked_iff_exists.2 hshut),
      fun hshut hp => returnJob_power hx (hshut ∘ rekeyLocked_iff_exists.1) (powerHolds_iff.2 hp.2) hp.1,
      fun hshut hp => returnJob_queued hx (hshut ∘ rekeyLocked_iff_exists.1) fun he => hp ⟨he.2, powerHolds_iff.1 he.1⟩⟩
  · refine ⟨finishJob_rekey hx, fun hk => ⟨(finishJob_releases hx hk).frame, fun r => ⟨finishJob_left hx hk hst,
      finishJob_kept_range hx hk hst⟩, fun r => finishJob_steady hx hk hst, fun r => finishJob_drop hx hk hst,
      (finishJob_released hx hk).intents, Release.ops_eq _⟩⟩

end Sys2Proof.Machine
end
